-- ==== Sys2Proof/Syntax.lean ====
section
/-!
DEFINITION. The syntax: one constructor for each row of spec/opcode_table.json.
The first constructors are the encoded instructions (formats R88, R90, minor maps R93); their operands are the
fields of the encoding, a register field as the 5 bits of the word, `x` and `y` the relative bits XD and XA of R75.
The other constructors are the steps of the device's other agents (spec/95_what_each_step_holds.md).  They have no
encoding and no fields: which operation, core or unit takes the step stands in State (`subj`), as the strand that
executes an instruction does (`cur`).  COMPACT_JR has one constructor for each value of its 3-bit field: the compiled
form of an inductive type holds at most 244 constructors with fields.
-/

namespace Sys2Proof

/-- One constructor per row of the table of operations and events. -/
inductive Instr where
  /-- Sets sd to sa plus sb modulo 2^64. (R348) -/
  | add (d : BitVec 5) (a : BitVec 5) (b : BitVec 5) (x : Bool) (y : Bool)
  /-- Sets sd to sa minus sb modulo 2^64. (R483) -/
  | sub (d : BitVec 5) (a : BitVec 5) (b : BitVec 5) (x : Bool) (y : Bool)
  /-- Sets sd to the low 64 bits of sa times sb. (R439) -/
  | mul (d : BitVec 5) (a : BitVec 5) (b : BitVec 5) (x : Bool) (y : Bool)
  /-- Sets sd to the high 64 bits of the signed 128-bit product. (R439) -/
  | mulh (d : BitVec 5) (a : BitVec 5) (b : BitVec 5) (x : Bool) (y : Bool)
  /-- Sets sd to the high 64 bits of the unsigned 128-bit product. (R439) -/
  | mulhn (d : BitVec 5) (a : BitVec 5) (b : BitVec 5) (x : Bool) (y : Bool)
  /-- Signed 64-bit division truncated towards zero, with defined results for a zero divisor and overflow. (R387) -/
  | div (d : BitVec 5) (a : BitVec 5) (b : BitVec 5) (x : Bool) (y : Bool)
  /-- Unsigned 64-bit division, giving all ones for a zero divisor. (R387) -/
  | divn (d : BitVec 5) (a : BitVec 5) (b : BitVec 5) (x : Bool) (y : Bool)
  /-- Signed remainder with the sign of the dividend. (R464) -/
  | rem (d : BitVec 5) (a : BitVec 5) (b : BitVec 5) (x : Bool) (y : Bool)
  /-- Unsigned remainder, giving the dividend for a zero divisor. (R464) -/
  | remn (d : BitVec 5) (a : BitVec 5) (b : BitVec 5) (x : Bool) (y : Bool)
  /-- Bitwise AND of sa and sb into sd. (R354) -/
  | and (d : BitVec 5) (a : BitVec 5) (b : BitVec 5) (x : Bool) (y : Bool)
  /-- Bitwise OR of sa and sb into sd. (R441) -/
  | or (d : BitVec 5) (a : BitVec 5) (b : BitVec 5) (x : Bool) (y : Bool)
  /-- Bitwise XOR of sa and sb into sd. (R521) -/
  | xor (d : BitVec 5) (a : BitVec 5) (b : BitVec 5) (x : Bool) (y : Bool)
  /-- Shifts sa left by sb[5:0]. (R476) -/
  | shl (d : BitVec 5) (a : BitVec 5) (b : BitVec 5) (x : Bool) (y : Bool)
  /-- Shifts sa logically right by sb[5:0]. (R476) -/
  | shr (d : BitVec 5) (a : BitVec 5) (b : BitVec 5) (x : Bool) (y : Bool)
  /-- Shifts sa arithmetically right by sb[5:0]. (R476) -/
  | sra (d : BitVec 5) (a : BitVec 5) (b : BitVec 5) (x : Bool) (y : Bool)
  /-- Sets sd to 1 when sa is less than sb as signed values, otherwise 0. (R478) -/
  | slt (d : BitVec 5) (a : BitVec 5) (b : BitVec 5) (x : Bool) (y : Bool)
  /-- Sets sd to 1 when sa is less than sb as unsigned values, otherwise 0. (R478) -/
  | sltn (d : BitVec 5) (a : BitVec 5) (b : BitVec 5) (x : Bool) (y : Bool)
  /-- Signed minimum of sa and sb. (R426) -/
  | min (d : BitVec 5) (a : BitVec 5) (b : BitVec 5) (x : Bool) (y : Bool)
  /-- Unsigned minimum of sa and sb. (R426) -/
  | minn (d : BitVec 5) (a : BitVec 5) (b : BitVec 5) (x : Bool) (y : Bool)
  /-- Signed maximum of sa and sb. (R426) -/
  | max (d : BitVec 5) (a : BitVec 5) (b : BitVec 5) (x : Bool) (y : Bool)
  /-- Unsigned maximum of sa and sb. (R426) -/
  | maxn (d : BitVec 5) (a : BitVec 5) (b : BitVec 5) (x : Bool) (y : Bool)
  /-- Counts the leading zero bits of sa, giving 64 for zero. (R370) -/
  | clz (d : BitVec 5) (a : BitVec 5) (x : Bool) (y : Bool)
  /-- Counts the set bits of sa. (R447) -/
  | popc (d : BitVec 5) (a : BitVec 5) (x : Bool) (y : Bool)
  /-- Reverses the 64 bits of sa. (R365) -/
  | brev (d : BitVec 5) (a : BitVec 5) (x : Bool) (y : Bool)
  /-- Sign-extends the low 8, 16 or 32 bits of sa. (R475) -/
  | sext (d : BitVec 5) (a : BitVec 5) (x : Bool) (y : Bool) (z : BitVec 2)
  /-- Zero-extends the low 8, 16 or 32 bits of sa. (R524) -/
  | zext (d : BitVec 5) (a : BitVec 5) (x : Bool) (y : Bool) (z : BitVec 2)
  /-- Copies scalar sa into sd. (R437) -/
  | mov (d : BitVec 5) (a : BitVec 5) (x : Bool) (y : Bool)
  /-- Consumes the next 8 bytes of stream register qn into sd, blocking while they are missing. (R149) -/
  | movStream (d : BitVec 5) (n : BitVec 3) (x : Bool)
  /-- Reads message window register wn into sd. (R74) -/
  | movWindow (d : BitVec 5) (n : BitVec 3) (x : Bool)
  /-- Adds the sign-extended imm12 to sa. (R349) -/
  | addi (d : BitVec 5) (a : BitVec 5) (i : BitVec 12)
  /-- ANDs sa with the sign-extended imm12. (R355) -/
  | andi (d : BitVec 5) (a : BitVec 5) (i : BitVec 12)
  /-- ORs sa with the sign-extended imm12. (R442) -/
  | ori (d : BitVec 5) (a : BitVec 5) (i : BitVec 12)
  /-- XORs sa with the sign-extended imm12. (R522) -/
  | xori (d : BitVec 5) (a : BitVec 5) (i : BitVec 12)
  /-- Shifts sa left by an immediate of 0 to 63. (R477) -/
  | shli (d : BitVec 5) (a : BitVec 5) (i : BitVec 6)
  /-- Shifts sa logically right by an immediate of 0 to 63. (R477) -/
  | shri (d : BitVec 5) (a : BitVec 5) (i : BitVec 6)
  /-- Shifts sa arithmetically right by an immediate of 0 to 63. (R477) -/
  | srai (d : BitVec 5) (a : BitVec 5) (i : BitVec 6)
  /-- Signed comparison of sa with the sign-extended imm12. (R478) -/
  | slti (d : BitVec 5) (a : BitVec 5) (i : BitVec 12)
  /-- Sets sd to sa when sc is non-zero, otherwise to sb. (R470) -/
  | sel (d : BitVec 5) (a : BitVec 5) (b : BitVec 5) (x : Bool) (y : Bool) (c : BitVec 5)
  /-- Scalar fused multiply-add with one rounding. (R397) -/
  | ffma (d : BitVec 5) (a : BitVec 5) (b : BitVec 5) (x : Bool) (y : Bool) (c : BitVec 5) (t : BitVec 2)
  /-- Scalar float addition rounded by FMT.RM. (R392) -/
  | fadd (d : BitVec 5) (a : BitVec 5) (b : BitVec 5) (x : Bool) (y : Bool) (t : BitVec 2)
  /-- Scalar float subtraction rounded by FMT.RM. (R392) -/
  | fsub (d : BitVec 5) (a : BitVec 5) (b : BitVec 5) (x : Bool) (y : Bool) (t : BitVec 2)
  /-- Scalar float multiplication rounded by FMT.RM. (R392) -/
  | fmul (d : BitVec 5) (a : BitVec 5) (b : BitVec 5) (x : Bool) (y : Bool) (t : BitVec 2)
  /-- Float minimum with -0 below +0 and NaN handling of R122. (R398) -/
  | fmin (d : BitVec 5) (a : BitVec 5) (b : BitVec 5) (x : Bool) (y : Bool) (t : BitVec 2)
  /-- Float maximum with -0 below +0 and NaN handling of R122. (R398) -/
  | fmax (d : BitVec 5) (a : BitVec 5) (b : BitVec 5) (x : Bool) (y : Bool) (t : BitVec 2)
  /-- Sets sd to 1 when the floats are equal. (R393) -/
  | fcmpEq (d : BitVec 5) (a : BitVec 5) (b : BitVec 5) (x : Bool) (y : Bool) (t : BitVec 2)
  /-- Sets sd to 1 when sa is less than sb as floats. (R393) -/
  | fcmpLt (d : BitVec 5) (a : BitVec 5) (b : BitVec 5) (x : Bool) (y : Bool) (t : BitVec 2)
  /-- Sets sd to 1 when sa is less than or equal to sb as floats. (R393) -/
  | fcmpLe (d : BitVec 5) (a : BitVec 5) (b : BitVec 5) (x : Bool) (y : Bool) (t : BitVec 2)
  /-- Sets sd to 1 when either float operand is a NaN. (R393) -/
  | fcmpUn (d : BitVec 5) (a : BitVec 5) (b : BitVec 5) (x : Bool) (y : Bool) (t : BitVec 2)
  /-- Converts between float formats and integers by the code in rb. (R394) -/
  | fcvt (d : BitVec 5) (a : BitVec 5) (c : BitVec 5) (x : Bool) (y : Bool) (t : BitVec 2)
  /-- Correctly rounded float division through the cluster SFU. (R395) -/
  | fdiv (d : BitVec 5) (a : BitVec 5) (b : BitVec 5) (x : Bool) (y : Bool) (t : BitVec 2)
  /-- Correctly rounded float square root through the cluster SFU. (R395) -/
  | fsqrt (d : BitVec 5) (a : BitVec 5) (x : Bool) (y : Bool) (t : BitVec 2)
  /-- Loads the sign-extended imm18 into sd. (R422) -/
  | li (d : BitVec 5) (i : BitVec 18)
  /-- Loads SignExt(e0, 32) into sd. (R422) -/
  | liW (d : BitVec 5)
  /-- Loads e1:e0 into sd. (R422) -/
  | liD (d : BitVec 5)
  /-- Sets sd to sa plus sb shifted left by 0 to 3. (R421) -/
  | lea (d : BitVec 5) (a : BitVec 5) (b : BitVec 5) (x : Bool) (y : Bool) (s : BitVec 2)
  /-- Adds an offset to a pointer keeping its space tag. (R350) -/
  | addp (d : BitVec 5) (a : BitVec 5) (b : BitVec 5) (x : Bool) (y : Bool)
  /-- Places a space tag into bits [63:60] of sa. (R446) -/
  | pmake (d : BitVec 5) (a : BitVec 5) (t : BitVec 4) (x : Bool) (y : Bool)
  /-- Extracts the space tag of sa. (R451) -/
  | ptag (d : BitVec 5) (a : BitVec 5) (x : Bool) (y : Bool)
  /-- Sets xi to sa[15:0]. (R474) -/
  | setxi (a : BitVec 5) (y : Bool)
  /-- Adds a signed imm10 to xi modulo 2^16. (R351) -/
  | addxi (i : BitVec 10)
  /-- Sets en[31:26] to imm6 and keeps en[25:0]. (R390) -/
  | extHi (n : BitVec 2) (i : BitVec 6)
  /-- Sets extension register en to a zero-extended imm26. (R390) -/
  | ext (n : BitVec 2) (i : BitVec 26)
  /-- Branches when sa equals sb. (R360) -/
  | beq (a : BitVec 5) (b : BitVec 5) (o : BitVec 12)
  /-- Branches when sa differs from sb. (R360) -/
  | bne (a : BitVec 5) (b : BitVec 5) (o : BitVec 12)
  /-- Branches when sa is less than sb, signed. (R360) -/
  | blt (a : BitVec 5) (b : BitVec 5) (o : BitVec 12)
  /-- Branches when sa is greater than or equal to sb, signed. (R360) -/
  | bge (a : BitVec 5) (b : BitVec 5) (o : BitVec 12)
  /-- Branches when sa is less than sb, unsigned. (R360) -/
  | bltn (a : BitVec 5) (b : BitVec 5) (o : BitVec 12)
  /-- Branches when sa is greater than or equal to sb, unsigned. (R360) -/
  | bgen (a : BitVec 5) (b : BitVec 5) (o : BitVec 12)
  /-- Decrements sa and branches while it is non-zero. (R423) -/
  | loop (a : BitVec 5) (o : BitVec 12)
  /-- Relative jump within 16 MiB. (R408) -/
  | jmp (o : BitVec 24)
  /-- Relative jump that writes the return address to sd. (R408) -/
  | jal (d : BitVec 5) (o : BitVec 19)
  /-- Jumps to the address in sa. (R409) -/
  | jr (a : BitVec 5) (y : Bool)
  /-- Jumps to the address in sa and writes the return address to sd. (R408) -/
  | jalr (d : BitVec 5) (a : BitVec 5) (x : Bool) (y : Bool)
  /-- Stops and saves the strand and reports CAUSE BRK to the supervisor. (R366) -/
  | brk (c : BitVec 10)
  /-- Scalar load of 1 to 8 bytes, extended by type, with optional acquire. (R416) -/
  | ld (d : BitVec 5) (a : BitVec 5) (t : BitVec 3) (o : BitVec 2) (s : BitVec 3) (i : BitVec 5)
  /-- Loads the active bytes of a 16-byte vector. (R420) -/
  | ldv (d : BitVec 5) (a : BitVec 5) (k : BitVec 3) (o : BitVec 2) (s : BitVec 3) (i : BitVec 5)
  /-- Gathers active elements at sa plus the lane offsets of vb. (R419) -/
  | ldg (d : BitVec 5) (a : BitVec 5) (k : BitVec 3) (w : BitVec 2) (b : BitVec 5)
  /-- Prefetches a line into L1 or into its home bank and never traps. (R449) -/
  | pref (a : BitVec 5) (l : BitVec 1) (i : BitVec 5)
  /-- Scalar store of 1 to 8 bytes, with optional release. (R479) -/
  | st (d : BitVec 5) (a : BitVec 5) (t : BitVec 2) (o : BitVec 2) (s : BitVec 3) (i : BitVec 5)
  /-- Stores the active bytes of a vector register. (R482) -/
  | stv (d : BitVec 5) (a : BitVec 5) (k : BitVec 3) (o : BitVec 2) (s : BitVec 3) (i : BitVec 5)
  /-- Scatters active elements to sa plus the lane offsets of vb. (R481) -/
  | sts (d : BitVec 5) (a : BitVec 5) (k : BitVec 3) (w : BitVec 2) (b : BitVec 5)
  /-- Atomic add at the location's bank, returning the old value. (R352) -/
  | amoAdd (d : BitVec 5) (a : BitVec 5) (b : BitVec 5) (x : Bool) (y : Bool) (z : BitVec 2)
  /-- Atomic AND at the bank, returning the old value. (R352) -/
  | amoAnd (d : BitVec 5) (a : BitVec 5) (b : BitVec 5) (x : Bool) (y : Bool) (z : BitVec 2)
  /-- Atomic OR at the bank, returning the old value. (R352) -/
  | amoOr (d : BitVec 5) (a : BitVec 5) (b : BitVec 5) (x : Bool) (y : Bool) (z : BitVec 2)
  /-- Atomic XOR at the bank, returning the old value. (R352) -/
  | amoXor (d : BitVec 5) (a : BitVec 5) (b : BitVec 5) (x : Bool) (y : Bool) (z : BitVec 2)
  /-- Atomic signed minimum at the bank, returning the old value. (R352) -/
  | amoMin (d : BitVec 5) (a : BitVec 5) (b : BitVec 5) (x : Bool) (y : Bool) (z : BitVec 2)
  /-- Atomic signed maximum at the bank, returning the old value. (R352) -/
  | amoMax (d : BitVec 5) (a : BitVec 5) (b : BitVec 5) (x : Bool) (y : Bool) (z : BitVec 2)
  /-- Atomic swap at the bank, returning the old value. (R352) -/
  | amoSwap (d : BitVec 5) (a : BitVec 5) (b : BitVec 5) (x : Bool) (y : Bool) (z : BitVec 2)
  /-- Compare and swap at the bank, returning the old value. (R368) -/
  | cas (d : BitVec 5) (a : BitVec 5) (b : BitVec 5) (x : Bool) (y : Bool) (z : BitVec 2)
  /-- Requests configured update function e0[3:0] on a location and returns RET. (R500) -/
  | ufn (d : BitVec 5) (a : BitVec 5) (b : BitVec 5) (x : Bool) (y : Bool)
  /-- Installs an update function body in every update unit of the device. (R501) -/
  | ufncfg (a : BitVec 5) (b : BitVec 5) (y : Bool)
  /-- Adds a value into the issuing core's slot of a reduction line. (R461) -/
  | red (a : BitVec 5) (b : BitVec 5) (y : Bool) (z : BitVec 2)
  /-- Registers a monitor and blocks until a doubleword meets a condition. (R519) -/
  | waitc (d : BitVec 5) (a : BitVec 5) (b : BitVec 5) (x : Bool) (y : Bool) (c : BitVec 2)
  /-- Performs a release, acquire or both at a scope. (R396) -/
  | fence (o : BitVec 2) (s : BitVec 3)
  /-- Arrives at a cluster barrier. (R357) -/
  | bara (b : BitVec 5)
  /-- Waits for the barrier phase the strand arrived in to complete. (R358) -/
  | barw (b : BitVec 5)
  /-- Declares expected bytes on a barrier and optionally sets NEED. (R359) -/
  | barx (d : BitVec 5) (a : BitVec 5) (b : BitVec 5) (x : Bool) (y : Bool)
  /-- Stalls until the named counters fall within their bounds, raising arrived deferred faults. (R518) -/
  | wait (l : BitVec 6) (s : BitVec 6) (c : BitVec 6) (t : BitVec 6)
  /-- Builds a FIFO, STACK or BAG queue object and returns its handle. (R455) -/
  | qinit (d : BitVec 5) (a : BitVec 5) (b : BitVec 5) (x : Bool) (y : Bool)
  /-- Pushes an element using a cached permit. (R458) -/
  | qpush (d : BitVec 5) (a : BitVec 5) (b : BitVec 5) (x : Bool) (y : Bool) (z : BitVec 2)
  /-- Pops an element without blocking, possibly held in a Glover stage. (R456) -/
  | qpop (d : BitVec 5) (a : BitVec 5) (b : BitVec 5) (x : Bool) (y : Bool)
  /-- Pops an element, blocking while the object is empty. (R456) -/
  | qpopW (d : BitVec 5) (a : BitVec 5) (b : BitVec 5) (x : Bool) (y : Bool)
  /-- Takes an element from the far end of a STACK. (R459) -/
  | qsteal (d : BitVec 5) (a : BitVec 5) (b : BitVec 5) (x : Bool) (y : Bool)
  /-- Returns the object's element count at its service instant. (R454) -/
  | qavail (d : BitVec 5) (a : BitVec 5) (x : Bool) (y : Bool)
  /-- Asks the home for push permits and caches the grant. (R445) -/
  | permit (d : BitVec 5) (a : BitVec 5) (b : BitVec 5) (x : Bool) (y : Bool)
  /-- Returns cached permits to the home. (R450) -/
  | pret (a : BitVec 5) (b : BitVec 5) (y : Bool)
  /-- Ties a stream register to a queue object, copy stream or message channel. (R362) -/
  | bind (n : BitVec 3) (a : BitVec 5) (b : BitVec 5) (y : Bool)
  /-- Frees a stream register and discards its staged bytes. (R502) -/
  | unbind (n : BitVec 3)
  /-- Buffers a message on the request network. (R471) -/
  | send (a : BitVec 5) (b : BitVec 5) (y : Bool)
  /-- Buffers a message on the timed network, privileged or timed tasks only. (R471) -/
  | sendt (a : BitVec 5) (b : BitVec 5) (y : Bool)
  /-- Buffers a message on the reply network. (R471) -/
  | sendr (a : BitVec 5) (b : BitVec 5) (y : Bool)
  /-- Stores a value into the scratchpad of every member of a group via its root. (R431) -/
  | mcast (d : BitVec 5) (a : BitVec 5) (x : Bool) (y : Bool) (z : BitVec 2)
  /-- Buffers a message to a channel of the issuing core. (R486) -/
  | task (a : BitVec 5) (b : BitVec 5) (y : Bool)
  /-- Buffers an untimed, timed or peer kernel launch committed at END. (R412) -/
  | launch (d : BitVec 5) (a : BitVec 5) (b : BitVec 5) (x : Bool) (y : Bool)
  /-- Writes a handler table entry on any core of the device. (R404) -/
  | htset (a : BitVec 5) (b : BitVec 5) (y : Bool)
  /-- Writes the MASK bit of a handler table entry. (R403) -/
  | hmask (a : BitVec 5) (b : BitVec 5) (y : Bool)
  /-- Returns the task's MSGID. (R438) -/
  | msgid (d : BitVec 5) (x : Bool)
  /-- Moves the task with its register context to a channel of another core. (R434) -/
  | migrate (a : BitVec 5) (y : Bool)
  /-- Makes the strand the publisher of an instruction channel. (R452) -/
  | publish (c : BitVec 12)
  /-- Attaches a port to an instruction channel and stops the strand's own fetch. (R484) -/
  | subscribe (a : BitVec 5) (c : BitVec 12)
  /-- Detaches the subscriber when its own sa is non-zero. (R504) -/
  | unsubNz (a : BitVec 5)
  /-- Blocks an unsubscribed strand until marker r arrives, then rejoins the stream. (R466) -/
  | resub (c : BitVec 8) (r : BitVec 10)
  /-- Publishes a rendezvous marker. (R460) -/
  | rdv (r : BitVec 12)
  /-- Adds the issuing core to a group at its root. (R400) -/
  | join (g : BitVec 12)
  /-- Removes the issuing core from a group at its root. (R400) -/
  | leave (g : BitVec 12)
  /-- Returns a group's member count from its root. (R400) -/
  | gsize (d : BitVec 5) (g : BitVec 12)
  /-- Lane-wise addition of active elements. (R507) -/
  | vadd (d : BitVec 5) (a : BitVec 5) (b : BitVec 5) (k : BitVec 3) (t : BitVec 4)
  /-- Lane-wise subtraction of active elements. (R507) -/
  | vsub (d : BitVec 5) (a : BitVec 5) (b : BitVec 5) (k : BitVec 3) (t : BitVec 4)
  /-- Lane-wise saturating integer addition. (R507) -/
  | vadds (d : BitVec 5) (a : BitVec 5) (b : BitVec 5) (k : BitVec 3) (t : BitVec 4)
  /-- Lane-wise saturating integer subtraction. (R507) -/
  | vsubs (d : BitVec 5) (a : BitVec 5) (b : BitVec 5) (k : BitVec 3) (t : BitVec 4)
  /-- Lane-wise multiplication. (R507) -/
  | vmul (d : BitVec 5) (a : BitVec 5) (b : BitVec 5) (k : BitVec 3) (t : BitVec 4)
  /-- Lane-wise high half of the integer product. (R507) -/
  | vmulh (d : BitVec 5) (a : BitVec 5) (b : BitVec 5) (k : BitVec 3) (t : BitVec 4)
  /-- Lane-wise fused multiply-add into vd. (R507) -/
  | vfma (d : BitVec 5) (a : BitVec 5) (b : BitVec 5) (k : BitVec 3) (t : BitVec 4)
  /-- Lane-wise minimum. (R507) -/
  | vmin (d : BitVec 5) (a : BitVec 5) (b : BitVec 5) (k : BitVec 3) (t : BitVec 4)
  /-- Lane-wise maximum. (R507) -/
  | vmax (d : BitVec 5) (a : BitVec 5) (b : BitVec 5) (k : BitVec 3) (t : BitVec 4)
  /-- Lane-wise absolute value. (R507) -/
  | vabs (d : BitVec 5) (a : BitVec 5) (k : BitVec 3) (t : BitVec 4)
  /-- Lane-wise negation. (R507) -/
  | vneg (d : BitVec 5) (a : BitVec 5) (k : BitVec 3) (t : BitVec 4)
  /-- Lane-wise bitwise AND. (R507) -/
  | vand (d : BitVec 5) (a : BitVec 5) (b : BitVec 5) (k : BitVec 3) (t : BitVec 4)
  /-- Lane-wise bitwise OR. (R507) -/
  | vor (d : BitVec 5) (a : BitVec 5) (b : BitVec 5) (k : BitVec 3) (t : BitVec 4)
  /-- Lane-wise bitwise XOR. (R507) -/
  | vxor (d : BitVec 5) (a : BitVec 5) (b : BitVec 5) (k : BitVec 3) (t : BitVec 4)
  /-- Lane-wise bitwise NOT. (R507) -/
  | vnot (d : BitVec 5) (a : BitVec 5) (k : BitVec 3) (t : BitVec 4)
  /-- Lane-wise left shift by the lanes of vb. (R507) -/
  | vshl (d : BitVec 5) (a : BitVec 5) (b : BitVec 5) (k : BitVec 3) (t : BitVec 4)
  /-- Lane-wise logical right shift. (R507) -/
  | vshr (d : BitVec 5) (a : BitVec 5) (b : BitVec 5) (k : BitVec 3) (t : BitVec 4)
  /-- Lane-wise arithmetic right shift. (R507) -/
  | vsra (d : BitVec 5) (a : BitVec 5) (b : BitVec 5) (k : BitVec 3) (t : BitVec 4)
  /-- Selects each element from va where active, else from vb. (R507) -/
  | vsel (d : BitVec 5) (a : BitVec 5) (b : BitVec 5) (k : BitVec 3) (t : BitVec 4)
  /-- Widening dot product accumulated into 32-bit lanes. (R513) -/
  | vdot (d : BitVec 5) (a : BitVec 5) (b : BitVec 5) (k : BitVec 3) (t : BitVec 4)
  /-- Lane shuffle of va by the indices of vb. (R507) -/
  | vshuf (d : BitVec 5) (a : BitVec 5) (b : BitVec 5) (k : BitVec 3) (t : BitVec 4)
  /-- Broadcasts a scalar into every active element. (R507) -/
  | vbcast (d : BitVec 5) (a : BitVec 5) (k : BitVec 3) (t : BitVec 4)
  /-- Moves one element of va to a scalar register. (R516) -/
  | vmovs (d : BitVec 5) (a : BitVec 5) (l : BitVec 4) (t : BitVec 4)
  /-- Consumes the next 16 bytes of a stream register into vd. (R516) -/
  | vmovsStream (d : BitVec 5) (n : BitVec 3)
  /-- Inserts a scalar into one element of vd. (R507) -/
  | vins (d : BitVec 5) (a : BitVec 5) (l : BitVec 4) (t : BitVec 4)
  /-- Converts elements between types. (R511) -/
  | vcvt (d : BitVec 5) (a : BitVec 5) (s : BitVec 4) (k : BitVec 3) (t : BitVec 4)
  /-- Reduces active elements into element 0 in ascending order. (R517) -/
  | vred (d : BitVec 5) (a : BitVec 5) (o : BitVec 5) (k : BitVec 3) (t : BitVec 4)
  /-- Inclusive prefix scan over active elements. (R517) -/
  | vscan (d : BitVec 5) (a : BitVec 5) (o : BitVec 5) (k : BitVec 3) (t : BitVec 4)
  /-- Combines values of equal keys into leader lanes and writes the leader mask. (R515) -/
  | vmatch (d : BitVec 5) (a : BitVec 5) (b : BitVec 5) (k : BitVec 3) (p : BitVec 2) (w : BitVec 2)
  /-- Keeps the N2 largest of each M2 elements and writes their values and metadata records. (R510) -/
  | vcompress (d : BitVec 5) (a : BitVec 5) (b : BitVec 5) (k : BitVec 3) (t : BitVec 4)
  /-- Expands compressed values by their metadata records. (R514) -/
  | vexpand (d : BitVec 5) (a : BitVec 5) (b : BitVec 5) (k : BitVec 3) (t : BitVec 4)
  /-- Writes a one-hot float class for each active element. (R508) -/
  | vclass (d : BitVec 5) (a : BitVec 5) (k : BitVec 3) (t : BitVec 4)
  /-- SFU reciprocal of each active element. (R512) -/
  | vrcp (d : BitVec 5) (a : BitVec 5) (k : BitVec 3) (t : BitVec 4)
  /-- SFU reciprocal square root of each active element. (R512) -/
  | vrsq (d : BitVec 5) (a : BitVec 5) (k : BitVec 3) (t : BitVec 4)
  /-- SFU base-2 exponential of each active element. (R512) -/
  | vexp2 (d : BitVec 5) (a : BitVec 5) (k : BitVec 3) (t : BitVec 4)
  /-- SFU base-2 logarithm of each active element. (R512) -/
  | vlog2 (d : BitVec 5) (a : BitVec 5) (k : BitVec 3) (t : BitVec 4)
  /-- SFU hyperbolic tangent of each active element. (R512) -/
  | vtanh (d : BitVec 5) (a : BitVec 5) (k : BitVec 3) (t : BitVec 4)
  /-- SFU division of each active element. (R512) -/
  | vdiv (d : BitVec 5) (a : BitVec 5) (b : BitVec 5) (k : BitVec 3) (t : BitVec 4)
  /-- Sets mask bits where active elements are equal. (R509) -/
  | vcmpEq (d : BitVec 3) (a : BitVec 5) (b : BitVec 5) (k : BitVec 3) (t : BitVec 4)
  /-- Sets mask bits where active elements differ. (R509) -/
  | vcmpNe (d : BitVec 3) (a : BitVec 5) (b : BitVec 5) (k : BitVec 3) (t : BitVec 4)
  /-- Sets mask bits where a is less than b. (R509) -/
  | vcmpLt (d : BitVec 3) (a : BitVec 5) (b : BitVec 5) (k : BitVec 3) (t : BitVec 4)
  /-- Sets mask bits where a is less than or equal to b. (R509) -/
  | vcmpLe (d : BitVec 3) (a : BitVec 5) (b : BitVec 5) (k : BitVec 3) (t : BitVec 4)
  /-- Sets mask bits where a is greater than b. (R509) -/
  | vcmpGt (d : BitVec 3) (a : BitVec 5) (b : BitVec 5) (k : BitVec 3) (t : BitVec 4)
  /-- Sets mask bits where a is greater than or equal to b. (R509) -/
  | vcmpGe (d : BitVec 3) (a : BitVec 5) (b : BitVec 5) (k : BitVec 3) (t : BitVec 4)
  /-- Sets mask bits where either float element is a NaN. (R509) -/
  | vcmpUn (d : BitVec 3) (a : BitVec 5) (b : BitVec 5) (k : BitVec 3) (t : BitVec 4)
  /-- kd := ka AND kb. (R411) -/
  | kand (d : BitVec 3) (a : BitVec 3) (b : BitVec 3)
  /-- kd := ka OR kb. (R411) -/
  | kor (d : BitVec 3) (a : BitVec 3) (b : BitVec 3)
  /-- kd := ka XOR kb. (R411) -/
  | kxor (d : BitVec 3) (a : BitVec 3) (b : BitVec 3)
  /-- kd := NOT ka. (R411) -/
  | knot (d : BitVec 3) (a : BitVec 3)
  /-- Copies mask ka into kd. (R411) -/
  | kmov (d : BitVec 3) (a : BitVec 3)
  /-- Copies sa[15:0] into kd. (R411) -/
  | kmovScalar (d : BitVec 3) (s : BitVec 5)
  /-- Counts the set bits of ka into sd. (R411) -/
  | kpop (d : BitVec 5) (a : BitVec 3)
  /-- Writes the index of the lowest set bit of ka, or 16. (R411) -/
  | kfirst (d : BitVec 5) (a : BitVec 3)
  /-- Claims operand slots and accumulators for the context, all or nothing. (R206) -/
  | claim (s : BitVec 5)
  /-- Frees claimed slots and accumulators once no queued operation names them. (R207) -/
  | release (s : BitVec 5)
  /-- Fills a slot or slot pair from memory through the tile queue. (R209) -/
  | tload (d : BitVec 5) (a : BitVec 5) (b : BitVec 5)
  /-- Dense tile multiply-accumulate into an accumulator. (R215) -/
  | tmma (d : BitVec 5) (a : BitVec 5) (b : BitVec 5)
  /-- Two-level sparse tile multiply-accumulate. (R223) -/
  | tsmma (d : BitVec 5) (a : BitVec 5) (b : BitVec 5) (s : BitVec 5)
  /-- Clears an accumulator through the tile queue. (R496) -/
  | tzero (d : BitVec 5)
  /-- Converts an accumulator and writes it to memory. (R219) -/
  | tstore (d : BitVec 5) (a : BitVec 5) (b : BitVec 5)
  /-- Sets the f32 scale of a slot at once. (R216) -/
  | tscale (d : BitVec 5) (a : BitVec 5)
  /-- Copies 16 words of an accumulator row into four vector registers. (R218) -/
  | taccv (d : BitVec 5) (a : BitVec 5) (s : BitVec 5)
  /-- Computes each A token's best B match and makes the map MATCHED. (R235) -/
  | tmatch (d : BitVec 5) (a : BitVec 5) (b : BitVec 5)
  /-- Merges the r best edges, writes merged rows and makes the map MERGED. (R237) -/
  | tmerge (d : BitVec 5) (a : BitVec 5) (b : BitVec 5) (s : BitVec 5)
  /-- Adds the size bias of merged tokens to accumulator logits. (R239) -/
  | tmsize (d : BitVec 5) (a : BitVec 5) (s : BitVec 5)
  /-- Spreads merged rows back over the original positions. (R240) -/
  | tunmerge (d : BitVec 5) (a : BitVec 5) (b : BitVec 5) (s : BitVec 5)
  /-- Composes two MERGED maps into a destination map. (R241) -/
  | tmapcomp (d : BitVec 5) (a : BitVec 5) (b : BitVec 5)
  /-- Frees a map identifier once no queued entry names it. (R242) -/
  | tmapfree (d : BitVec 5)
  /-- Writes a MERGED map image to memory. (R241) -/
  | tmapsave (d : BitVec 5) (a : BitVec 5)
  /-- Loads a map image from memory into a map identifier. (R241) -/
  | tmapload (d : BitVec 5) (a : BitVec 5)
  /-- Gives the core's mailbox to the context, sets k, or gives it up. (R427) -/
  | mboxk (a : BitVec 5) (y : Bool)
  /-- Buffers a score put to a token's home mailbox. (R428) -/
  | mbput (a : BitVec 5) (b : BitVec 5) (y : Bool)
  /-- Reads a token's chosen expert set and makes the entry COMBINING. (R429) -/
  | mbtake (d : BitVec 5) (a : BitVec 5) (b : BitVec 5) (x : Bool) (y : Bool)
  /-- Computes a replica index from a token id hash. (R465) -/
  | repl (d : BitVec 5) (a : BitVec 5) (b : BitVec 5) (x : Bool) (y : Bool)
  /-- Buffers a token row as an active message to a row queue. (R251) -/
  | expsend (d : BitVec 5) (a : BitVec 5) (b : BitVec 5) (x : Bool) (y : Bool)
  /-- Starts a copy engine thread between memories or into a stream. (R371) -/
  | copy (d : BitVec 5) (a : BitVec 5) (b : BitVec 5) (x : Bool) (y : Bool)
  /-- Copies bytes into the scratchpad of every member of a group. (R376) -/
  | copym (d : BitVec 5) (a : BitVec 5) (b : BitVec 5) (x : Bool) (y : Bool)
  /-- Configures or releases a stage of an ingest profile. (R315) -/
  | ingcfg (a : BitVec 5) (b : BitVec 5) (y : Bool)
  /-- Submits an ingest descriptor to the die's chain and returns its ticket. (R317) -/
  | ingq (d : BitVec 5) (a : BitVec 5) (x : Bool) (y : Bool)
  /-- Raises a trap with a software-chosen cause and TVAL. (R492) -/
  | trap (a : BitVec 5) (b : BitVec 5) (y : Bool)
  /-- Ends handling of a report and releases or removes the suspended message. (R279) -/
  | rett (a : BitVec 5) (b : BitVec 5) (y : Bool)
  /-- Traps with cause ECALL and a 10-bit code. (R388) -/
  | ecall (c : BitVec 10)
  /-- Reads a control register. (R378) -/
  | csrr (d : BitVec 5) (r : BitVec 12)
  /-- Writes a control register with RW, RO and RS field semantics. (R379) -/
  | csrw (a : BitVec 5) (r : BitVec 12)
  /-- Removes translations of an ASID or range from every holder. (R487) -/
  | tlbinv (a : BitVec 5) (b : BitVec 5) (y : Bool)
  /-- Writes a task save image of the issuing strand. (R384) -/
  | ctxsave (d : BitVec 5) (a : BitVec 5) (x : Bool) (y : Bool)
  /-- Replaces the strand's state with a task save image. (R382) -/
  | ctxload (a : BitVec 5) (y : Bool)
  /-- Blocks at low power until a message arrival or a DEVTIME limit. (R405) -/
  | idle (d : BitVec 5) (a : BitVec 5) (x : Bool) (y : Bool)
  /-- Requests or releases a clock pin for the cluster. (R312) -/
  | pwrreq (d : BitVec 5) (a : BitVec 5) (y : Bool)
  /-- Reads performance counter PMCn. (R443) -/
  | perfr (d : BitVec 5) (n : BitVec 3) (x : Bool)
  /-- Forces the save of a named strand and returns the outcome. (R287) -/
  | preempt (d : BitVec 5) (a : BitVec 5) (y : Bool)
  /-- Writes FMT[26:0], carried to subscribers. (R473) -/
  | setfmt (a : BitVec 5) (y : Bool)
  /-- Reads FMT[26:0]. (R399) -/
  | getfmt (d : BitVec 5) (x : Bool)
  /-- 16-bit form of ADD on s0-s7. (R91) -/
  | compactAdd (d : BitVec 3) (a : BitVec 3) (b : BitVec 3)
  /-- 16-bit form of SUB. (R91) -/
  | compactSub (d : BitVec 3) (a : BitVec 3) (b : BitVec 3)
  /-- 16-bit form of AND. (R91) -/
  | compactAnd (d : BitVec 3) (a : BitVec 3) (b : BitVec 3)
  /-- 16-bit form of OR. (R91) -/
  | compactOr (d : BitVec 3) (a : BitVec 3) (b : BitVec 3)
  /-- 16-bit form of XOR. (R91) -/
  | compactXor (d : BitVec 3) (a : BitVec 3) (b : BitVec 3)
  /-- 16-bit form of MOV sd, sa. (R91) -/
  | compactMov (d : BitVec 3) (a : BitVec 3)
  /-- 16-bit form of SHL. (R91) -/
  | compactShl (d : BitVec 3) (a : BitVec 3) (b : BitVec 3)
  /-- 16-bit form of SHR. (R91) -/
  | compactShr (d : BitVec 3) (a : BitVec 3) (b : BitVec 3)
  /-- 16-bit form of SRA. (R91) -/
  | compactSra (d : BitVec 3) (a : BitVec 3) (b : BitVec 3)
  /-- 16-bit form of ADDI with a signed imm4. (R91) -/
  | compactAddi (d : BitVec 3) (a : BitVec 3) (i : BitVec 4)
  /-- 16-bit form of SHLI. (R91) -/
  | compactShli (d : BitVec 3) (a : BitVec 3) (i : BitVec 4)
  /-- 16-bit form of SHRI. (R91) -/
  | compactShri (d : BitVec 3) (a : BitVec 3) (i : BitVec 4)
  /-- 16-bit form of LD.i64 with offset imm4 x 8. (R91) -/
  | compactLd (d : BitVec 3) (a : BitVec 3) (i : BitVec 4)
  /-- 16-bit form of ST.i64 with offset imm4 x 8. (R91) -/
  | compactSt (d : BitVec 3) (a : BitVec 3) (i : BitVec 4)
  /-- 16-bit form of LDV with k0. (R91) -/
  | compactLdv (d : BitVec 3) (a : BitVec 3) (i : BitVec 4)
  /-- 16-bit form of STV with k0. (R91) -/
  | compactStv (d : BitVec 3) (a : BitVec 3) (i : BitVec 4)
  /-- 16-bit BEQ comparing sa with s0. (R361) -/
  | compactBeq (a : BitVec 3) (o : BitVec 7)
  /-- 16-bit BNE comparing sa with s0. (R361) -/
  | compactBne (a : BitVec 3) (o : BitVec 7)
  /-- 16-bit form of VADD.f32 with k0. (R91) -/
  | compactVaddF32 (d : BitVec 3) (a : BitVec 3) (b : BitVec 3)
  /-- 16-bit form of VMUL.f32 with k0. (R91) -/
  | compactVmulF32 (d : BitVec 3) (a : BitVec 3) (b : BitVec 3)
  /-- 16-bit form of VFMA.f32 with k0. (R91) -/
  | compactVfmaF32 (d : BitVec 3) (a : BitVec 3) (b : BitVec 3)
  /-- 16-bit form of VADD.i32 with k0. (R91) -/
  | compactVaddI32 (d : BitVec 3) (a : BitVec 3) (b : BitVec 3)
  /-- 16-bit form of SLT. (R91) -/
  | compactSlt (d : BitVec 3) (a : BitVec 3) (b : BitVec 3)
  /-- 16-bit form of LI with a signed imm7. (R91) -/
  | compactLi (d : BitVec 3) (i : BitVec 7)
  /-- 16-bit form of VSUB.f32 with k0. (R91) -/
  | compactVsubF32 (d : BitVec 3) (a : BitVec 3) (b : BitVec 3)
  /-- Waits for ld and st, commits buffered sends, frees streams and the slot, ending the task. (R389) -/
  | endTask
  /-- Passes the strand's issue turns to the other ready strands. (R523) -/
  | yield
  /-- Changes no state. (R440) -/
  | nop
  /-- Ends the publication, detaching every port as it reaches them. (R503) -/
  | unpublish
  /-- Detaches the subscriber from the stream. (R504) -/
  | unsub
  /-- Ends the task and stops selection on the core until a host message on channel 0. (R401) -/
  | halt
  /-- 16-bit form of JR s0 (one constructor for each of the 8 values of the register field). (R91) -/
  | compactJrS0
  /-- 16-bit form of JR s1 (one constructor for each of the 8 values of the register field). (R91) -/
  | compactJrS1
  /-- 16-bit form of JR s2 (one constructor for each of the 8 values of the register field). (R91) -/
  | compactJrS2
  /-- 16-bit form of JR s3 (one constructor for each of the 8 values of the register field). (R91) -/
  | compactJrS3
  /-- 16-bit form of JR s4 (one constructor for each of the 8 values of the register field). (R91) -/
  | compactJrS4
  /-- 16-bit form of JR s5 (one constructor for each of the 8 values of the register field). (R91) -/
  | compactJrS5
  /-- 16-bit form of JR s6 (one constructor for each of the 8 values of the register field). (R91) -/
  | compactJrS6
  /-- 16-bit form of JR s7 (one constructor for each of the 8 values of the register field). (R91) -/
  | compactJrS7
  /-- 16-bit form of END. (R91) -/
  | compactEnd
  /-- 16-bit form of NOP. (R91) -/
  | compactNop
  /-- 16-bit form of YIELD. (R91) -/
  | compactYield
  /-- 16-bit WAIT for all four counters to be zero. (R91) -/
  | compactWait
  /-- 16-bit form of BRK 0. (R91) -/
  | compactBrk
  /-- A message arrives at a core and takes a receive-store entry or waits in the network. (R33) -/
  | messageArrival
  /-- Selection fills a FREE slot with the highest-level runnable channel and starts its task. (R36) -/
  | taskStart
  /-- A pre-empted or stopped task is restored from its save image into a slot. (R286) -/
  | taskResume
  /-- A SAVED map is reloaded through the tile queue ahead of the resumed task's entries. (R243) -/
  | mapReload
  /-- A migration message is selected at the target channel and the task continues or is aborted. (R436) -/
  | migrationArrival
  /-- A blocked strand whose wake-up condition became true returns to READY. (R47) -/
  | wakeUp
  /-- BUDGETLEFT reaches zero, pre-empting a capped task or trapping with BUDGET. (R42) -/
  | budgetExpiry
  /-- A runnable channel pre-empts the lowest-level BLOCKED strand when no slot is free. (R41) -/
  | preemptionByArrival
  /-- After its waits, a strand is written to a free task save image and its slot freed. (R282) -/
  | taskSave
  /-- A trapping strand, once drained, discards its sends, returns its message and posts a report. (R38) -/
  | trapReport
  /-- The host driver or a privileged strand creates a context. (R27) -/
  | contextCreate
  /-- A context is destroyed, freeing its resources and aborting its strands without a report. (R27) -/
  | contextDestroy
  /-- A remote or global load reply arrives and writes its destination register. (R156) -/
  | loadReply
  /-- A store, atomic or RED acknowledgement with its t_c returns to the issuer. (R162) -/
  | storeAck
  /-- A fault found after an access left the core arrives and completes the access for its counter. (R158) -/
  | deferredFaultArrival
  /-- A migration forwarding entry ends after 4 microseconds; later replies are dropped. (R45) -/
  | forwardingEntryExpiry
  /-- An L1 miss is served at the home bank with a lease end recorded for the line. (R144) -/
  | leaseGrant
  /-- A live lease ends, letting a waiting miss take a way in the home bank set. (R146) -/
  | leaseEnd
  /-- An HBM4E line fill into a home bank completes. (R527) -/
  | hbmLineFill
  /-- A store is applied at its bank and t_c returned. (R145) -/
  | storeApply
  /-- An AMO or CAS is read and applied at the bank's update unit. (R178) -/
  | atomicApply
  /-- A configured update function runs at the bank in one update cycle. (R181) -/
  | ufnApply
  /-- A RED is applied into the issuing core's slot of a reduction line. (R182) -/
  | redApply
  /-- A RED waiting 10 microseconds for a slot is refused with RTFULL. (R184) -/
  | redSlotTimeout
  /-- A WAITC reads its word at the bank and registers a monitor in one bank cycle. (R174) -/
  | monitorRegistration
  /-- With a full monitor table, WAITC re-reads its word every microsecond. (R186) -/
  | waitcRetry
  /-- A scratchpad bank serves the next request of its queue. (R140) -/
  | scratchpadBankAccess
  /-- A table walk on the owning die completes and fills the translation caches. (R154) -/
  | translationWalk
  /-- The home bank writes a queue descriptor line. (R192) -/
  | queueHomeQinit
  /-- A push is served at the object's home. (R195) -/
  | queueHomePush
  /-- A pop is served at the object's home or waits there for a push. (R196) -/
  | queueHomePop
  /-- A steal is served at the object's home. (R201) -/
  | queueHomeSteal
  /-- QAVAIL is served at the object's home. (R196) -/
  | queueHomeAvail
  /-- The home grants permits and records their expiry. (R194) -/
  | queueHomePermit
  /-- Returned permits reach the home. (R450) -/
  | queueHomePret
  /-- A permit record's lease expires and its count leaves GRANTED. (R194) -/
  | permitExpiry
  /-- A QPOP.w without a free monitor entry retries every microsecond. (R196) -/
  | qpopWRetry
  /-- A push passing a Glover stage pairs with the oldest held pop of its handle. (R199) -/
  | gloverMatch
  /-- A held pop's window ends and it falls through to the home. (R200) -/
  | gloverWindowExpiry
  /-- The stream engine brings in the next element while a read of the register is blocked. (R149) -/
  | streamEnginePop
  /-- After an EMPTY answer the stream engine retries its pop 64 mesh cycles later. (R364) -/
  | streamPopRetry
  /-- The SFU accepts one request per core cycle by a rotating core pointer. (R273) -/
  | sfuAccept
  /-- An SFU result returns to its strand's register. (R273) -/
  | sfuResult
  /-- A copy engine thread finishes, releases and reports done through its completion object. (R373) -/
  | copyDone
  /-- A tile queue entry makes its last write and the tl counters fall. (R225) -/
  | tileOpComplete
  /-- A Fuller entry makes its last write and the tl counters fall. (R244) -/
  | fullerOpComplete
  /-- A delivery credits its bytes to a cluster barrier. (R189) -/
  | barrierCredit
  /-- A JOIN, LEAVE or GSIZE is applied at the group's root router. (R43) -/
  | groupRootUpdate
  /-- A multicast or COPYM is serialised at the group's root. (R172) -/
  | mcastSerialise
  /-- A group member applies or refuses its multicast copy. (R173) -/
  | mcastMemberApply
  /-- A published instruction reaches a subscriber's port after skew S. (R53) -/
  | streamInstructionArrival
  /-- A port's issue count report reaches the publisher and may release its hold. (R55) -/
  | issueCountReport
  /-- A port registration is recorded at the channel home, followed by the count add. (R51) -/
  | subscriptionRegistration
  /-- A member cluster completes its switch to the group frequency. (R56) -/
  | frequencyLockSwitch
  /-- A score put is applied to the target core's mailbox. (R248) -/
  | mailboxPut
  /-- A RESULT row is accepted once per chosen expert or discarded as a duplicate. (R254) -/
  | resultCombine
  /-- After commit the core reads the row and sends it, or bounces on a read fault. (R251) -/
  | expsendRowRead
  /-- An arriving row is written to its ring slot or refused. (R253) -/
  | rowArrival
  /-- TIMER expires on unannounced rows and forces an announcement. (R253) -/
  | rowQueueTimer
  /-- The core posts a row-queue announcement once a receive entry is free. (R253) -/
  | announcement
  /-- The die's launch unit posts one task message per mesh cycle. (R262) -/
  | launchTaskPost
  /-- After commit the launch unit reads the dimension record and registers its fence wait. (R256) -/
  | dimensionRecordRead
  /-- The named fence reaches TARGET; the unit acquires, reads DIMS and posts the tasks. (R256) -/
  | launchFenceMet
  /-- The fence wait exceeds TIMEOUT and STATUS code 2 is written. (R256) -/
  | launchFenceTimeout
  /-- The Tailor reads a timed record, tests admission and reserves slots, floors and permits. (R267) -/
  | tailorAdmission
  /-- A timed record with OP = 1 cancels a reservation. (R272) -/
  | tailorCancel
  /-- At a frame start, timed tasks are posted or released and permits credited. (R268) -/
  | runFrameStart
  /-- At each frame end, untimed strands on a core with reserved slots are pre-empted. (R260) -/
  | untimedCapExpiry
  /-- A timed task within its provisos not ended at its run frame's end raises DEADLINE. (R270) -/
  | deadline
  /-- A T1 or T3 run frame, or an ENDING reservation's frame, ends and the reservation is freed. (R272) -/
  | reservationEnd
  /-- A timed task's BLOCKED time exceeds WAIT and it lapses. (R271) -/
  | timedWaitLapse
  /-- A runnable untimed channel rises one level after AGEUS microseconds. (R257) -/
  | ageingStep
  /-- DEVTIME reaches an IDLE's limit and it completes with 0. (R405) -/
  | idleTimeLimit
  /-- A correctable error is corrected and logged. (R288) -/
  | correctableError
  /-- An uncorrectable error aborts, poisons or fences as its structure dictates. (R289) -/
  | uncorrectableError
  /-- On detecting a lost die the device fences it, aborts touching contexts and ends its channels and groups. (R293) -/
  | dieLoss
  /-- A reset die is re-admitted with reset state and poisoned HBM. (R294) -/
  | dieReadmission
  /-- A link packet arrives at an edge gateway and is turned into a mesh packet. (R299) -/
  | linkPacketArrival
  /-- A flit fails its CRC and the sender resends from the retry buffer. (R300) -/
  | flitCrcFailure
  /-- After eight failed resends in a row the port retrains from LANES. (R300) -/
  | portRetrain
  /-- A width marker switches the port to a new width at the next flit boundary. (R301) -/
  | widthMarker
  /-- A packet with no READY port for 1 ms is refused. (R303) -/
  | routeWaitTimeout
  /-- A space 0x6 read fails or does not complete in 50 ms and becomes a deferred PAGE fault. (R305) -/
  | hostReadTimeout
  /-- A partner's signal is seen in DETECT and the port moves to LANES. (R296) -/
  | portPartnerSeen
  /-- No partner is seen within 10 ms and the port returns to DOWN. (R296) -/
  | portDetectTimeout
  /-- Polarity and lane reversal are corrected and LANEOK found. (R296) -/
  | laneTraining
  /-- The common speed and FEC are settled. (R297) -/
  | speedSettle
  /-- The port width is settled. (R297) -/
  | widthSettle
  /-- Partners exchange and verify signed identity records. (R298) -/
  | attestation
  /-- Module reset starts bring-up of every die. (R306) -/
  | moduleReset
  /-- The boot ROM verifies the firmware image. (R306) -/
  | firmwareStage
  /-- HBM4E training of the die's stacks completes. (R306) -/
  | memoryStage
  /-- Mesh self-test completes and DEVTIME is set. (R306) -/
  | meshStage
  /-- Link training completes and the die's cores are released. (R306) -/
  | linksStage
  /-- Every 10 microseconds a cluster governor reads its stall ratio and sets its choice. (R310) -/
  | governorSample
  /-- The regulator reports the raised supply settled and the clock switches. (R311) -/
  | regulatorSettled
  /-- A sensor at 105 degrees forces the cluster or lock domain to f = 9. (R313) -/
  | thermalTrip
  /-- A tripped sensor reads 95 degrees or less and the forced clock ends. (R313) -/
  | thermalRecovery
  /-- A sensor reading 125 degrees shuts its die down as lost. (R313) -/
  | thermalShutdown
  /-- The inflate stage decodes and decompresses one message. (R319) -/
  | ingestInflate
  /-- The transcode stage maps one message to UTF-8. (R320) -/
  | ingestTranscode
  /-- The tokenise stage cuts and merges one message into token ids. (R321) -/
  | ingestTokenise
  /-- Tokenise pushes a 64-byte row to OUTQ under permits. (R322) -/
  | ingestRowPush
  /-- Tokenise with no permits asks again every microsecond. (R323) -/
  | ingestPermitRetry
  /-- Stage work exceeds TIMEOUT and the message is quarantined with cause 5. (R324) -/
  | ingestTimeout
  /-- A message waits over 10 ms for output permits and is quarantined with cause 6. (R323) -/
  | ingestOutputStall
  /-- The host posts a message or launch over PCIe. (R528) -/
  | hostPostedMessage
  /-- The host names a timed record through the driver's launch doorbell. (R263) -/
  | hostLaunch
  /-- A host posted write to device memory is applied in PCIe order. (R168) -/
  | hostPostedWrite
  /-- A write of 1 to MODCTL.READY sets the module ready and starts link bring-up. (R302) -/
  | modctlReady
  /-- A write to DIERESET resets a lost die, which repeats bring-up. (R307) -/
  | diereset
  /-- A host doorbell write releases a report on the host ring as RETT does. (R280) -/
  | reportDoorbell
  /-- Setting DISABLE holds a port DOWN and clearing it restarts training. (R296) -/
  | portstatDisable
  /-- A host write to a BAR 0 register with no behaviour of its own stores its value. (R304) -/
  | hostRegisterWrite
  /-- A COPY with STREAM = 1 delivers its next 16-byte element into the stream register's STAGE whenever STAGE holds 48 bytes or fewer. (R375) -/
  | copyStreamDelivery
  /-- An HTSET or HMASK request arrives at its target core and the handler table entry write is applied there. (R402) -/
  | handlerTableEntryWrite
  /-- A TLBINV invalidation reaches each L1 TLB, second-level cache and peer gateway holding the translation, which removes it and acknowledges. (R488) -/
  | translationInvalidation
  deriving DecidableEq, Repr

end Sys2Proof
end

