-- ==== Sys2Proof/WellFormed.lean ====
section
/-!
DEFINITION. Well-formed instructions: the field values each form accepts (R79, R87, R93, R94, Tables 4.10, 4.16 and
25.2).  Every other value of a field traps with ILLOP at decode (R96 step 2).
-/

namespace Sys2Proof

/-- The type codes 0-10 of Table 4.10 that vector elements take (R498): integers and the three float formats. -/
def isElemType (t : BitVec 4) : Bool := decide (t.toNat ≤ 10)

/-- The integer type codes 0-7 of Table 4.10. -/
def isIntType (t : BitVec 4) : Bool := decide (t.toNat ≤ 7)

/-- The float type codes f32, f16 and bf16 of Table 4.10. -/
def isFloatType (t : BitVec 4) : Bool := decide (8 ≤ t.toNat) && decide (t.toNat ≤ 10)

/-- The types of VABS and VNEG: signed integers and floats (Table 25.2). -/
def isAbsType (t : BitVec 4) : Bool := decide (t.toNat ≤ 3) || isFloatType t

/-- The source types of VDOT (Table 25.2). -/
def isDotType (t : BitVec 4) : Bool := [0, 1, 4, 5, 9, 10].contains t.toNat

/-- The types of VCOMPRESS and VEXPAND (Table 25.2). -/
def isCompressType (t : BitVec 4) : Bool := [0, 1, 9, 10].contains t.toNat

/-- The bytes of one element of a type code (R505). -/
def typeBytes (t : BitVec 4) : Nat :=
  match t.toNat with
  | 0 | 4 => 1
  | 1 | 5 | 9 | 10 => 2
  | 2 | 6 | 8 => 4
  | _ => 8

/-- The order and scope fields of a load: none or .acq, a scope up to SYSTEM, scope 0 without an order (Table 4.16). -/
def loadOrder (o : BitVec 2) (s : BitVec 3) : Bool := (o == 0 && s == 0) || (o == 1 && decide (s.toNat ≤ 5))

/-- The order and scope fields of a store: none or .rel (Table 4.16). -/
def storeOrder (o : BitVec 2) (s : BitVec 3) : Bool := (o == 0 && s == 0) || (o == 2 && decide (s.toNat ≤ 5))

/-- The control register numbers of Table 4.4. -/
def isCsr (r : BitVec 12) : Bool :=
  let n := r.toNat
  decide (n ≤ 0x00D) || (decide (0x010 ≤ n) && decide (n ≤ 0x019)) || (decide (0x100 ≤ n) && decide (n ≤ 0x107)) ||
    (decide (0x120 ≤ n) && decide (n ≤ 0x127))

/-- The field values that each form accepts (R94, Table 4.16). -/
def Instr.wf : Instr → Bool
  | .sext _ _ _ _ z => z != 3
  | .zext _ _ _ _ z => z != 3
  | .ffma _ _ _ _ _ _ t => t != 3
  | .fadd _ _ _ _ _ t => t != 3
  | .fsub _ _ _ _ _ t => t != 3
  | .fmul _ _ _ _ _ t => t != 3
  | .fmin _ _ _ _ _ t => t != 3
  | .fmax _ _ _ _ _ t => t != 3
  | .fcmpEq _ _ _ _ _ t => t != 3
  | .fcmpLt _ _ _ _ _ t => t != 3
  | .fcmpLe _ _ _ _ _ t => t != 3
  | .fcmpUn _ _ _ _ _ t => t != 3
  | .fcvt _ _ c _ _ t => t != 3 && decide (c.toNat ≤ 10)
  | .fdiv _ _ _ _ _ t => t != 3
  | .fsqrt _ _ _ _ t => t != 3
  | .ld _ _ t o s _ => t != 7 && loadOrder o s
  | .ldv _ _ _ o s _ => loadOrder o s
  | .st _ _ _ o s _ => storeOrder o s
  | .stv _ _ _ o s _ => storeOrder o s
  | .amoAdd _ _ _ _ _ z => decide (2 ≤ z.toNat)
  | .amoAnd _ _ _ _ _ z => decide (2 ≤ z.toNat)
  | .amoOr _ _ _ _ _ z => decide (2 ≤ z.toNat)
  | .amoXor _ _ _ _ _ z => decide (2 ≤ z.toNat)
  | .amoMin _ _ _ _ _ z => decide (2 ≤ z.toNat)
  | .amoMax _ _ _ _ _ z => decide (2 ≤ z.toNat)
  | .amoSwap _ _ _ _ _ z => decide (2 ≤ z.toNat)
  | .cas _ _ _ _ _ z => decide (2 ≤ z.toNat)
  | .red _ _ _ z => decide (z.toNat ≤ 1)
  | .fence o s => o != 0 && decide (s.toNat ≤ 5)
  | .qpush _ _ _ _ _ z => z != 3
  | .publish c => decide (c.toNat ≤ 255)
  | .subscribe _ c => decide (c.toNat ≤ 255)
  | .rdv r => decide (r.toNat ≤ 1023)
  | .vadd _ _ _ _ t => isElemType t
  | .vsub _ _ _ _ t => isElemType t
  | .vadds _ _ _ _ t => isIntType t
  | .vsubs _ _ _ _ t => isIntType t
  | .vmul _ _ _ _ t => isElemType t
  | .vmulh _ _ _ _ t => isIntType t
  | .vfma _ _ _ _ t => isElemType t
  | .vmin _ _ _ _ t => isElemType t
  | .vmax _ _ _ _ t => isElemType t
  | .vabs _ _ _ t => isAbsType t
  | .vneg _ _ _ t => isAbsType t
  | .vand _ _ _ _ t => isIntType t
  | .vor _ _ _ _ t => isIntType t
  | .vxor _ _ _ _ t => isIntType t
  | .vnot _ _ _ t => isIntType t
  | .vshl _ _ _ _ t => isIntType t
  | .vshr _ _ _ _ t => isIntType t
  | .vsra _ _ _ _ t => isIntType t
  | .vsel _ _ _ _ t => isElemType t
  | .vdot _ _ _ _ t => isDotType t
  | .vshuf _ _ _ _ t => isElemType t
  | .vbcast _ _ _ t => isElemType t
  | .vmovs _ _ l t => isElemType t && decide (l.toNat < 16 / typeBytes t)
  | .vins _ _ l t => isElemType t && decide (l.toNat < 16 / typeBytes t)
  | .vcvt _ _ s _ t => isElemType t && isElemType s
  | .vred _ _ o _ t => isElemType t && decide (o.toNat ≤ 5) && (decide (o.toNat ≤ 2) || !isFloatType t)
  | .vscan _ _ o _ t => isElemType t && decide (o.toNat ≤ 5) && (decide (o.toNat ≤ 2) || !isFloatType t)
  | .vcompress _ _ _ _ t => isCompressType t
  | .vexpand _ _ _ _ t => isCompressType t
  | .vclass _ _ _ t => isFloatType t
  | .vrcp _ _ _ t => isFloatType t
  | .vrsq _ _ _ t => isFloatType t
  | .vexp2 _ _ _ t => isFloatType t
  | .vlog2 _ _ _ t => isFloatType t
  | .vtanh _ _ _ t => isFloatType t
  | .vdiv _ _ _ _ t => isFloatType t
  | .vcmpEq _ _ _ _ t => isElemType t
  | .vcmpNe _ _ _ _ t => isElemType t
  | .vcmpLt _ _ _ _ t => isElemType t
  | .vcmpLe _ _ _ _ t => isElemType t
  | .vcmpGt _ _ _ _ t => isElemType t
  | .vcmpGe _ _ _ _ t => isElemType t
  | .vcmpUn _ _ _ _ t => isElemType t
  | .tmma d _ _ => decide (d.toNat < 16)
  | .tsmma d _ _ _ => decide (d.toNat < 16)
  | .tzero d => decide (d.toNat < 16)
  | .tstore d _ _ => decide (d.toNat < 16)
  | .taccv _ a _ => decide (a.toNat < 16)
  | .tmsize d _ _ => decide (d.toNat < 16)
  | .csrr _ r => isCsr r
  | .csrw _ r => isCsr r
  | .add _ _ _ _ _ => true
  | .sub _ _ _ _ _ => true
  | .mul _ _ _ _ _ => true
  | .mulh _ _ _ _ _ => true
  | .mulhn _ _ _ _ _ => true
  | .div _ _ _ _ _ => true
  | .divn _ _ _ _ _ => true
  | .rem _ _ _ _ _ => true
  | .remn _ _ _ _ _ => true
  | .and _ _ _ _ _ => true
  | .or _ _ _ _ _ => true
  | .xor _ _ _ _ _ => true
  | .shl _ _ _ _ _ => true
  | .shr _ _ _ _ _ => true
  | .sra _ _ _ _ _ => true
  | .slt _ _ _ _ _ => true
  | .sltn _ _ _ _ _ => true
  | .min _ _ _ _ _ => true
  | .minn _ _ _ _ _ => true
  | .max _ _ _ _ _ => true
  | .maxn _ _ _ _ _ => true
  | .clz _ _ _ _ => true
  | .popc _ _ _ _ => true
  | .brev _ _ _ _ => true
  | .mov _ _ _ _ => true
  | .movStream _ _ _ => true
  | .movWindow _ _ _ => true
  | .addi _ _ _ => true
  | .andi _ _ _ => true
  | .ori _ _ _ => true
  | .xori _ _ _ => true
  | .shli _ _ _ => true
  | .shri _ _ _ => true
  | .srai _ _ _ => true
  | .slti _ _ _ => true
  | .sel _ _ _ _ _ _ => true
  | .li _ _ => true
  | .liW _ => true
  | .liD _ => true
  | .lea _ _ _ _ _ _ => true
  | .addp _ _ _ _ _ => true
  | .pmake _ _ _ _ _ => true
  | .ptag _ _ _ _ => true
  | .setxi _ _ => true
  | .addxi _ => true
  | .extHi _ _ => true
  | .ext _ _ => true
  | .beq _ _ _ => true
  | .bne _ _ _ => true
  | .blt _ _ _ => true
  | .bge _ _ _ => true
  | .bltn _ _ _ => true
  | .bgen _ _ _ => true
  | .loop _ _ => true
  | .jmp _ => true
  | .jal _ _ => true
  | .jr _ _ => true
  | .jalr _ _ _ _ => true
  | .endTask => true
  | .yield => true
  | .nop => true
  | .brk _ => true
  | .ldg _ _ _ _ _ => true
  | .pref _ _ _ => true
  | .sts _ _ _ _ _ => true
  | .ufn _ _ _ _ _ => true
  | .ufncfg _ _ _ => true
  | .waitc _ _ _ _ _ _ => true
  | .bara _ => true
  | .barw _ => true
  | .barx _ _ _ _ _ => true
  | .wait _ _ _ _ => true
  | .qinit _ _ _ _ _ => true
  | .qpop _ _ _ _ _ => true
  | .qpopW _ _ _ _ _ => true
  | .qsteal _ _ _ _ _ => true
  | .qavail _ _ _ _ => true
  | .permit _ _ _ _ _ => true
  | .pret _ _ _ => true
  | .bind _ _ _ _ => true
  | .unbind _ => true
  | .send _ _ _ => true
  | .sendt _ _ _ => true
  | .sendr _ _ _ => true
  | .mcast _ _ _ _ _ => true
  | .task _ _ _ => true
  | .launch _ _ _ _ _ => true
  | .htset _ _ _ => true
  | .hmask _ _ _ => true
  | .msgid _ _ => true
  | .migrate _ _ => true
  | .unpublish => true
  | .unsub => true
  | .unsubNz _ => true
  | .resub _ _ => true
  | .join _ => true
  | .leave _ => true
  | .gsize _ _ => true
  | .vmovsStream _ _ => true
  | .vmatch _ _ _ _ _ _ => true
  | .kand _ _ _ => true
  | .kor _ _ _ => true
  | .kxor _ _ _ => true
  | .knot _ _ => true
  | .kmov _ _ => true
  | .kmovScalar _ _ => true
  | .kpop _ _ => true
  | .kfirst _ _ => true
  | .claim _ => true
  | .release _ => true
  | .tload _ _ _ => true
  | .tscale _ _ => true
  | .tmatch _ _ _ => true
  | .tmerge _ _ _ _ => true
  | .tunmerge _ _ _ _ => true
  | .tmapcomp _ _ _ => true
  | .tmapfree _ => true
  | .tmapsave _ _ => true
  | .tmapload _ _ => true
  | .mboxk _ _ => true
  | .mbput _ _ _ => true
  | .mbtake _ _ _ _ _ => true
  | .repl _ _ _ _ _ => true
  | .expsend _ _ _ _ _ => true
  | .copy _ _ _ _ _ => true
  | .copym _ _ _ _ _ => true
  | .ingcfg _ _ _ => true
  | .ingq _ _ _ _ => true
  | .trap _ _ _ => true
  | .rett _ _ _ => true
  | .ecall _ => true
  | .tlbinv _ _ _ => true
  | .ctxsave _ _ _ _ => true
  | .ctxload _ _ => true
  | .halt => true
  | .idle _ _ _ _ => true
  | .pwrreq _ _ _ => true
  | .perfr _ _ _ => true
  | .preempt _ _ _ => true
  | .setfmt _ _ => true
  | .getfmt _ _ => true
  | .compactAdd _ _ _ => true
  | .compactSub _ _ _ => true
  | .compactAnd _ _ _ => true
  | .compactOr _ _ _ => true
  | .compactXor _ _ _ => true
  | .compactMov _ _ => true
  | .compactShl _ _ _ => true
  | .compactShr _ _ _ => true
  | .compactSra _ _ _ => true
  | .compactAddi _ _ _ => true
  | .compactShli _ _ _ => true
  | .compactShri _ _ _ => true
  | .compactLd _ _ _ => true
  | .compactSt _ _ _ => true
  | .compactLdv _ _ _ => true
  | .compactStv _ _ _ => true
  | .compactBeq _ _ => true
  | .compactBne _ _ => true
  | .compactVaddF32 _ _ _ => true
  | .compactVmulF32 _ _ _ => true
  | .compactVfmaF32 _ _ _ => true
  | .compactVaddI32 _ _ _ => true
  | .compactJrS0 => true
  | .compactJrS1 => true
  | .compactJrS2 => true
  | .compactJrS3 => true
  | .compactJrS4 => true
  | .compactJrS5 => true
  | .compactJrS6 => true
  | .compactJrS7 => true
  | .compactEnd => true
  | .compactNop => true
  | .compactYield => true
  | .compactSlt _ _ _ => true
  | .compactLi _ _ => true
  | .compactWait => true
  | .compactBrk => true
  | .compactVsubF32 _ _ _ => true
  | .messageArrival => true
  | .taskStart => true
  | .taskResume => true
  | .mapReload => true
  | .migrationArrival => true
  | .wakeUp => true
  | .budgetExpiry => true
  | .preemptionByArrival => true
  | .taskSave => true
  | .trapReport => true
  | .contextCreate => true
  | .contextDestroy => true
  | .loadReply => true
  | .storeAck => true
  | .deferredFaultArrival => true
  | .forwardingEntryExpiry => true
  | .leaseGrant => true
  | .leaseEnd => true
  | .hbmLineFill => true
  | .storeApply => true
  | .atomicApply => true
  | .ufnApply => true
  | .redApply => true
  | .redSlotTimeout => true
  | .monitorRegistration => true
  | .waitcRetry => true
  | .scratchpadBankAccess => true
  | .translationWalk => true
  | .queueHomeQinit => true
  | .queueHomePush => true
  | .queueHomePop => true
  | .queueHomeSteal => true
  | .queueHomeAvail => true
  | .queueHomePermit => true
  | .queueHomePret => true
  | .permitExpiry => true
  | .qpopWRetry => true
  | .gloverMatch => true
  | .gloverWindowExpiry => true
  | .streamEnginePop => true
  | .streamPopRetry => true
  | .sfuAccept => true
  | .sfuResult => true
  | .copyDone => true
  | .tileOpComplete => true
  | .fullerOpComplete => true
  | .barrierCredit => true
  | .groupRootUpdate => true
  | .mcastSerialise => true
  | .mcastMemberApply => true
  | .streamInstructionArrival => true
  | .issueCountReport => true
  | .subscriptionRegistration => true
  | .frequencyLockSwitch => true
  | .mailboxPut => true
  | .resultCombine => true
  | .expsendRowRead => true
  | .rowArrival => true
  | .rowQueueTimer => true
  | .announcement => true
  | .launchTaskPost => true
  | .dimensionRecordRead => true
  | .launchFenceMet => true
  | .launchFenceTimeout => true
  | .tailorAdmission => true
  | .tailorCancel => true
  | .runFrameStart => true
  | .untimedCapExpiry => true
  | .deadline => true
  | .reservationEnd => true
  | .timedWaitLapse => true
  | .ageingStep => true
  | .idleTimeLimit => true
  | .correctableError => true
  | .uncorrectableError => true
  | .dieLoss => true
  | .dieReadmission => true
  | .linkPacketArrival => true
  | .flitCrcFailure => true
  | .portRetrain => true
  | .widthMarker => true
  | .routeWaitTimeout => true
  | .hostReadTimeout => true
  | .portPartnerSeen => true
  | .portDetectTimeout => true
  | .laneTraining => true
  | .speedSettle => true
  | .widthSettle => true
  | .attestation => true
  | .moduleReset => true
  | .firmwareStage => true
  | .memoryStage => true
  | .meshStage => true
  | .linksStage => true
  | .governorSample => true
  | .regulatorSettled => true
  | .thermalTrip => true
  | .thermalRecovery => true
  | .thermalShutdown => true
  | .ingestInflate => true
  | .ingestTranscode => true
  | .ingestTokenise => true
  | .ingestRowPush => true
  | .ingestPermitRetry => true
  | .ingestTimeout => true
  | .ingestOutputStall => true
  | .hostPostedMessage => true
  | .hostLaunch => true
  | .hostPostedWrite => true
  | .modctlReady => true
  | .diereset => true
  | .reportDoorbell => true
  | .portstatDisable => true
  | .hostRegisterWrite => true
  | .copyStreamDelivery => true
  | .handlerTableEntryWrite => true
  | .translationInvalidation => true

end Sys2Proof
end

