-- ==== Sys2Proof/Word.lean ====
section
/-!
DEFINITION. The words of the machine: a byte, a scalar register's 64 bits, a vector register's 128 bits (R1, R73).
-/

namespace Sys2Proof

/-- A byte of memory (R1). -/
abbrev Byte := BitVec 8

/-- The contents of a scalar register (R73). -/
abbrev Word := BitVec 64

/-- The contents of a vector register: 16 byte lanes (R73). -/
abbrev Vec := BitVec 128

end Sys2Proof
end

