-- ==== Sys2Proof/Decode.lean ====
section
/-!
DEFINITION. Decoding and encoding, written from the formats of R88 and R90, the major map R92, the minor maps R93 and
the reserved fields of R94.  A 32-bit word is numbered as the manual numbers it: the halfword at the PC is bits [31:16]
(R86).  Decoding is total: what no row names is refused by name, and a well-formed row is checked by `Instr.wf`.
-/

namespace Sys2Proof

/-- Why a bit pattern is no instruction (each is an ILLOP of R96 step 2). -/
inductive DecodeError where
  /-- Fewer halfwords than the instruction has. -/
  | short
  /-- A major opcode, minor value or compact opcode that no row assigns (R92, R93, R91). -/
  | unassigned
  /-- A non-zero reserved field, or XD or XA where R75 forbids it. -/
  | reserved
  /-- A field value outside Table 4.16 or a type outside the entry's list. -/
  | badField
  deriving DecidableEq, Repr

/-- `len` bits of a word from bit `lo` up. -/
def fld (w lo len : Nat) : Nat := w / 2 ^ lo % 2 ^ len

/-- A field of a word as a bit vector of its width. -/
def field (w lo len : Nat) : BitVec len := BitVec.ofNat len (w / 2 ^ lo)

/-- A field of one bit as a truth value. -/
def flag (w lo : Nat) : Bool := fld w lo 1 == 1

/-- An instruction whose reserved fields hold what the row fixes. -/
def row (ok : Bool) (i : Instr) : Except DecodeError Instr := if ok then .ok i else .error .reserved

/-- Major 0x01 (Table 4.15). -/
def decodeIntR (w : Nat) : Except DecodeError Instr :=
  match fld w 0 6 with
  | 0 => row (fld w 6 2 == 0) (.add (field w 20 5) (field w 15 5) (field w 10 5) (flag w 9) (flag w 8))
  | 1 => row (fld w 6 2 == 0) (.sub (field w 20 5) (field w 15 5) (field w 10 5) (flag w 9) (flag w 8))
  | 2 => row (fld w 6 2 == 0) (.mul (field w 20 5) (field w 15 5) (field w 10 5) (flag w 9) (flag w 8))
  | 3 => row (fld w 6 2 == 0) (.mulh (field w 20 5) (field w 15 5) (field w 10 5) (flag w 9) (flag w 8))
  | 4 => row (fld w 6 2 == 0) (.mulhn (field w 20 5) (field w 15 5) (field w 10 5) (flag w 9) (flag w 8))
  | 5 => row (fld w 6 2 == 0) (.div (field w 20 5) (field w 15 5) (field w 10 5) (flag w 9) (flag w 8))
  | 6 => row (fld w 6 2 == 0) (.divn (field w 20 5) (field w 15 5) (field w 10 5) (flag w 9) (flag w 8))
  | 7 => row (fld w 6 2 == 0) (.rem (field w 20 5) (field w 15 5) (field w 10 5) (flag w 9) (flag w 8))
  | 8 => row (fld w 6 2 == 0) (.remn (field w 20 5) (field w 15 5) (field w 10 5) (flag w 9) (flag w 8))
  | 9 => row (fld w 6 2 == 0) (.and (field w 20 5) (field w 15 5) (field w 10 5) (flag w 9) (flag w 8))
  | 10 => row (fld w 6 2 == 0) (.or (field w 20 5) (field w 15 5) (field w 10 5) (flag w 9) (flag w 8))
  | 11 => row (fld w 6 2 == 0) (.xor (field w 20 5) (field w 15 5) (field w 10 5) (flag w 9) (flag w 8))
  | 12 => row (fld w 6 2 == 0) (.shl (field w 20 5) (field w 15 5) (field w 10 5) (flag w 9) (flag w 8))
  | 13 => row (fld w 6 2 == 0) (.shr (field w 20 5) (field w 15 5) (field w 10 5) (flag w 9) (flag w 8))
  | 14 => row (fld w 6 2 == 0) (.sra (field w 20 5) (field w 15 5) (field w 10 5) (flag w 9) (flag w 8))
  | 15 => row (fld w 6 2 == 0) (.slt (field w 20 5) (field w 15 5) (field w 10 5) (flag w 9) (flag w 8))
  | 16 => row (fld w 6 2 == 0) (.sltn (field w 20 5) (field w 15 5) (field w 10 5) (flag w 9) (flag w 8))
  | 17 => row (fld w 6 2 == 0) (.min (field w 20 5) (field w 15 5) (field w 10 5) (flag w 9) (flag w 8))
  | 18 => row (fld w 6 2 == 0) (.minn (field w 20 5) (field w 15 5) (field w 10 5) (flag w 9) (flag w 8))
  | 19 => row (fld w 6 2 == 0) (.max (field w 20 5) (field w 15 5) (field w 10 5) (flag w 9) (flag w 8))
  | 20 => row (fld w 6 2 == 0) (.maxn (field w 20 5) (field w 15 5) (field w 10 5) (flag w 9) (flag w 8))
  | 21 => row (fld w 6 2 == 0 && fld w 10 5 == 0) (.clz (field w 20 5) (field w 15 5) (flag w 9) (flag w 8))
  | 22 => row (fld w 6 2 == 0 && fld w 10 5 == 0) (.popc (field w 20 5) (field w 15 5) (flag w 9) (flag w 8))
  | 23 => row (fld w 6 2 == 0 && fld w 10 5 == 0) (.brev (field w 20 5) (field w 15 5) (flag w 9) (flag w 8))
  | 24 => row (fld w 10 5 == 0) (.sext (field w 20 5) (field w 15 5) (flag w 9) (flag w 8) (field w 6 2))
  | 25 => row (fld w 10 5 == 0) (.zext (field w 20 5) (field w 15 5) (flag w 9) (flag w 8) (field w 6 2))
  | 26 => if fld w 6 2 == 0 && fld w 10 5 == 0 then .ok (.mov (field w 20 5) (field w 15 5) (flag w 9) (flag w 8)) else if fld w 6 3 == 1 && fld w 13 7 == 0 then .ok (.movStream (field w 20 5) (field w 10 3) (flag w 9)) else if fld w 6 3 == 2 && fld w 10 5 == 0 && fld w 18 2 == 3 then .ok (.movWindow (field w 20 5) (field w 15 3) (flag w 9)) else .error .reserved
  | _ => .error .unassigned

/-- Major 0x02 (Table 4.15). -/
def decodeImm (w : Nat) : Except DecodeError Instr :=
  match fld w 12 3 with
  | 0 => row (true) (.addi (field w 20 5) (field w 15 5) (field w 0 12))
  | 1 => row (true) (.andi (field w 20 5) (field w 15 5) (field w 0 12))
  | 2 => row (true) (.ori (field w 20 5) (field w 15 5) (field w 0 12))
  | 3 => row (true) (.xori (field w 20 5) (field w 15 5) (field w 0 12))
  | 4 => row (fld w 6 6 == 0) (.shli (field w 20 5) (field w 15 5) (field w 0 6))
  | 5 => row (fld w 6 6 == 0) (.shri (field w 20 5) (field w 15 5) (field w 0 6))
  | 6 => row (fld w 6 6 == 0) (.srai (field w 20 5) (field w 15 5) (field w 0 6))
  | 7 => row (true) (.slti (field w 20 5) (field w 15 5) (field w 0 12))
  | _ => .error .unassigned

/-- Major 0x03 (Table 4.15). -/
def decodeSel (w : Nat) : Except DecodeError Instr :=
  match fld w 0 1 with
  | 0 => row (fld w 1 2 == 0) (.sel (field w 20 5) (field w 15 5) (field w 10 5) (flag w 9) (flag w 8) (field w 3 5))
  | 1 => row (true) (.ffma (field w 20 5) (field w 15 5) (field w 10 5) (flag w 9) (flag w 8) (field w 3 5) (field w 1 2))
  | _ => .error .unassigned

/-- Major 0x04 (Table 4.15). -/
def decodeFp (w : Nat) : Except DecodeError Instr :=
  match fld w 0 6 with
  | 0 => row (true) (.fadd (field w 20 5) (field w 15 5) (field w 10 5) (flag w 9) (flag w 8) (field w 6 2))
  | 1 => row (true) (.fsub (field w 20 5) (field w 15 5) (field w 10 5) (flag w 9) (flag w 8) (field w 6 2))
  | 2 => row (true) (.fmul (field w 20 5) (field w 15 5) (field w 10 5) (flag w 9) (flag w 8) (field w 6 2))
  | 3 => row (true) (.fmin (field w 20 5) (field w 15 5) (field w 10 5) (flag w 9) (flag w 8) (field w 6 2))
  | 4 => row (true) (.fmax (field w 20 5) (field w 15 5) (field w 10 5) (flag w 9) (flag w 8) (field w 6 2))
  | 5 => row (true) (.fcmpEq (field w 20 5) (field w 15 5) (field w 10 5) (flag w 9) (flag w 8) (field w 6 2))
  | 6 => row (true) (.fcmpLt (field w 20 5) (field w 15 5) (field w 10 5) (flag w 9) (flag w 8) (field w 6 2))
  | 7 => row (true) (.fcmpLe (field w 20 5) (field w 15 5) (field w 10 5) (flag w 9) (flag w 8) (field w 6 2))
  | 8 => row (true) (.fcmpUn (field w 20 5) (field w 15 5) (field w 10 5) (flag w 9) (flag w 8) (field w 6 2))
  | 9 => row (true) (.fcvt (field w 20 5) (field w 15 5) (field w 10 5) (flag w 9) (flag w 8) (field w 6 2))
  | 10 => row (true) (.fdiv (field w 20 5) (field w 15 5) (field w 10 5) (flag w 9) (flag w 8) (field w 6 2))
  | 11 => row (fld w 10 5 == 0) (.fsqrt (field w 20 5) (field w 15 5) (flag w 9) (flag w 8) (field w 6 2))
  | _ => .error .unassigned

/-- Major 0x05 (Table 4.15). -/
def decodeLi (w : Nat) : Except DecodeError Instr :=
  match fld w 18 2 with
  | 0 => row (true) (.li (field w 20 5) (field w 0 18))
  | 1 => row (fld w 0 18 == 0) (.liW (field w 20 5))
  | 2 => row (fld w 0 18 == 0) (.liD (field w 20 5))
  | _ => .error .unassigned

/-- Major 0x06 (Table 4.15). -/
def decodeAddr (w : Nat) : Except DecodeError Instr :=
  match fld w 0 6 with
  | 0 => row (true) (.lea (field w 20 5) (field w 15 5) (field w 10 5) (flag w 9) (flag w 8) (field w 6 2))
  | 1 => row (fld w 6 2 == 0) (.addp (field w 20 5) (field w 15 5) (field w 10 5) (flag w 9) (flag w 8))
  | 2 => row (fld w 6 2 == 0 && fld w 14 1 == 0) (.pmake (field w 20 5) (field w 15 5) (field w 10 4) (flag w 9) (flag w 8))
  | 3 => row (fld w 6 2 == 0 && fld w 10 5 == 0) (.ptag (field w 20 5) (field w 15 5) (flag w 9) (flag w 8))
  | 4 => row (fld w 6 2 == 0 && fld w 9 6 == 0 && fld w 20 5 == 0) (.setxi (field w 15 5) (flag w 8))
  | 5 => row (fld w 6 4 == 0 && fld w 20 5 == 0) (.addxi (field w 10 10))
  | 6 => row (fld w 6 4 == 0 && fld w 16 4 == 0 && fld w 22 3 == 0) (.extHi (field w 20 2) (field w 10 6))
  | _ => .error .unassigned

/-- Major 0x07 (Table 4.15). -/
def decodeBranch (w : Nat) : Except DecodeError Instr :=
  match fld w 22 3 with
  | 0 => row (true) (.beq (field w 17 5) (field w 12 5) (field w 0 12))
  | 1 => row (true) (.bne (field w 17 5) (field w 12 5) (field w 0 12))
  | 2 => row (true) (.blt (field w 17 5) (field w 12 5) (field w 0 12))
  | 3 => row (true) (.bge (field w 17 5) (field w 12 5) (field w 0 12))
  | 4 => row (true) (.bltn (field w 17 5) (field w 12 5) (field w 0 12))
  | 5 => row (true) (.bgen (field w 17 5) (field w 12 5) (field w 0 12))
  | 6 => row (fld w 12 5 == 0) (.loop (field w 17 5) (field w 0 12))
  | _ => .error .unassigned

/-- Major 0x08 (Table 4.15). -/
def decodeJump (w : Nat) : Except DecodeError Instr :=
  match fld w 24 1 with
  | 0 => row (true) (.jmp (field w 0 24))
  | 1 => row (true) (.jal (field w 19 5) (field w 0 19))
  | _ => .error .unassigned

/-- Major 0x09 (Table 4.15). -/
def decodeControl (w : Nat) : Except DecodeError Instr :=
  match fld w 0 6 with
  | 0 => row (fld w 6 2 == 0 && fld w 9 6 == 0 && fld w 20 5 == 0) (.jr (field w 15 5) (flag w 8))
  | 1 => row (fld w 6 2 == 0 && fld w 10 5 == 0) (.jalr (field w 20 5) (field w 15 5) (flag w 9) (flag w 8))
  | 2 => row (fld w 6 19 == 0) (.endTask)
  | 3 => row (fld w 6 19 == 0) (.yield)
  | 4 => row (fld w 6 19 == 0) (.nop)
  | 5 => row (fld w 6 4 == 0 && fld w 20 5 == 0) (.brk (field w 10 10))
  | _ => .error .unassigned

/-- Major 0x0a (Table 4.15). -/
def decodeLoad (w : Nat) : Except DecodeError Instr :=
  match fld w 13 2 with
  | 0 => row (true) (.ld (field w 20 5) (field w 15 5) (field w 10 3) (field w 8 2) (field w 5 3) (field w 0 5))
  | 1 => row (true) (.ldv (field w 20 5) (field w 15 5) (field w 10 3) (field w 8 2) (field w 5 3) (field w 0 5))
  | 2 => row (fld w 5 3 == 0) (.ldg (field w 20 5) (field w 15 5) (field w 10 3) (field w 8 2) (field w 0 5))
  | 3 => row (fld w 5 5 == 0 && fld w 11 2 == 0 && fld w 20 5 == 0) (.pref (field w 15 5) (field w 10 1) (field w 0 5))
  | _ => .error .unassigned

/-- Major 0x0b (Table 4.15). -/
def decodeStore (w : Nat) : Except DecodeError Instr :=
  match fld w 13 2 with
  | 0 => row (fld w 12 1 == 0) (.st (field w 20 5) (field w 15 5) (field w 10 2) (field w 8 2) (field w 5 3) (field w 0 5))
  | 1 => row (true) (.stv (field w 20 5) (field w 15 5) (field w 10 3) (field w 8 2) (field w 5 3) (field w 0 5))
  | 2 => row (fld w 5 3 == 0) (.sts (field w 20 5) (field w 15 5) (field w 10 3) (field w 8 2) (field w 0 5))
  | _ => .error .unassigned

/-- Major 0x0c (Table 4.15). -/
def decodeAtomic (w : Nat) : Except DecodeError Instr :=
  match fld w 0 6 with
  | 0 => row (true) (.amoAdd (field w 20 5) (field w 15 5) (field w 10 5) (flag w 9) (flag w 8) (field w 6 2))
  | 1 => row (true) (.amoAnd (field w 20 5) (field w 15 5) (field w 10 5) (flag w 9) (flag w 8) (field w 6 2))
  | 2 => row (true) (.amoOr (field w 20 5) (field w 15 5) (field w 10 5) (flag w 9) (flag w 8) (field w 6 2))
  | 3 => row (true) (.amoXor (field w 20 5) (field w 15 5) (field w 10 5) (flag w 9) (flag w 8) (field w 6 2))
  | 4 => row (true) (.amoMin (field w 20 5) (field w 15 5) (field w 10 5) (flag w 9) (flag w 8) (field w 6 2))
  | 5 => row (true) (.amoMax (field w 20 5) (field w 15 5) (field w 10 5) (flag w 9) (flag w 8) (field w 6 2))
  | 6 => row (true) (.amoSwap (field w 20 5) (field w 15 5) (field w 10 5) (flag w 9) (flag w 8) (field w 6 2))
  | 7 => row (true) (.cas (field w 20 5) (field w 15 5) (field w 10 5) (flag w 9) (flag w 8) (field w 6 2))
  | 8 => row (fld w 6 2 == 0) (.ufn (field w 20 5) (field w 15 5) (field w 10 5) (flag w 9) (flag w 8))
  | 9 => row (fld w 6 2 == 0 && fld w 9 1 == 0 && fld w 20 5 == 0) (.ufncfg (field w 15 5) (field w 10 5) (flag w 8))
  | 10 => row (fld w 9 1 == 0 && fld w 20 5 == 0) (.red (field w 15 5) (field w 10 5) (flag w 8) (field w 6 2))
  | 11 => row (true) (.waitc (field w 20 5) (field w 15 5) (field w 10 5) (flag w 9) (flag w 8) (field w 6 2))
  | 12 => row (fld w 6 4 == 0 && fld w 15 10 == 0) (.fence (field w 13 2) (field w 10 3))
  | 13 => row (fld w 6 4 == 0 && fld w 15 10 == 0) (.bara (field w 10 5))
  | 14 => row (fld w 6 4 == 0 && fld w 15 10 == 0) (.barw (field w 10 5))
  | 15 => row (fld w 6 2 == 0) (.barx (field w 20 5) (field w 15 5) (field w 10 5) (flag w 9) (flag w 8))
  | _ => .error .unassigned

/-- Major 0x0d (Table 4.15). -/
def decodeWait (w : Nat) : Except DecodeError Instr :=
  row (fld w 0 1 == 0) (.wait (field w 19 6) (field w 13 6) (field w 7 6) (field w 1 6))

/-- Major 0x0e (Table 4.15). -/
def decodeQueue (w : Nat) : Except DecodeError Instr :=
  match fld w 0 6 with
  | 0 => row (fld w 6 2 == 0) (.qinit (field w 20 5) (field w 15 5) (field w 10 5) (flag w 9) (flag w 8))
  | 1 => row (true) (.qpush (field w 20 5) (field w 15 5) (field w 10 5) (flag w 9) (flag w 8) (field w 6 2))
  | 2 => if fld w 6 2 == 0 then .ok (.qpop (field w 20 5) (field w 15 5) (field w 10 5) (flag w 9) (flag w 8)) else if fld w 6 2 == 1 then .ok (.qpopW (field w 20 5) (field w 15 5) (field w 10 5) (flag w 9) (flag w 8)) else .error .reserved
  | 3 => row (fld w 6 2 == 0) (.qsteal (field w 20 5) (field w 15 5) (field w 10 5) (flag w 9) (flag w 8))
  | 4 => row (fld w 6 2 == 0 && fld w 10 5 == 0) (.qavail (field w 20 5) (field w 15 5) (flag w 9) (flag w 8))
  | 5 => row (fld w 6 2 == 0) (.permit (field w 20 5) (field w 15 5) (field w 10 5) (flag w 9) (flag w 8))
  | 6 => row (fld w 6 2 == 0 && fld w 9 1 == 0 && fld w 20 5 == 0) (.pret (field w 15 5) (field w 10 5) (flag w 8))
  | 7 => row (fld w 6 2 == 0 && fld w 9 1 == 0 && fld w 23 2 == 0) (.bind (field w 20 3) (field w 15 5) (field w 10 5) (flag w 8))
  | 8 => row (fld w 6 14 == 0 && fld w 23 2 == 0) (.unbind (field w 20 3))
  | _ => .error .unassigned

/-- Major 0x0f (Table 4.15). -/
def decodeMessage (w : Nat) : Except DecodeError Instr :=
  match fld w 0 6 with
  | 0 => row (fld w 6 2 == 0 && fld w 9 1 == 0 && fld w 20 5 == 0) (.send (field w 15 5) (field w 10 5) (flag w 8))
  | 1 => row (fld w 6 2 == 0 && fld w 9 1 == 0 && fld w 20 5 == 0) (.sendt (field w 15 5) (field w 10 5) (flag w 8))
  | 2 => row (fld w 6 2 == 0 && fld w 9 1 == 0 && fld w 20 5 == 0) (.sendr (field w 15 5) (field w 10 5) (flag w 8))
  | 3 => row (fld w 10 5 == 0) (.mcast (field w 20 5) (field w 15 5) (flag w 9) (flag w 8) (field w 6 2))
  | 4 => row (fld w 6 2 == 0 && fld w 9 1 == 0 && fld w 20 5 == 0) (.task (field w 15 5) (field w 10 5) (flag w 8))
  | 5 => row (fld w 6 2 == 0) (.launch (field w 20 5) (field w 15 5) (field w 10 5) (flag w 9) (flag w 8))
  | 6 => row (fld w 6 2 == 0 && fld w 9 1 == 0 && fld w 20 5 == 0) (.htset (field w 15 5) (field w 10 5) (flag w 8))
  | 7 => row (fld w 6 2 == 0 && fld w 9 1 == 0 && fld w 20 5 == 0) (.hmask (field w 15 5) (field w 10 5) (flag w 8))
  | 8 => row (fld w 6 3 == 0 && fld w 10 10 == 0) (.msgid (field w 20 5) (flag w 9))
  | 9 => row (fld w 6 2 == 0 && fld w 9 6 == 0 && fld w 20 5 == 0) (.migrate (field w 15 5) (flag w 8))
  | _ => .error .unassigned

/-- Major 0x10 (Table 4.15). -/
def decodeChannel (w : Nat) : Except DecodeError Instr :=
  match fld w 0 4 with
  | 0 => row (fld w 4 4 == 0 && fld w 20 5 == 0) (.publish (field w 8 12))
  | 1 => row (fld w 4 21 == 0) (.unpublish)
  | 2 => row (fld w 4 4 == 0) (.subscribe (field w 20 5) (field w 8 12))
  | 3 => if fld w 4 21 == 0 then .ok (.unsub) else if fld w 4 16 == 1 then .ok (.unsubNz (field w 20 5)) else .error .reserved
  | 4 => row (fld w 4 3 == 0) (.resub (field w 17 8) (field w 7 10))
  | 5 => row (fld w 4 4 == 0 && fld w 20 5 == 0) (.rdv (field w 8 12))
  | 6 => row (fld w 4 4 == 0 && fld w 20 5 == 0) (.join (field w 8 12))
  | 7 => row (fld w 4 4 == 0 && fld w 20 5 == 0) (.leave (field w 8 12))
  | 8 => row (fld w 4 4 == 0) (.gsize (field w 20 5) (field w 8 12))
  | _ => .error .unassigned

/-- Major 0x11 (Table 4.15). -/
def decodeVecA (w : Nat) : Except DecodeError Instr :=
  match fld w 0 3 with
  | 0 => row (true) (.vadd (field w 20 5) (field w 15 5) (field w 10 5) (field w 7 3) (field w 3 4))
  | 1 => row (true) (.vsub (field w 20 5) (field w 15 5) (field w 10 5) (field w 7 3) (field w 3 4))
  | 2 => row (true) (.vadds (field w 20 5) (field w 15 5) (field w 10 5) (field w 7 3) (field w 3 4))
  | 3 => row (true) (.vsubs (field w 20 5) (field w 15 5) (field w 10 5) (field w 7 3) (field w 3 4))
  | 4 => row (true) (.vmul (field w 20 5) (field w 15 5) (field w 10 5) (field w 7 3) (field w 3 4))
  | 5 => row (true) (.vmulh (field w 20 5) (field w 15 5) (field w 10 5) (field w 7 3) (field w 3 4))
  | 6 => row (true) (.vfma (field w 20 5) (field w 15 5) (field w 10 5) (field w 7 3) (field w 3 4))
  | 7 => row (true) (.vmin (field w 20 5) (field w 15 5) (field w 10 5) (field w 7 3) (field w 3 4))
  | _ => .error .unassigned

/-- Major 0x12 (Table 4.15). -/
def decodeVecB (w : Nat) : Except DecodeError Instr :=
  match fld w 0 3 with
  | 0 => row (true) (.vmax (field w 20 5) (field w 15 5) (field w 10 5) (field w 7 3) (field w 3 4))
  | 1 => row (fld w 10 5 == 0) (.vabs (field w 20 5) (field w 15 5) (field w 7 3) (field w 3 4))
  | 2 => row (fld w 10 5 == 0) (.vneg (field w 20 5) (field w 15 5) (field w 7 3) (field w 3 4))
  | 3 => row (true) (.vand (field w 20 5) (field w 15 5) (field w 10 5) (field w 7 3) (field w 3 4))
  | 4 => row (true) (.vor (field w 20 5) (field w 15 5) (field w 10 5) (field w 7 3) (field w 3 4))
  | 5 => row (true) (.vxor (field w 20 5) (field w 15 5) (field w 10 5) (field w 7 3) (field w 3 4))
  | 6 => row (fld w 10 5 == 0) (.vnot (field w 20 5) (field w 15 5) (field w 7 3) (field w 3 4))
  | 7 => row (true) (.vshl (field w 20 5) (field w 15 5) (field w 10 5) (field w 7 3) (field w 3 4))
  | _ => .error .unassigned

/-- Major 0x13 (Table 4.15). -/
def decodeVecC (w : Nat) : Except DecodeError Instr :=
  match fld w 0 3 with
  | 0 => row (true) (.vshr (field w 20 5) (field w 15 5) (field w 10 5) (field w 7 3) (field w 3 4))
  | 1 => row (true) (.vsra (field w 20 5) (field w 15 5) (field w 10 5) (field w 7 3) (field w 3 4))
  | 2 => row (true) (.vsel (field w 20 5) (field w 15 5) (field w 10 5) (field w 7 3) (field w 3 4))
  | 3 => row (true) (.vdot (field w 20 5) (field w 15 5) (field w 10 5) (field w 7 3) (field w 3 4))
  | 4 => row (true) (.vshuf (field w 20 5) (field w 15 5) (field w 10 5) (field w 7 3) (field w 3 4))
  | 5 => row (fld w 10 5 == 0) (.vbcast (field w 20 5) (field w 15 5) (field w 7 3) (field w 3 4))
  | 6 => if fld w 7 3 == 0 && fld w 14 1 == 0 then .ok (.vmovs (field w 20 5) (field w 15 5) (field w 10 4) (field w 3 4)) else if fld w 3 7 == 0 && fld w 13 7 == 2 then .ok (.vmovsStream (field w 20 5) (field w 10 3)) else .error .reserved
  | 7 => row (fld w 7 3 == 0 && fld w 14 1 == 0) (.vins (field w 20 5) (field w 15 5) (field w 10 4) (field w 3 4))
  | _ => .error .unassigned

/-- Major 0x14 (Table 4.15). -/
def decodeVecD (w : Nat) : Except DecodeError Instr :=
  match fld w 0 3 with
  | 0 => row (fld w 14 1 == 0) (.vcvt (field w 20 5) (field w 15 5) (field w 10 4) (field w 7 3) (field w 3 4))
  | 1 => row (true) (.vred (field w 20 5) (field w 15 5) (field w 10 5) (field w 7 3) (field w 3 4))
  | 2 => row (true) (.vscan (field w 20 5) (field w 15 5) (field w 10 5) (field w 7 3) (field w 3 4))
  | 3 => row (true) (.vmatch (field w 20 5) (field w 15 5) (field w 10 5) (field w 7 3) (field w 5 2) (field w 3 2))
  | 4 => row (true) (.vcompress (field w 20 5) (field w 15 5) (field w 10 5) (field w 7 3) (field w 3 4))
  | 5 => row (true) (.vexpand (field w 20 5) (field w 15 5) (field w 10 5) (field w 7 3) (field w 3 4))
  | 6 => row (fld w 10 5 == 0) (.vclass (field w 20 5) (field w 15 5) (field w 7 3) (field w 3 4))
  | _ => .error .unassigned

/-- Major 0x15 (Table 4.15). -/
def decodeVecE (w : Nat) : Except DecodeError Instr :=
  match fld w 0 3 with
  | 0 => row (fld w 10 5 == 0) (.vrcp (field w 20 5) (field w 15 5) (field w 7 3) (field w 3 4))
  | 1 => row (fld w 10 5 == 0) (.vrsq (field w 20 5) (field w 15 5) (field w 7 3) (field w 3 4))
  | 2 => row (fld w 10 5 == 0) (.vexp2 (field w 20 5) (field w 15 5) (field w 7 3) (field w 3 4))
  | 3 => row (fld w 10 5 == 0) (.vlog2 (field w 20 5) (field w 15 5) (field w 7 3) (field w 3 4))
  | 4 => row (fld w 10 5 == 0) (.vtanh (field w 20 5) (field w 15 5) (field w 7 3) (field w 3 4))
  | 5 => row (true) (.vdiv (field w 20 5) (field w 15 5) (field w 10 5) (field w 7 3) (field w 3 4))
  | _ => .error .unassigned

/-- Major 0x16 (Table 4.15). -/
def decodeVecF (w : Nat) : Except DecodeError Instr :=
  match fld w 0 3 with
  | 0 => row (fld w 23 2 == 0) (.vcmpEq (field w 20 3) (field w 15 5) (field w 10 5) (field w 7 3) (field w 3 4))
  | 1 => row (fld w 23 2 == 0) (.vcmpNe (field w 20 3) (field w 15 5) (field w 10 5) (field w 7 3) (field w 3 4))
  | 2 => row (fld w 23 2 == 0) (.vcmpLt (field w 20 3) (field w 15 5) (field w 10 5) (field w 7 3) (field w 3 4))
  | 3 => row (fld w 23 2 == 0) (.vcmpLe (field w 20 3) (field w 15 5) (field w 10 5) (field w 7 3) (field w 3 4))
  | 4 => row (fld w 23 2 == 0) (.vcmpGt (field w 20 3) (field w 15 5) (field w 10 5) (field w 7 3) (field w 3 4))
  | 5 => row (fld w 23 2 == 0) (.vcmpGe (field w 20 3) (field w 15 5) (field w 10 5) (field w 7 3) (field w 3 4))
  | 6 => row (fld w 23 2 == 0) (.vcmpUn (field w 20 3) (field w 15 5) (field w 10 5) (field w 7 3) (field w 3 4))
  | _ => .error .unassigned

/-- Major 0x17 (Table 4.15). -/
def decodeMask (w : Nat) : Except DecodeError Instr :=
  match fld w 0 3 with
  | 0 => row (fld w 3 11 == 0 && fld w 23 2 == 0) (.kand (field w 20 3) (field w 17 3) (field w 14 3))
  | 1 => row (fld w 3 11 == 0 && fld w 23 2 == 0) (.kor (field w 20 3) (field w 17 3) (field w 14 3))
  | 2 => row (fld w 3 11 == 0 && fld w 23 2 == 0) (.kxor (field w 20 3) (field w 17 3) (field w 14 3))
  | 3 => row (fld w 3 14 == 0 && fld w 23 2 == 0) (.knot (field w 20 3) (field w 17 3))
  | 4 => if fld w 3 14 == 0 && fld w 23 2 == 0 then .ok (.kmov (field w 20 3) (field w 17 3)) else if fld w 3 5 == 0 && fld w 13 7 == 1 && fld w 23 2 == 0 then .ok (.kmovScalar (field w 20 3) (field w 8 5)) else .error .reserved
  | 5 => row (fld w 3 14 == 0) (.kpop (field w 20 5) (field w 17 3))
  | 6 => row (fld w 3 14 == 0) (.kfirst (field w 20 5) (field w 17 3))
  | _ => .error .unassigned

/-- Major 0x18 (Table 4.15). -/
def decodeMatrix (w : Nat) : Except DecodeError Instr :=
  match fld w 0 4 with
  | 0 => row (fld w 4 1 == 0 && fld w 10 15 == 0) (.claim (field w 5 5))
  | 1 => row (fld w 4 1 == 0 && fld w 10 15 == 0) (.release (field w 5 5))
  | 2 => row (fld w 4 6 == 0) (.tload (field w 20 5) (field w 15 5) (field w 10 5))
  | 3 => row (fld w 4 6 == 0) (.tmma (field w 20 5) (field w 15 5) (field w 10 5))
  | 4 => row (fld w 4 1 == 0) (.tsmma (field w 20 5) (field w 15 5) (field w 10 5) (field w 5 5))
  | 5 => row (fld w 4 16 == 0) (.tzero (field w 20 5))
  | 6 => row (fld w 4 6 == 0) (.tstore (field w 20 5) (field w 15 5) (field w 10 5))
  | 7 => row (fld w 4 11 == 0) (.tscale (field w 20 5) (field w 15 5))
  | 8 => row (fld w 4 1 == 0 && fld w 10 5 == 0) (.taccv (field w 20 5) (field w 15 5) (field w 5 5))
  | _ => .error .unassigned

/-- Major 0x19 (Table 4.15). -/
def decodeFuller (w : Nat) : Except DecodeError Instr :=
  match fld w 0 4 with
  | 0 => row (fld w 4 6 == 0) (.tmatch (field w 20 5) (field w 15 5) (field w 10 5))
  | 1 => row (fld w 4 1 == 0) (.tmerge (field w 20 5) (field w 15 5) (field w 10 5) (field w 5 5))
  | 2 => row (fld w 4 1 == 0 && fld w 10 5 == 0) (.tmsize (field w 20 5) (field w 15 5) (field w 5 5))
  | 3 => row (fld w 4 1 == 0) (.tunmerge (field w 20 5) (field w 15 5) (field w 10 5) (field w 5 5))
  | 4 => row (fld w 4 6 == 0) (.tmapcomp (field w 20 5) (field w 15 5) (field w 10 5))
  | 5 => row (fld w 4 16 == 0) (.tmapfree (field w 20 5))
  | 6 => row (fld w 4 11 == 0) (.tmapsave (field w 20 5) (field w 15 5))
  | 7 => row (fld w 4 11 == 0) (.tmapload (field w 20 5) (field w 15 5))
  | _ => .error .unassigned

/-- Major 0x1a (Table 4.15). -/
def decodeRouting (w : Nat) : Except DecodeError Instr :=
  match fld w 0 6 with
  | 0 => row (fld w 6 2 == 0 && fld w 9 6 == 0 && fld w 20 5 == 0) (.mboxk (field w 15 5) (flag w 8))
  | 1 => row (fld w 6 2 == 0 && fld w 9 1 == 0 && fld w 20 5 == 0) (.mbput (field w 15 5) (field w 10 5) (flag w 8))
  | 2 => row (fld w 6 2 == 0) (.mbtake (field w 20 5) (field w 15 5) (field w 10 5) (flag w 9) (flag w 8))
  | 3 => row (fld w 6 2 == 0) (.repl (field w 20 5) (field w 15 5) (field w 10 5) (flag w 9) (flag w 8))
  | 4 => row (fld w 6 2 == 0) (.expsend (field w 20 5) (field w 15 5) (field w 10 5) (flag w 9) (flag w 8))
  | _ => .error .unassigned

/-- Major 0x1b (Table 4.15). -/
def decodeCopy (w : Nat) : Except DecodeError Instr :=
  match fld w 0 6 with
  | 0 => row (fld w 6 2 == 0) (.copy (field w 20 5) (field w 15 5) (field w 10 5) (flag w 9) (flag w 8))
  | 1 => row (fld w 6 2 == 0) (.copym (field w 20 5) (field w 15 5) (field w 10 5) (flag w 9) (flag w 8))
  | 2 => row (fld w 6 2 == 0 && fld w 9 1 == 0 && fld w 20 5 == 0) (.ingcfg (field w 15 5) (field w 10 5) (flag w 8))
  | 3 => row (fld w 6 2 == 0 && fld w 10 5 == 0) (.ingq (field w 20 5) (field w 15 5) (flag w 9) (flag w 8))
  | _ => .error .unassigned

/-- Major 0x1c (Table 4.15). -/
def decodeSystem (w : Nat) : Except DecodeError Instr :=
  match fld w 0 6 with
  | 0 => row (fld w 6 2 == 0 && fld w 9 1 == 0 && fld w 20 5 == 0) (.trap (field w 15 5) (field w 10 5) (flag w 8))
  | 1 => row (fld w 6 2 == 0 && fld w 9 1 == 0 && fld w 20 5 == 0) (.rett (field w 15 5) (field w 10 5) (flag w 8))
  | 2 => row (fld w 6 4 == 0 && fld w 20 5 == 0) (.ecall (field w 10 10))
  | 3 => row (fld w 6 2 == 0) (.csrr (field w 20 5) (field w 8 12))
  | 4 => row (fld w 6 2 == 0) (.csrw (field w 20 5) (field w 8 12))
  | 5 => row (fld w 6 2 == 0 && fld w 9 1 == 0 && fld w 20 5 == 0) (.tlbinv (field w 15 5) (field w 10 5) (flag w 8))
  | 6 => row (fld w 6 2 == 0 && fld w 10 5 == 0) (.ctxsave (field w 20 5) (field w 15 5) (flag w 9) (flag w 8))
  | 7 => row (fld w 6 2 == 0 && fld w 9 6 == 0 && fld w 20 5 == 0) (.ctxload (field w 15 5) (flag w 8))
  | 8 => row (fld w 6 19 == 0) (.halt)
  | 9 => row (fld w 6 2 == 0 && fld w 10 5 == 0) (.idle (field w 20 5) (field w 15 5) (flag w 9) (flag w 8))
  | 10 => row (fld w 6 2 == 0 && fld w 9 6 == 0) (.pwrreq (field w 20 5) (field w 15 5) (flag w 8))
  | 11 => row (fld w 6 3 == 0 && fld w 13 7 == 0) (.perfr (field w 20 5) (field w 10 3) (flag w 9))
  | 12 => row (fld w 6 2 == 0 && fld w 9 6 == 0) (.preempt (field w 20 5) (field w 15 5) (flag w 8))
  | 13 => row (fld w 6 2 == 0 && fld w 9 6 == 0 && fld w 20 5 == 0) (.setfmt (field w 15 5) (flag w 8))
  | 14 => row (fld w 6 3 == 0 && fld w 10 10 == 0) (.getfmt (field w 20 5) (flag w 9))
  | _ => .error .unassigned

/-- A 32-bit word, before its field values are checked (Table 4.14). -/
def decodeRaw (w : Nat) : Except DecodeError Instr :=
  match fld w 25 6 with
  | 1 => decodeIntR w
  | 2 => decodeImm w
  | 3 => decodeSel w
  | 4 => decodeFp w
  | 5 => decodeLi w
  | 6 => decodeAddr w
  | 7 => decodeBranch w
  | 8 => decodeJump w
  | 9 => decodeControl w
  | 10 => decodeLoad w
  | 11 => decodeStore w
  | 12 => decodeAtomic w
  | 13 => decodeWait w
  | 14 => decodeQueue w
  | 15 => decodeMessage w
  | 16 => decodeChannel w
  | 17 => decodeVecA w
  | 18 => decodeVecB w
  | 19 => decodeVecC w
  | 20 => decodeVecD w
  | 21 => decodeVecE w
  | 22 => decodeVecF w
  | 23 => decodeMask w
  | 24 => decodeMatrix w
  | 25 => decodeFuller w
  | 26 => decodeRouting w
  | 27 => decodeCopy w
  | 28 => decodeSystem w
  | 56 => .ok (.ext (field w 26 2) (field w 0 26))
  | 57 => .ok (.ext (field w 26 2) (field w 0 26))
  | 58 => .ok (.ext (field w 26 2) (field w 0 26))
  | 59 => .ok (.ext (field w 26 2) (field w 0 26))
  | 60 => .ok (.ext (field w 26 2) (field w 0 26))
  | 61 => .ok (.ext (field w 26 2) (field w 0 26))
  | 62 => .ok (.ext (field w 26 2) (field w 0 26))
  | 63 => .ok (.ext (field w 26 2) (field w 0 26))
  | _ => .error .unassigned

/-- The register field of the compact JR (op 23). -/
def decodeCompactJr (a : Nat) : Except DecodeError Instr :=
  match a with
  | 0 => .ok .compactJrS0
  | 1 => .ok .compactJrS1
  | 2 => .ok .compactJrS2
  | 3 => .ok .compactJrS3
  | 4 => .ok .compactJrS4
  | 5 => .ok .compactJrS5
  | 6 => .ok .compactJrS6
  | 7 => .ok .compactJrS7
  | _ => .error .unassigned

/-- A compact halfword (R90, Tables 4.12 and 4.13). -/
def decodeCompact (w : Nat) : Except DecodeError Instr :=
  match fld w 10 5 with
  | 1 => row (fld w 0 1 == 0) (.compactAdd (field w 7 3) (field w 4 3) (field w 1 3))
  | 2 => row (fld w 0 1 == 0) (.compactSub (field w 7 3) (field w 4 3) (field w 1 3))
  | 3 => row (fld w 0 1 == 0) (.compactAnd (field w 7 3) (field w 4 3) (field w 1 3))
  | 4 => row (fld w 0 1 == 0) (.compactOr (field w 7 3) (field w 4 3) (field w 1 3))
  | 5 => row (fld w 0 1 == 0) (.compactXor (field w 7 3) (field w 4 3) (field w 1 3))
  | 6 => row (fld w 0 4 == 0) (.compactMov (field w 7 3) (field w 4 3))
  | 7 => row (fld w 0 1 == 0) (.compactShl (field w 7 3) (field w 4 3) (field w 1 3))
  | 8 => row (fld w 0 1 == 0) (.compactShr (field w 7 3) (field w 4 3) (field w 1 3))
  | 9 => row (fld w 0 1 == 0) (.compactSra (field w 7 3) (field w 4 3) (field w 1 3))
  | 10 => row (true) (.compactAddi (field w 7 3) (field w 4 3) (field w 0 4))
  | 11 => row (true) (.compactShli (field w 7 3) (field w 4 3) (field w 0 4))
  | 12 => row (true) (.compactShri (field w 7 3) (field w 4 3) (field w 0 4))
  | 13 => row (true) (.compactLd (field w 7 3) (field w 4 3) (field w 0 4))
  | 14 => row (true) (.compactSt (field w 7 3) (field w 4 3) (field w 0 4))
  | 15 => row (true) (.compactLdv (field w 7 3) (field w 4 3) (field w 0 4))
  | 16 => row (true) (.compactStv (field w 7 3) (field w 4 3) (field w 0 4))
  | 17 => row (true) (.compactBeq (field w 7 3) (field w 0 7))
  | 18 => row (true) (.compactBne (field w 7 3) (field w 0 7))
  | 19 => row (fld w 0 1 == 0) (.compactVaddF32 (field w 7 3) (field w 4 3) (field w 1 3))
  | 20 => row (fld w 0 1 == 0) (.compactVmulF32 (field w 7 3) (field w 4 3) (field w 1 3))
  | 21 => row (fld w 0 1 == 0) (.compactVfmaF32 (field w 7 3) (field w 4 3) (field w 1 3))
  | 22 => row (fld w 0 1 == 0) (.compactVaddI32 (field w 7 3) (field w 4 3) (field w 1 3))
  | 23 => if fld w 7 3 == 0 && fld w 0 4 == 0 then decodeCompactJr (fld w 4 3) else .error .reserved
  | 24 => row (fld w 0 10 == 0) (.compactEnd)
  | 25 => row (fld w 0 10 == 0) (.compactNop)
  | 26 => row (fld w 0 10 == 0) (.compactYield)
  | 27 => row (fld w 0 1 == 0) (.compactSlt (field w 7 3) (field w 4 3) (field w 1 3))
  | 28 => row (true) (.compactLi (field w 7 3) (field w 0 7))
  | 29 => row (fld w 0 10 == 0) (.compactWait)
  | 30 => row (fld w 0 10 == 0) (.compactBrk)
  | 31 => row (fld w 0 1 == 0) (.compactVsubF32 (field w 7 3) (field w 4 3) (field w 1 3))
  | _ => .error .unassigned

/-- The field values are those of Table 4.16. -/
def checked (r : Except DecodeError Instr) : Except DecodeError Instr :=
  match r with
  | .error e => .error e
  | .ok i => if i.wf then .ok i else .error .badField

/-- A 32-bit instruction of a word whose bit 31 is 1 (R86). -/
def decodeWord (w : Nat) : Except DecodeError Instr := checked (decodeRaw w)

/-- A 16-bit instruction of a halfword whose bit 15 is 0. -/
def decodeHalf (h : Nat) : Except DecodeError Instr := checked (decodeCompact h)

/-- An instruction and its length in bytes, from the halfword at the PC and, when bit 15 is set, the next one (R86). -/
def decodeHalves : List Nat → Except DecodeError (Instr × Nat)
  | [] => .error .short
  | h :: t =>
    if fld h 15 1 == 1 then
      match t with
      | [] => .error .short
      | l :: _ => (decodeWord (h * 65536 + l)).map (fun i => (i, 4))
    else (decodeHalf h).map (fun i => (i, 2))

/-- The little-endian halfwords of a list of bytes (R86). -/
def halves : List Byte → List Nat
  | lo :: hi :: t => (lo.toNat + 256 * hi.toNat) :: halves t
  | _ => []

/-- Decoding any bytes: the instruction they begin with and the bytes after it. -/
def decodeBytes (bs : List Byte) : Except DecodeError (Instr × List Byte) :=
  (decodeHalves (halves bs)).map (fun p => (p.1, bs.drop p.2))

/-- The instruction of a word of the opcode table, its bits numbered as the table numbers them. -/
def decodeTableWord (nbits w : Nat) : Option Instr :=
  match nbits with
  | 16 => (decodeHalves [w % 65536]).toOption.map (·.1)
  | 32 => (decodeHalves [w / 65536 % 65536, w % 65536]).toOption.map (·.1)
  | _ => none

/-! ## The encoder -/

/-- A Boolean field as a bit. -/
def bit (b : Bool) : Nat := if b then 1 else 0

/-- The word of an instruction with its length in bits: each field at its place over the row's fixed bits; an event of
the device has none. -/
def encode : Instr → Option (Nat × Nat)
  | .add d a b x y => some (32, 0x82000000 + d.toNat * 1048576 + a.toNat * 32768 + b.toNat * 1024 + bit x * 512 + bit y * 256)
  | .sub d a b x y => some (32, 0x82000001 + d.toNat * 1048576 + a.toNat * 32768 + b.toNat * 1024 + bit x * 512 + bit y * 256)
  | .mul d a b x y => some (32, 0x82000002 + d.toNat * 1048576 + a.toNat * 32768 + b.toNat * 1024 + bit x * 512 + bit y * 256)
  | .mulh d a b x y => some (32, 0x82000003 + d.toNat * 1048576 + a.toNat * 32768 + b.toNat * 1024 + bit x * 512 + bit y * 256)
  | .mulhn d a b x y => some (32, 0x82000004 + d.toNat * 1048576 + a.toNat * 32768 + b.toNat * 1024 + bit x * 512 + bit y * 256)
  | .div d a b x y => some (32, 0x82000005 + d.toNat * 1048576 + a.toNat * 32768 + b.toNat * 1024 + bit x * 512 + bit y * 256)
  | .divn d a b x y => some (32, 0x82000006 + d.toNat * 1048576 + a.toNat * 32768 + b.toNat * 1024 + bit x * 512 + bit y * 256)
  | .rem d a b x y => some (32, 0x82000007 + d.toNat * 1048576 + a.toNat * 32768 + b.toNat * 1024 + bit x * 512 + bit y * 256)
  | .remn d a b x y => some (32, 0x82000008 + d.toNat * 1048576 + a.toNat * 32768 + b.toNat * 1024 + bit x * 512 + bit y * 256)
  | .and d a b x y => some (32, 0x82000009 + d.toNat * 1048576 + a.toNat * 32768 + b.toNat * 1024 + bit x * 512 + bit y * 256)
  | .or d a b x y => some (32, 0x8200000A + d.toNat * 1048576 + a.toNat * 32768 + b.toNat * 1024 + bit x * 512 + bit y * 256)
  | .xor d a b x y => some (32, 0x8200000B + d.toNat * 1048576 + a.toNat * 32768 + b.toNat * 1024 + bit x * 512 + bit y * 256)
  | .shl d a b x y => some (32, 0x8200000C + d.toNat * 1048576 + a.toNat * 32768 + b.toNat * 1024 + bit x * 512 + bit y * 256)
  | .shr d a b x y => some (32, 0x8200000D + d.toNat * 1048576 + a.toNat * 32768 + b.toNat * 1024 + bit x * 512 + bit y * 256)
  | .sra d a b x y => some (32, 0x8200000E + d.toNat * 1048576 + a.toNat * 32768 + b.toNat * 1024 + bit x * 512 + bit y * 256)
  | .slt d a b x y => some (32, 0x8200000F + d.toNat * 1048576 + a.toNat * 32768 + b.toNat * 1024 + bit x * 512 + bit y * 256)
  | .sltn d a b x y => some (32, 0x82000010 + d.toNat * 1048576 + a.toNat * 32768 + b.toNat * 1024 + bit x * 512 + bit y * 256)
  | .min d a b x y => some (32, 0x82000011 + d.toNat * 1048576 + a.toNat * 32768 + b.toNat * 1024 + bit x * 512 + bit y * 256)
  | .minn d a b x y => some (32, 0x82000012 + d.toNat * 1048576 + a.toNat * 32768 + b.toNat * 1024 + bit x * 512 + bit y * 256)
  | .max d a b x y => some (32, 0x82000013 + d.toNat * 1048576 + a.toNat * 32768 + b.toNat * 1024 + bit x * 512 + bit y * 256)
  | .maxn d a b x y => some (32, 0x82000014 + d.toNat * 1048576 + a.toNat * 32768 + b.toNat * 1024 + bit x * 512 + bit y * 256)
  | .clz d a x y => some (32, 0x82000015 + d.toNat * 1048576 + a.toNat * 32768 + bit x * 512 + bit y * 256)
  | .popc d a x y => some (32, 0x82000016 + d.toNat * 1048576 + a.toNat * 32768 + bit x * 512 + bit y * 256)
  | .brev d a x y => some (32, 0x82000017 + d.toNat * 1048576 + a.toNat * 32768 + bit x * 512 + bit y * 256)
  | .sext d a x y z => some (32, 0x82000018 + d.toNat * 1048576 + a.toNat * 32768 + bit x * 512 + bit y * 256 + z.toNat * 64)
  | .zext d a x y z => some (32, 0x82000019 + d.toNat * 1048576 + a.toNat * 32768 + bit x * 512 + bit y * 256 + z.toNat * 64)
  | .mov d a x y => some (32, 0x8200001A + d.toNat * 1048576 + a.toNat * 32768 + bit x * 512 + bit y * 256)
  | .movStream d n x => some (32, 0x8200005A + d.toNat * 1048576 + n.toNat * 1024 + bit x * 512)
  | .movWindow d n x => some (32, 0x820C009A + d.toNat * 1048576 + n.toNat * 32768 + bit x * 512)
  | .addi d a i => some (32, 0x84000000 + d.toNat * 1048576 + a.toNat * 32768 + i.toNat)
  | .andi d a i => some (32, 0x84001000 + d.toNat * 1048576 + a.toNat * 32768 + i.toNat)
  | .ori d a i => some (32, 0x84002000 + d.toNat * 1048576 + a.toNat * 32768 + i.toNat)
  | .xori d a i => some (32, 0x84003000 + d.toNat * 1048576 + a.toNat * 32768 + i.toNat)
  | .shli d a i => some (32, 0x84004000 + d.toNat * 1048576 + a.toNat * 32768 + i.toNat)
  | .shri d a i => some (32, 0x84005000 + d.toNat * 1048576 + a.toNat * 32768 + i.toNat)
  | .srai d a i => some (32, 0x84006000 + d.toNat * 1048576 + a.toNat * 32768 + i.toNat)
  | .slti d a i => some (32, 0x84007000 + d.toNat * 1048576 + a.toNat * 32768 + i.toNat)
  | .sel d a b x y c => some (32, 0x86000000 + d.toNat * 1048576 + a.toNat * 32768 + b.toNat * 1024 + bit x * 512 + bit y * 256 + c.toNat * 8)
  | .ffma d a b x y c t => some (32, 0x86000001 + d.toNat * 1048576 + a.toNat * 32768 + b.toNat * 1024 + bit x * 512 + bit y * 256 + c.toNat * 8 + t.toNat * 2)
  | .fadd d a b x y t => some (32, 0x88000000 + d.toNat * 1048576 + a.toNat * 32768 + b.toNat * 1024 + bit x * 512 + bit y * 256 + t.toNat * 64)
  | .fsub d a b x y t => some (32, 0x88000001 + d.toNat * 1048576 + a.toNat * 32768 + b.toNat * 1024 + bit x * 512 + bit y * 256 + t.toNat * 64)
  | .fmul d a b x y t => some (32, 0x88000002 + d.toNat * 1048576 + a.toNat * 32768 + b.toNat * 1024 + bit x * 512 + bit y * 256 + t.toNat * 64)
  | .fmin d a b x y t => some (32, 0x88000003 + d.toNat * 1048576 + a.toNat * 32768 + b.toNat * 1024 + bit x * 512 + bit y * 256 + t.toNat * 64)
  | .fmax d a b x y t => some (32, 0x88000004 + d.toNat * 1048576 + a.toNat * 32768 + b.toNat * 1024 + bit x * 512 + bit y * 256 + t.toNat * 64)
  | .fcmpEq d a b x y t => some (32, 0x88000005 + d.toNat * 1048576 + a.toNat * 32768 + b.toNat * 1024 + bit x * 512 + bit y * 256 + t.toNat * 64)
  | .fcmpLt d a b x y t => some (32, 0x88000006 + d.toNat * 1048576 + a.toNat * 32768 + b.toNat * 1024 + bit x * 512 + bit y * 256 + t.toNat * 64)
  | .fcmpLe d a b x y t => some (32, 0x88000007 + d.toNat * 1048576 + a.toNat * 32768 + b.toNat * 1024 + bit x * 512 + bit y * 256 + t.toNat * 64)
  | .fcmpUn d a b x y t => some (32, 0x88000008 + d.toNat * 1048576 + a.toNat * 32768 + b.toNat * 1024 + bit x * 512 + bit y * 256 + t.toNat * 64)
  | .fcvt d a c x y t => some (32, 0x88000009 + d.toNat * 1048576 + a.toNat * 32768 + c.toNat * 1024 + bit x * 512 + bit y * 256 + t.toNat * 64)
  | .fdiv d a b x y t => some (32, 0x8800000A + d.toNat * 1048576 + a.toNat * 32768 + b.toNat * 1024 + bit x * 512 + bit y * 256 + t.toNat * 64)
  | .fsqrt d a x y t => some (32, 0x8800000B + d.toNat * 1048576 + a.toNat * 32768 + bit x * 512 + bit y * 256 + t.toNat * 64)
  | .li d i => some (32, 0x8A000000 + d.toNat * 1048576 + i.toNat)
  | .liW d => some (32, 0x8A040000 + d.toNat * 1048576)
  | .liD d => some (32, 0x8A080000 + d.toNat * 1048576)
  | .lea d a b x y s => some (32, 0x8C000000 + d.toNat * 1048576 + a.toNat * 32768 + b.toNat * 1024 + bit x * 512 + bit y * 256 + s.toNat * 64)
  | .addp d a b x y => some (32, 0x8C000001 + d.toNat * 1048576 + a.toNat * 32768 + b.toNat * 1024 + bit x * 512 + bit y * 256)
  | .pmake d a t x y => some (32, 0x8C000002 + d.toNat * 1048576 + a.toNat * 32768 + t.toNat * 1024 + bit x * 512 + bit y * 256)
  | .ptag d a x y => some (32, 0x8C000003 + d.toNat * 1048576 + a.toNat * 32768 + bit x * 512 + bit y * 256)
  | .setxi a y => some (32, 0x8C000004 + a.toNat * 32768 + bit y * 256)
  | .addxi i => some (32, 0x8C000005 + i.toNat * 1024)
  | .extHi n i => some (32, 0x8C000006 + n.toNat * 1048576 + i.toNat * 1024)
  | .ext n i => some (32, 0xF0000000 + n.toNat * 67108864 + i.toNat)
  | .beq a b o => some (32, 0x8E000000 + a.toNat * 131072 + b.toNat * 4096 + o.toNat)
  | .bne a b o => some (32, 0x8E400000 + a.toNat * 131072 + b.toNat * 4096 + o.toNat)
  | .blt a b o => some (32, 0x8E800000 + a.toNat * 131072 + b.toNat * 4096 + o.toNat)
  | .bge a b o => some (32, 0x8EC00000 + a.toNat * 131072 + b.toNat * 4096 + o.toNat)
  | .bltn a b o => some (32, 0x8F000000 + a.toNat * 131072 + b.toNat * 4096 + o.toNat)
  | .bgen a b o => some (32, 0x8F400000 + a.toNat * 131072 + b.toNat * 4096 + o.toNat)
  | .loop a o => some (32, 0x8F800000 + a.toNat * 131072 + o.toNat)
  | .jmp o => some (32, 0x90000000 + o.toNat)
  | .jal d o => some (32, 0x91000000 + d.toNat * 524288 + o.toNat)
  | .jr a y => some (32, 0x92000000 + a.toNat * 32768 + bit y * 256)
  | .jalr d a x y => some (32, 0x92000001 + d.toNat * 1048576 + a.toNat * 32768 + bit x * 512 + bit y * 256)
  | .endTask => some (32, 0x92000002)
  | .yield => some (32, 0x92000003)
  | .nop => some (32, 0x92000004)
  | .brk c => some (32, 0x92000005 + c.toNat * 1024)
  | .ld d a t o s i => some (32, 0x94000000 + d.toNat * 1048576 + a.toNat * 32768 + t.toNat * 1024 + o.toNat * 256 + s.toNat * 32 + i.toNat)
  | .ldv d a k o s i => some (32, 0x94002000 + d.toNat * 1048576 + a.toNat * 32768 + k.toNat * 1024 + o.toNat * 256 + s.toNat * 32 + i.toNat)
  | .ldg d a k w b => some (32, 0x94004000 + d.toNat * 1048576 + a.toNat * 32768 + k.toNat * 1024 + w.toNat * 256 + b.toNat)
  | .pref a l i => some (32, 0x94006000 + a.toNat * 32768 + l.toNat * 1024 + i.toNat)
  | .st d a t o s i => some (32, 0x96000000 + d.toNat * 1048576 + a.toNat * 32768 + t.toNat * 1024 + o.toNat * 256 + s.toNat * 32 + i.toNat)
  | .stv d a k o s i => some (32, 0x96002000 + d.toNat * 1048576 + a.toNat * 32768 + k.toNat * 1024 + o.toNat * 256 + s.toNat * 32 + i.toNat)
  | .sts d a k w b => some (32, 0x96004000 + d.toNat * 1048576 + a.toNat * 32768 + k.toNat * 1024 + w.toNat * 256 + b.toNat)
  | .amoAdd d a b x y z => some (32, 0x98000000 + d.toNat * 1048576 + a.toNat * 32768 + b.toNat * 1024 + bit x * 512 + bit y * 256 + z.toNat * 64)
  | .amoAnd d a b x y z => some (32, 0x98000001 + d.toNat * 1048576 + a.toNat * 32768 + b.toNat * 1024 + bit x * 512 + bit y * 256 + z.toNat * 64)
  | .amoOr d a b x y z => some (32, 0x98000002 + d.toNat * 1048576 + a.toNat * 32768 + b.toNat * 1024 + bit x * 512 + bit y * 256 + z.toNat * 64)
  | .amoXor d a b x y z => some (32, 0x98000003 + d.toNat * 1048576 + a.toNat * 32768 + b.toNat * 1024 + bit x * 512 + bit y * 256 + z.toNat * 64)
  | .amoMin d a b x y z => some (32, 0x98000004 + d.toNat * 1048576 + a.toNat * 32768 + b.toNat * 1024 + bit x * 512 + bit y * 256 + z.toNat * 64)
  | .amoMax d a b x y z => some (32, 0x98000005 + d.toNat * 1048576 + a.toNat * 32768 + b.toNat * 1024 + bit x * 512 + bit y * 256 + z.toNat * 64)
  | .amoSwap d a b x y z => some (32, 0x98000006 + d.toNat * 1048576 + a.toNat * 32768 + b.toNat * 1024 + bit x * 512 + bit y * 256 + z.toNat * 64)
  | .cas d a b x y z => some (32, 0x98000007 + d.toNat * 1048576 + a.toNat * 32768 + b.toNat * 1024 + bit x * 512 + bit y * 256 + z.toNat * 64)
  | .ufn d a b x y => some (32, 0x98000008 + d.toNat * 1048576 + a.toNat * 32768 + b.toNat * 1024 + bit x * 512 + bit y * 256)
  | .ufncfg a b y => some (32, 0x98000009 + a.toNat * 32768 + b.toNat * 1024 + bit y * 256)
  | .red a b y z => some (32, 0x9800000A + a.toNat * 32768 + b.toNat * 1024 + bit y * 256 + z.toNat * 64)
  | .waitc d a b x y c => some (32, 0x9800000B + d.toNat * 1048576 + a.toNat * 32768 + b.toNat * 1024 + bit x * 512 + bit y * 256 + c.toNat * 64)
  | .fence o s => some (32, 0x9800000C + o.toNat * 8192 + s.toNat * 1024)
  | .bara b => some (32, 0x9800000D + b.toNat * 1024)
  | .barw b => some (32, 0x9800000E + b.toNat * 1024)
  | .barx d a b x y => some (32, 0x9800000F + d.toNat * 1048576 + a.toNat * 32768 + b.toNat * 1024 + bit x * 512 + bit y * 256)
  | .wait l s c t => some (32, 0x9A000000 + l.toNat * 524288 + s.toNat * 8192 + c.toNat * 128 + t.toNat * 2)
  | .qinit d a b x y => some (32, 0x9C000000 + d.toNat * 1048576 + a.toNat * 32768 + b.toNat * 1024 + bit x * 512 + bit y * 256)
  | .qpush d a b x y z => some (32, 0x9C000001 + d.toNat * 1048576 + a.toNat * 32768 + b.toNat * 1024 + bit x * 512 + bit y * 256 + z.toNat * 64)
  | .qpop d a b x y => some (32, 0x9C000002 + d.toNat * 1048576 + a.toNat * 32768 + b.toNat * 1024 + bit x * 512 + bit y * 256)
  | .qpopW d a b x y => some (32, 0x9C000042 + d.toNat * 1048576 + a.toNat * 32768 + b.toNat * 1024 + bit x * 512 + bit y * 256)
  | .qsteal d a b x y => some (32, 0x9C000003 + d.toNat * 1048576 + a.toNat * 32768 + b.toNat * 1024 + bit x * 512 + bit y * 256)
  | .qavail d a x y => some (32, 0x9C000004 + d.toNat * 1048576 + a.toNat * 32768 + bit x * 512 + bit y * 256)
  | .permit d a b x y => some (32, 0x9C000005 + d.toNat * 1048576 + a.toNat * 32768 + b.toNat * 1024 + bit x * 512 + bit y * 256)
  | .pret a b y => some (32, 0x9C000006 + a.toNat * 32768 + b.toNat * 1024 + bit y * 256)
  | .bind n a b y => some (32, 0x9C000007 + n.toNat * 1048576 + a.toNat * 32768 + b.toNat * 1024 + bit y * 256)
  | .unbind n => some (32, 0x9C000008 + n.toNat * 1048576)
  | .send a b y => some (32, 0x9E000000 + a.toNat * 32768 + b.toNat * 1024 + bit y * 256)
  | .sendt a b y => some (32, 0x9E000001 + a.toNat * 32768 + b.toNat * 1024 + bit y * 256)
  | .sendr a b y => some (32, 0x9E000002 + a.toNat * 32768 + b.toNat * 1024 + bit y * 256)
  | .mcast d a x y z => some (32, 0x9E000003 + d.toNat * 1048576 + a.toNat * 32768 + bit x * 512 + bit y * 256 + z.toNat * 64)
  | .task a b y => some (32, 0x9E000004 + a.toNat * 32768 + b.toNat * 1024 + bit y * 256)
  | .launch d a b x y => some (32, 0x9E000005 + d.toNat * 1048576 + a.toNat * 32768 + b.toNat * 1024 + bit x * 512 + bit y * 256)
  | .htset a b y => some (32, 0x9E000006 + a.toNat * 32768 + b.toNat * 1024 + bit y * 256)
  | .hmask a b y => some (32, 0x9E000007 + a.toNat * 32768 + b.toNat * 1024 + bit y * 256)
  | .msgid d x => some (32, 0x9E000008 + d.toNat * 1048576 + bit x * 512)
  | .migrate a y => some (32, 0x9E000009 + a.toNat * 32768 + bit y * 256)
  | .publish c => some (32, 0xA0000000 + c.toNat * 256)
  | .unpublish => some (32, 0xA0000001)
  | .subscribe a c => some (32, 0xA0000002 + a.toNat * 1048576 + c.toNat * 256)
  | .unsub => some (32, 0xA0000003)
  | .unsubNz a => some (32, 0xA0000013 + a.toNat * 1048576)
  | .resub c r => some (32, 0xA0000004 + c.toNat * 131072 + r.toNat * 128)
  | .rdv r => some (32, 0xA0000005 + r.toNat * 256)
  | .join g => some (32, 0xA0000006 + g.toNat * 256)
  | .leave g => some (32, 0xA0000007 + g.toNat * 256)
  | .gsize d g => some (32, 0xA0000008 + d.toNat * 1048576 + g.toNat * 256)
  | .vadd d a b k t => some (32, 0xA2000000 + d.toNat * 1048576 + a.toNat * 32768 + b.toNat * 1024 + k.toNat * 128 + t.toNat * 8)
  | .vsub d a b k t => some (32, 0xA2000001 + d.toNat * 1048576 + a.toNat * 32768 + b.toNat * 1024 + k.toNat * 128 + t.toNat * 8)
  | .vadds d a b k t => some (32, 0xA2000002 + d.toNat * 1048576 + a.toNat * 32768 + b.toNat * 1024 + k.toNat * 128 + t.toNat * 8)
  | .vsubs d a b k t => some (32, 0xA2000003 + d.toNat * 1048576 + a.toNat * 32768 + b.toNat * 1024 + k.toNat * 128 + t.toNat * 8)
  | .vmul d a b k t => some (32, 0xA2000004 + d.toNat * 1048576 + a.toNat * 32768 + b.toNat * 1024 + k.toNat * 128 + t.toNat * 8)
  | .vmulh d a b k t => some (32, 0xA2000005 + d.toNat * 1048576 + a.toNat * 32768 + b.toNat * 1024 + k.toNat * 128 + t.toNat * 8)
  | .vfma d a b k t => some (32, 0xA2000006 + d.toNat * 1048576 + a.toNat * 32768 + b.toNat * 1024 + k.toNat * 128 + t.toNat * 8)
  | .vmin d a b k t => some (32, 0xA2000007 + d.toNat * 1048576 + a.toNat * 32768 + b.toNat * 1024 + k.toNat * 128 + t.toNat * 8)
  | .vmax d a b k t => some (32, 0xA4000000 + d.toNat * 1048576 + a.toNat * 32768 + b.toNat * 1024 + k.toNat * 128 + t.toNat * 8)
  | .vabs d a k t => some (32, 0xA4000001 + d.toNat * 1048576 + a.toNat * 32768 + k.toNat * 128 + t.toNat * 8)
  | .vneg d a k t => some (32, 0xA4000002 + d.toNat * 1048576 + a.toNat * 32768 + k.toNat * 128 + t.toNat * 8)
  | .vand d a b k t => some (32, 0xA4000003 + d.toNat * 1048576 + a.toNat * 32768 + b.toNat * 1024 + k.toNat * 128 + t.toNat * 8)
  | .vor d a b k t => some (32, 0xA4000004 + d.toNat * 1048576 + a.toNat * 32768 + b.toNat * 1024 + k.toNat * 128 + t.toNat * 8)
  | .vxor d a b k t => some (32, 0xA4000005 + d.toNat * 1048576 + a.toNat * 32768 + b.toNat * 1024 + k.toNat * 128 + t.toNat * 8)
  | .vnot d a k t => some (32, 0xA4000006 + d.toNat * 1048576 + a.toNat * 32768 + k.toNat * 128 + t.toNat * 8)
  | .vshl d a b k t => some (32, 0xA4000007 + d.toNat * 1048576 + a.toNat * 32768 + b.toNat * 1024 + k.toNat * 128 + t.toNat * 8)
  | .vshr d a b k t => some (32, 0xA6000000 + d.toNat * 1048576 + a.toNat * 32768 + b.toNat * 1024 + k.toNat * 128 + t.toNat * 8)
  | .vsra d a b k t => some (32, 0xA6000001 + d.toNat * 1048576 + a.toNat * 32768 + b.toNat * 1024 + k.toNat * 128 + t.toNat * 8)
  | .vsel d a b k t => some (32, 0xA6000002 + d.toNat * 1048576 + a.toNat * 32768 + b.toNat * 1024 + k.toNat * 128 + t.toNat * 8)
  | .vdot d a b k t => some (32, 0xA6000003 + d.toNat * 1048576 + a.toNat * 32768 + b.toNat * 1024 + k.toNat * 128 + t.toNat * 8)
  | .vshuf d a b k t => some (32, 0xA6000004 + d.toNat * 1048576 + a.toNat * 32768 + b.toNat * 1024 + k.toNat * 128 + t.toNat * 8)
  | .vbcast d a k t => some (32, 0xA6000005 + d.toNat * 1048576 + a.toNat * 32768 + k.toNat * 128 + t.toNat * 8)
  | .vmovs d a l t => some (32, 0xA6000006 + d.toNat * 1048576 + a.toNat * 32768 + l.toNat * 1024 + t.toNat * 8)
  | .vmovsStream d n => some (32, 0xA6004006 + d.toNat * 1048576 + n.toNat * 1024)
  | .vins d a l t => some (32, 0xA6000007 + d.toNat * 1048576 + a.toNat * 32768 + l.toNat * 1024 + t.toNat * 8)
  | .vcvt d a s k t => some (32, 0xA8000000 + d.toNat * 1048576 + a.toNat * 32768 + s.toNat * 1024 + k.toNat * 128 + t.toNat * 8)
  | .vred d a o k t => some (32, 0xA8000001 + d.toNat * 1048576 + a.toNat * 32768 + o.toNat * 1024 + k.toNat * 128 + t.toNat * 8)
  | .vscan d a o k t => some (32, 0xA8000002 + d.toNat * 1048576 + a.toNat * 32768 + o.toNat * 1024 + k.toNat * 128 + t.toNat * 8)
  | .vmatch d a b k p w => some (32, 0xA8000003 + d.toNat * 1048576 + a.toNat * 32768 + b.toNat * 1024 + k.toNat * 128 + p.toNat * 32 + w.toNat * 8)
  | .vcompress d a b k t => some (32, 0xA8000004 + d.toNat * 1048576 + a.toNat * 32768 + b.toNat * 1024 + k.toNat * 128 + t.toNat * 8)
  | .vexpand d a b k t => some (32, 0xA8000005 + d.toNat * 1048576 + a.toNat * 32768 + b.toNat * 1024 + k.toNat * 128 + t.toNat * 8)
  | .vclass d a k t => some (32, 0xA8000006 + d.toNat * 1048576 + a.toNat * 32768 + k.toNat * 128 + t.toNat * 8)
  | .vrcp d a k t => some (32, 0xAA000000 + d.toNat * 1048576 + a.toNat * 32768 + k.toNat * 128 + t.toNat * 8)
  | .vrsq d a k t => some (32, 0xAA000001 + d.toNat * 1048576 + a.toNat * 32768 + k.toNat * 128 + t.toNat * 8)
  | .vexp2 d a k t => some (32, 0xAA000002 + d.toNat * 1048576 + a.toNat * 32768 + k.toNat * 128 + t.toNat * 8)
  | .vlog2 d a k t => some (32, 0xAA000003 + d.toNat * 1048576 + a.toNat * 32768 + k.toNat * 128 + t.toNat * 8)
  | .vtanh d a k t => some (32, 0xAA000004 + d.toNat * 1048576 + a.toNat * 32768 + k.toNat * 128 + t.toNat * 8)
  | .vdiv d a b k t => some (32, 0xAA000005 + d.toNat * 1048576 + a.toNat * 32768 + b.toNat * 1024 + k.toNat * 128 + t.toNat * 8)
  | .vcmpEq d a b k t => some (32, 0xAC000000 + d.toNat * 1048576 + a.toNat * 32768 + b.toNat * 1024 + k.toNat * 128 + t.toNat * 8)
  | .vcmpNe d a b k t => some (32, 0xAC000001 + d.toNat * 1048576 + a.toNat * 32768 + b.toNat * 1024 + k.toNat * 128 + t.toNat * 8)
  | .vcmpLt d a b k t => some (32, 0xAC000002 + d.toNat * 1048576 + a.toNat * 32768 + b.toNat * 1024 + k.toNat * 128 + t.toNat * 8)
  | .vcmpLe d a b k t => some (32, 0xAC000003 + d.toNat * 1048576 + a.toNat * 32768 + b.toNat * 1024 + k.toNat * 128 + t.toNat * 8)
  | .vcmpGt d a b k t => some (32, 0xAC000004 + d.toNat * 1048576 + a.toNat * 32768 + b.toNat * 1024 + k.toNat * 128 + t.toNat * 8)
  | .vcmpGe d a b k t => some (32, 0xAC000005 + d.toNat * 1048576 + a.toNat * 32768 + b.toNat * 1024 + k.toNat * 128 + t.toNat * 8)
  | .vcmpUn d a b k t => some (32, 0xAC000006 + d.toNat * 1048576 + a.toNat * 32768 + b.toNat * 1024 + k.toNat * 128 + t.toNat * 8)
  | .kand d a b => some (32, 0xAE000000 + d.toNat * 1048576 + a.toNat * 131072 + b.toNat * 16384)
  | .kor d a b => some (32, 0xAE000001 + d.toNat * 1048576 + a.toNat * 131072 + b.toNat * 16384)
  | .kxor d a b => some (32, 0xAE000002 + d.toNat * 1048576 + a.toNat * 131072 + b.toNat * 16384)
  | .knot d a => some (32, 0xAE000003 + d.toNat * 1048576 + a.toNat * 131072)
  | .kmov d a => some (32, 0xAE000004 + d.toNat * 1048576 + a.toNat * 131072)
  | .kmovScalar d s => some (32, 0xAE002004 + d.toNat * 1048576 + s.toNat * 256)
  | .kpop d a => some (32, 0xAE000005 + d.toNat * 1048576 + a.toNat * 131072)
  | .kfirst d a => some (32, 0xAE000006 + d.toNat * 1048576 + a.toNat * 131072)
  | .claim s => some (32, 0xB0000000 + s.toNat * 32)
  | .release s => some (32, 0xB0000001 + s.toNat * 32)
  | .tload d a b => some (32, 0xB0000002 + d.toNat * 1048576 + a.toNat * 32768 + b.toNat * 1024)
  | .tmma d a b => some (32, 0xB0000003 + d.toNat * 1048576 + a.toNat * 32768 + b.toNat * 1024)
  | .tsmma d a b s => some (32, 0xB0000004 + d.toNat * 1048576 + a.toNat * 32768 + b.toNat * 1024 + s.toNat * 32)
  | .tzero d => some (32, 0xB0000005 + d.toNat * 1048576)
  | .tstore d a b => some (32, 0xB0000006 + d.toNat * 1048576 + a.toNat * 32768 + b.toNat * 1024)
  | .tscale d a => some (32, 0xB0000007 + d.toNat * 1048576 + a.toNat * 32768)
  | .taccv d a s => some (32, 0xB0000008 + d.toNat * 1048576 + a.toNat * 32768 + s.toNat * 32)
  | .tmatch d a b => some (32, 0xB2000000 + d.toNat * 1048576 + a.toNat * 32768 + b.toNat * 1024)
  | .tmerge d a b s => some (32, 0xB2000001 + d.toNat * 1048576 + a.toNat * 32768 + b.toNat * 1024 + s.toNat * 32)
  | .tmsize d a s => some (32, 0xB2000002 + d.toNat * 1048576 + a.toNat * 32768 + s.toNat * 32)
  | .tunmerge d a b s => some (32, 0xB2000003 + d.toNat * 1048576 + a.toNat * 32768 + b.toNat * 1024 + s.toNat * 32)
  | .tmapcomp d a b => some (32, 0xB2000004 + d.toNat * 1048576 + a.toNat * 32768 + b.toNat * 1024)
  | .tmapfree d => some (32, 0xB2000005 + d.toNat * 1048576)
  | .tmapsave d a => some (32, 0xB2000006 + d.toNat * 1048576 + a.toNat * 32768)
  | .tmapload d a => some (32, 0xB2000007 + d.toNat * 1048576 + a.toNat * 32768)
  | .mboxk a y => some (32, 0xB4000000 + a.toNat * 32768 + bit y * 256)
  | .mbput a b y => some (32, 0xB4000001 + a.toNat * 32768 + b.toNat * 1024 + bit y * 256)
  | .mbtake d a b x y => some (32, 0xB4000002 + d.toNat * 1048576 + a.toNat * 32768 + b.toNat * 1024 + bit x * 512 + bit y * 256)
  | .repl d a b x y => some (32, 0xB4000003 + d.toNat * 1048576 + a.toNat * 32768 + b.toNat * 1024 + bit x * 512 + bit y * 256)
  | .expsend d a b x y => some (32, 0xB4000004 + d.toNat * 1048576 + a.toNat * 32768 + b.toNat * 1024 + bit x * 512 + bit y * 256)
  | .copy d a b x y => some (32, 0xB6000000 + d.toNat * 1048576 + a.toNat * 32768 + b.toNat * 1024 + bit x * 512 + bit y * 256)
  | .copym d a b x y => some (32, 0xB6000001 + d.toNat * 1048576 + a.toNat * 32768 + b.toNat * 1024 + bit x * 512 + bit y * 256)
  | .ingcfg a b y => some (32, 0xB6000002 + a.toNat * 32768 + b.toNat * 1024 + bit y * 256)
  | .ingq d a x y => some (32, 0xB6000003 + d.toNat * 1048576 + a.toNat * 32768 + bit x * 512 + bit y * 256)
  | .trap a b y => some (32, 0xB8000000 + a.toNat * 32768 + b.toNat * 1024 + bit y * 256)
  | .rett a b y => some (32, 0xB8000001 + a.toNat * 32768 + b.toNat * 1024 + bit y * 256)
  | .ecall c => some (32, 0xB8000002 + c.toNat * 1024)
  | .csrr d r => some (32, 0xB8000003 + d.toNat * 1048576 + r.toNat * 256)
  | .csrw a r => some (32, 0xB8000004 + a.toNat * 1048576 + r.toNat * 256)
  | .tlbinv a b y => some (32, 0xB8000005 + a.toNat * 32768 + b.toNat * 1024 + bit y * 256)
  | .ctxsave d a x y => some (32, 0xB8000006 + d.toNat * 1048576 + a.toNat * 32768 + bit x * 512 + bit y * 256)
  | .ctxload a y => some (32, 0xB8000007 + a.toNat * 32768 + bit y * 256)
  | .halt => some (32, 0xB8000008)
  | .idle d a x y => some (32, 0xB8000009 + d.toNat * 1048576 + a.toNat * 32768 + bit x * 512 + bit y * 256)
  | .pwrreq d a y => some (32, 0xB800000A + d.toNat * 1048576 + a.toNat * 32768 + bit y * 256)
  | .perfr d n x => some (32, 0xB800000B + d.toNat * 1048576 + n.toNat * 1024 + bit x * 512)
  | .preempt d a y => some (32, 0xB800000C + d.toNat * 1048576 + a.toNat * 32768 + bit y * 256)
  | .setfmt a y => some (32, 0xB800000D + a.toNat * 32768 + bit y * 256)
  | .getfmt d x => some (32, 0xB800000E + d.toNat * 1048576 + bit x * 512)
  | .compactAdd d a b => some (16, 0x0400 + d.toNat * 128 + a.toNat * 16 + b.toNat * 2)
  | .compactSub d a b => some (16, 0x0800 + d.toNat * 128 + a.toNat * 16 + b.toNat * 2)
  | .compactAnd d a b => some (16, 0x0C00 + d.toNat * 128 + a.toNat * 16 + b.toNat * 2)
  | .compactOr d a b => some (16, 0x1000 + d.toNat * 128 + a.toNat * 16 + b.toNat * 2)
  | .compactXor d a b => some (16, 0x1400 + d.toNat * 128 + a.toNat * 16 + b.toNat * 2)
  | .compactMov d a => some (16, 0x1800 + d.toNat * 128 + a.toNat * 16)
  | .compactShl d a b => some (16, 0x1C00 + d.toNat * 128 + a.toNat * 16 + b.toNat * 2)
  | .compactShr d a b => some (16, 0x2000 + d.toNat * 128 + a.toNat * 16 + b.toNat * 2)
  | .compactSra d a b => some (16, 0x2400 + d.toNat * 128 + a.toNat * 16 + b.toNat * 2)
  | .compactAddi d a i => some (16, 0x2800 + d.toNat * 128 + a.toNat * 16 + i.toNat)
  | .compactShli d a i => some (16, 0x2C00 + d.toNat * 128 + a.toNat * 16 + i.toNat)
  | .compactShri d a i => some (16, 0x3000 + d.toNat * 128 + a.toNat * 16 + i.toNat)
  | .compactLd d a i => some (16, 0x3400 + d.toNat * 128 + a.toNat * 16 + i.toNat)
  | .compactSt d a i => some (16, 0x3800 + d.toNat * 128 + a.toNat * 16 + i.toNat)
  | .compactLdv d a i => some (16, 0x3C00 + d.toNat * 128 + a.toNat * 16 + i.toNat)
  | .compactStv d a i => some (16, 0x4000 + d.toNat * 128 + a.toNat * 16 + i.toNat)
  | .compactBeq a o => some (16, 0x4400 + a.toNat * 128 + o.toNat)
  | .compactBne a o => some (16, 0x4800 + a.toNat * 128 + o.toNat)
  | .compactVaddF32 d a b => some (16, 0x4C00 + d.toNat * 128 + a.toNat * 16 + b.toNat * 2)
  | .compactVmulF32 d a b => some (16, 0x5000 + d.toNat * 128 + a.toNat * 16 + b.toNat * 2)
  | .compactVfmaF32 d a b => some (16, 0x5400 + d.toNat * 128 + a.toNat * 16 + b.toNat * 2)
  | .compactVaddI32 d a b => some (16, 0x5800 + d.toNat * 128 + a.toNat * 16 + b.toNat * 2)
  | .compactJrS0 => some (16, 0x5C00)
  | .compactJrS1 => some (16, 0x5C10)
  | .compactJrS2 => some (16, 0x5C20)
  | .compactJrS3 => some (16, 0x5C30)
  | .compactJrS4 => some (16, 0x5C40)
  | .compactJrS5 => some (16, 0x5C50)
  | .compactJrS6 => some (16, 0x5C60)
  | .compactJrS7 => some (16, 0x5C70)
  | .compactEnd => some (16, 0x6000)
  | .compactNop => some (16, 0x6400)
  | .compactYield => some (16, 0x6800)
  | .compactSlt d a b => some (16, 0x6C00 + d.toNat * 128 + a.toNat * 16 + b.toNat * 2)
  | .compactLi d i => some (16, 0x7000 + d.toNat * 128 + i.toNat)
  | .compactWait => some (16, 0x7400)
  | .compactBrk => some (16, 0x7800)
  | .compactVsubF32 d a b => some (16, 0x7C00 + d.toNat * 128 + a.toNat * 16 + b.toNat * 2)
  | .messageArrival => none
  | .taskStart => none
  | .taskResume => none
  | .mapReload => none
  | .migrationArrival => none
  | .wakeUp => none
  | .budgetExpiry => none
  | .preemptionByArrival => none
  | .taskSave => none
  | .trapReport => none
  | .contextCreate => none
  | .contextDestroy => none
  | .loadReply => none
  | .storeAck => none
  | .deferredFaultArrival => none
  | .forwardingEntryExpiry => none
  | .leaseGrant => none
  | .leaseEnd => none
  | .hbmLineFill => none
  | .storeApply => none
  | .atomicApply => none
  | .ufnApply => none
  | .redApply => none
  | .redSlotTimeout => none
  | .monitorRegistration => none
  | .waitcRetry => none
  | .scratchpadBankAccess => none
  | .translationWalk => none
  | .queueHomeQinit => none
  | .queueHomePush => none
  | .queueHomePop => none
  | .queueHomeSteal => none
  | .queueHomeAvail => none
  | .queueHomePermit => none
  | .queueHomePret => none
  | .permitExpiry => none
  | .qpopWRetry => none
  | .gloverMatch => none
  | .gloverWindowExpiry => none
  | .streamEnginePop => none
  | .streamPopRetry => none
  | .sfuAccept => none
  | .sfuResult => none
  | .copyDone => none
  | .tileOpComplete => none
  | .fullerOpComplete => none
  | .barrierCredit => none
  | .groupRootUpdate => none
  | .mcastSerialise => none
  | .mcastMemberApply => none
  | .streamInstructionArrival => none
  | .issueCountReport => none
  | .subscriptionRegistration => none
  | .frequencyLockSwitch => none
  | .mailboxPut => none
  | .resultCombine => none
  | .expsendRowRead => none
  | .rowArrival => none
  | .rowQueueTimer => none
  | .announcement => none
  | .launchTaskPost => none
  | .dimensionRecordRead => none
  | .launchFenceMet => none
  | .launchFenceTimeout => none
  | .tailorAdmission => none
  | .tailorCancel => none
  | .runFrameStart => none
  | .untimedCapExpiry => none
  | .deadline => none
  | .reservationEnd => none
  | .timedWaitLapse => none
  | .ageingStep => none
  | .idleTimeLimit => none
  | .correctableError => none
  | .uncorrectableError => none
  | .dieLoss => none
  | .dieReadmission => none
  | .linkPacketArrival => none
  | .flitCrcFailure => none
  | .portRetrain => none
  | .widthMarker => none
  | .routeWaitTimeout => none
  | .hostReadTimeout => none
  | .portPartnerSeen => none
  | .portDetectTimeout => none
  | .laneTraining => none
  | .speedSettle => none
  | .widthSettle => none
  | .attestation => none
  | .moduleReset => none
  | .firmwareStage => none
  | .memoryStage => none
  | .meshStage => none
  | .linksStage => none
  | .governorSample => none
  | .regulatorSettled => none
  | .thermalTrip => none
  | .thermalRecovery => none
  | .thermalShutdown => none
  | .ingestInflate => none
  | .ingestTranscode => none
  | .ingestTokenise => none
  | .ingestRowPush => none
  | .ingestPermitRetry => none
  | .ingestTimeout => none
  | .ingestOutputStall => none
  | .hostPostedMessage => none
  | .hostLaunch => none
  | .hostPostedWrite => none
  | .modctlReady => none
  | .diereset => none
  | .reportDoorbell => none
  | .portstatDisable => none
  | .hostRegisterWrite => none
  | .copyStreamDelivery => none
  | .handlerTableEntryWrite => none
  | .translationInvalidation => none

/-- The bytes of an instruction as memory holds them: little-endian halfwords, the halfword of the higher bits first. -/
def encodeBytes (i : Instr) : List Byte :=
  match encode i with
  | some (32, w) => [BitVec.ofNat 8 (w / 65536), BitVec.ofNat 8 (w / 16777216), BitVec.ofNat 8 w, BitVec.ofNat 8 (w / 256)]
  | some (_, w) => [BitVec.ofNat 8 w, BitVec.ofNat 8 (w / 256)]
  | none => []

end Sys2Proof
end

