-- ==== Sys2Proof/Machine/Float.lean ====
section
/-!
DEFINITION. Binary floating formats and their arithmetic (R117-R124, R126, R133), computed exactly and rounded once.

A finite value is a sign, a magnitude `m` and an exponent `e`: `(-1)^neg * m * 2^e`.  Every operation forms the exact
value, as a sum of such terms or as a magnitude with a sticky tail, and `roundTo` narrows it to the format.
-/

namespace Sys2Proof.Machine

/-- A binary format of Table 6.1: its fraction and exponent widths. -/
structure FloatFmt where
  frac : Nat
  exp : Nat
  deriving DecidableEq, Repr

/-- IEEE 754 binary32 (R117). -/
def f32 : FloatFmt := ⟨23, 8⟩
/-- IEEE 754 binary16 (R117). -/
def f16 : FloatFmt := ⟨10, 5⟩
/-- The upper 16 bits of binary32 (R117). -/
def bf16 : FloatFmt := ⟨7, 8⟩

/-- The bits of a format. -/
def fpWidth (f : FloatFmt) : Nat := 1 + f.exp + f.frac
/-- The exponent bias (Table 6.1). -/
def fpBias (f : FloatFmt) : Nat := 2 ^ (f.exp - 1) - 1
/-- The bit pattern of +infinity. -/
def fpInf (f : FloatFmt) : Nat := (2 ^ f.exp - 1) * 2 ^ f.frac
/-- The canonical quiet NaN (Table 6.1). -/
def fpNaN (f : FloatFmt) : Nat := fpInf f + 2 ^ (f.frac - 1)
/-- The sign bit of a format. -/
def fpSign (f : FloatFmt) (neg : Bool) : Nat := if neg then 2 ^ (f.exp + f.frac) else 0
/-- The exponent of the unit of a subnormal. -/
def fpQmin (f : FloatFmt) : Int := 1 - (fpBias f : Int) - f.frac

/-- The float type of a 2-bit type field: 0 f32, 1 f16, 2 bf16 (R87). -/
def fmt2 (t : BitVec 2) : FloatFmt := match t.toNat with | 0 => f32 | 1 => f16 | _ => bf16
/-- The float type of a type code 8-10 (Table 4.10). -/
def fmt4 (t : Nat) : FloatFmt := match t with | 8 => f32 | 9 => f16 | _ => bf16

/-- What a bit pattern of a format stands for (R117). -/
inductive Fp where
  | nan (signalling : Bool)
  | inf (neg : Bool)
  | fin (neg : Bool) (m : Nat) (e : Int)
  deriving DecidableEq, Repr

/-- The value of a bit pattern; higher bits are ignored (R391). -/
def fpOf (f : FloatFmt) (b : Nat) : Fp :=
  let frac := b % 2 ^ f.frac
  let ex := b / 2 ^ f.frac % 2 ^ f.exp
  let neg := b / 2 ^ (f.exp + f.frac) % 2 == 1
  if ex == 2 ^ f.exp - 1 then
    if frac == 0 then .inf neg else .nan (frac / 2 ^ (f.frac - 1) == 0)
  else if ex == 0 then .fin neg frac (fpQmin f)
  else .fin neg (frac + 2 ^ f.frac) (fpQmin f + ex - 1)

/-- The flags of Table 6.2 in FLG order: NV, DZ, OF, UF, NX from bit 4 down. -/
abbrev Flags := BitVec 5
/-- Invalid operation. -/
def flNV : Flags := 16
/-- Division by zero. -/
def flDZ : Flags := 8
/-- Overflow. -/
def flOF : Flags := 4
/-- Underflow. -/
def flUF : Flags := 2
/-- Inexact. -/
def flNX : Flags := 1

/-- A result: its bits, the flags it raises and whether a clamp saturated (FMT.SAT). -/
structure FpOut where
  bits : Nat
  flags : Flags := 0
  sat : Bool := false
  deriving DecidableEq, Repr

/-- The rounding modes of FMT.RM (Table 4.6). -/
inductive Rm where
  | rne | rtz | rdn | rup
  deriving DecidableEq, Repr

/-- FMT.RM's two bits. -/
def rmOf (b : BitVec 2) : Rm := match b.toNat with | 0 => .rne | 1 => .rtz | 2 => .rdn | _ => .rup

/-- Whether a magnitude with lower neighbour `n` is rounded up: `half` and `rest` say whether the discarded part has its top
bit set and anything below it (R120). -/
def roundsUp (rm : Rm) (neg : Bool) (n : Nat) (half rest : Bool) : Bool :=
  match rm with
  | .rne => half && (rest || n % 2 == 1)
  | .rtz => false
  | .rdn => neg && (half || rest)
  | .rup => !neg && (half || rest)

/-- The magnitude `m * 2^e` (and a little more when `sticky`) as an integer multiple of `2^q`: the rounded multiple and
whether anything was discarded. -/
def roundAt (rm : Rm) (neg : Bool) (m : Nat) (e : Int) (sticky : Bool) (q : Int) : Nat × Bool :=
  if q ≤ e then
    let n := m * 2 ^ (e - q).toNat
    (if sticky && roundsUp rm neg n false true then n + 1 else n, sticky)
  else
    let s := (q - e).toNat
    let n := m / 2 ^ s
    let r := m % 2 ^ s
    let half := decide (2 ^ (s - 1) ≤ r)
    let rest := sticky || r % 2 ^ (s - 1) != 0
    (if roundsUp rm neg n half rest then n + 1 else n, half || rest)

/-- The finite value an overflow becomes (R120). -/
def overflowed (f : FloatFmt) (rm : Rm) (neg : Bool) : Nat :=
  let toInf := match rm with | .rne => true | .rtz => false | .rdn => neg | .rup => !neg
  fpSign f neg + (if toInf then fpInf f else fpInf f - 1)

/-- Rounds a non-zero magnitude to a format with its flags: overflow by R120, tininess judged after rounding (Table 6.2).
A caller that sets `sticky` gives `m` at least two bits more than the format holds. -/
def roundTo (f : FloatFmt) (rm : Rm) (neg : Bool) (m : Nat) (e : Int) (sticky : Bool) : FpOut :=
  let top : Int := e + Nat.log2 m
  let qu : Int := top - f.frac
  let q := max qu (fpQmin f)
  let (n, inexact) := roundAt rm neg m e sticky q
  let bits := (q - fpQmin f).toNat * 2 ^ f.frac + n
  if fpInf f ≤ bits then { bits := overflowed f rm neg, flags := flOF ||| flNX }
  else
    let (nu, _) := roundAt rm neg m e sticky qu
    let tiny := decide (qu < fpQmin f) && !(decide (qu + 1 = fpQmin f) && nu == 2 ^ (f.frac + 1))
    { bits := fpSign f neg + bits
      flags := (if inexact then flNX else 0) ||| (if tiny && inexact && n != 0 then flUF else 0) }

/-- A zero of the given sign. -/
def fpZero (f : FloatFmt) (neg : Bool) : FpOut := { bits := fpSign f neg }
/-- An infinity of the given sign. -/
def fpInfOut (f : FloatFmt) (neg : Bool) : FpOut := { bits := fpSign f neg + fpInf f }
/-- The canonical NaN with the flags that go with it (R119). -/
def fpNaNOut (f : FloatFmt) (fl : Flags) : FpOut := { bits := fpNaN f, flags := fl }

/-- Whether an operand is a NaN. -/
def fpIsNaN : Fp → Bool | .nan _ => true | _ => false
/-- Whether an operand is a signalling NaN. -/
def fpIsSig : Fp → Bool | .nan s => s | _ => false
/-- NV when one of the operands is a signalling NaN (R119). -/
def sigFlag (xs : List Fp) : Flags := if xs.any fpIsSig then flNV else 0
/-- Negation of a value. -/
def fpNeg : Fp → Fp | .nan s => .nan s | .inf n => .inf !n | .fin n m e => .fin (!n) m e

/-- An exact finite term: sign, magnitude, exponent. -/
structure Term where
  neg : Bool
  m : Nat
  e : Int
  deriving DecidableEq, Repr

/-- The lowest exponent of a list of terms. -/
def minExp : List Term → Int → Int
  | [], e => e
  | t :: ts, e => minExp ts (min t.e e)

/-- The exact signed sum of terms as a multiple of `2^e`, for an `e` no greater than any exponent. -/
def sumAt (e : Int) : List Term → Int
  | [] => 0
  | t :: ts =>
    let v : Int := ((t.m * 2 ^ (t.e - e).toNat : Nat) : Int)
    (if t.neg then -v else v) + sumAt e ts

/-- The exact sum of terms: an exact zero keeps a sign all its terms share; otherwise it is +0, or -0 under RDN (R120). -/
def exactSum (rm : Rm) (ts : List Term) : Term :=
  let e := minExp ts (match ts with | [] => 0 | t :: _ => t.e)
  let v := sumAt e ts
  if v = 0 then
    let neg := match ts with
      | [] => false
      | t :: r => if r.all (fun u => u.neg == t.neg) then t.neg else rm == .rdn
    ⟨neg, 0, e⟩
  else ⟨decide (v < 0), v.natAbs, e⟩

/-- A term rounded to a format. -/
def roundTerm (f : FloatFmt) (rm : Rm) (t : Term) : FpOut :=
  if t.m = 0 then fpZero f t.neg else roundTo f rm t.neg t.m t.e false

/-- A sum of values with one rounding (R120): NaN and opposite infinities as R119 gives; `nv` when a term was already an
invalid product. -/
def fpSum (f : FloatFmt) (rm : Rm) (xs : List Fp) : FpOut :=
  if xs.any fpIsNaN then fpNaNOut f (sigFlag xs)
  else
    let infs := xs.filterMap (fun x => match x with | .inf n => some n | _ => none)
    match infs with
    | n :: r => if r.all (· == n) then fpInfOut f n else fpNaNOut f flNV
    | [] => roundTerm f rm (exactSum rm (xs.filterMap (fun x => match x with | .fin n m e => some ⟨n, m, e⟩ | _ => none)))

/-- An exact product; 0 times infinity is a signalling NaN, so that it raises NV wherever it is used (R119, R397). -/
def fpMulExact : Fp → Fp → Fp
  | .nan a, .nan b => .nan (a || b)
  | .nan a, _ => .nan a
  | _, .nan b => .nan b
  | .inf a, .inf b => .inf (a != b)
  | .inf a, .fin b m _ => if m = 0 then .nan true else .inf (a != b)
  | .fin b m _, .inf a => if m = 0 then .nan true else .inf (a != b)
  | .fin a m e, .fin b n g => .fin (a != b) (m * n) (e + g)

/-- `x + y` (R392). -/
def fpAdd (f : FloatFmt) (rm : Rm) (x y : Fp) : FpOut := fpSum f rm [x, y]
/-- `x - y` (R392). -/
def fpSub (f : FloatFmt) (rm : Rm) (x y : Fp) : FpOut := fpSum f rm [x, fpNeg y]
/-- `x * y` (R392). -/
def fpMul (f : FloatFmt) (rm : Rm) (x y : Fp) : FpOut := fpSum f rm [fpMulExact x y]
/-- `x * y + z` with one rounding (R397). -/
def fpFma (f : FloatFmt) (rm : Rm) (x y z : Fp) : FpOut := fpSum f rm [fpMulExact x y, z]

/-- The order of two finite or infinite values with -0 equal to +0: whether `x < y`. -/
def fpLt (x y : Fp) : Bool :=
  match x, y with
  | .nan _, _ => false
  | _, .nan _ => false
  | .inf a, .inf b => a && !b
  | .inf a, .fin _ _ _ => a
  | .fin _ _ _, .inf b => !b
  | .fin a m e, .fin b n g =>
    let q := min e g
    decide (sumAt q [⟨a, m, e⟩] < sumAt q [⟨b, n, g⟩])

/-- Whether two values are equal, with -0 equal to +0 (R122). -/
def fpEq (x y : Fp) : Bool := !fpIsNaN x && !fpIsNaN y && !fpLt x y && !fpLt y x

/-- The sign of a value. -/
def fpNegative : Fp → Bool | .nan _ => false | .inf n => n | .fin n _ _ => n

/-- FMIN and FMAX on bit patterns (R122, R398): -0 below +0, the result an operand's own pattern. -/
def fpMinMax (f : FloatFmt) (isMax : Bool) (a b : Nat) : FpOut :=
  let x := fpOf f a
  let y := fpOf f b
  let fl := sigFlag [x, y]
  let w := 2 ^ fpWidth f
  match fpIsNaN x, fpIsNaN y with
  | true, true => fpNaNOut f fl
  | true, false => { bits := b % w, flags := fl }
  | false, true => { bits := a % w, flags := fl }
  | false, false =>
    let less := fpLt x y || (fpEq x y && fpNegative x && !fpNegative y)
    { bits := (if less != isMax then a else b) % w, flags := fl }

/-- The predicates of FCMP and VCMP (R122). -/
inductive Pred where
  | eq | ne | lt | le | gt | ge | un
  deriving DecidableEq, Repr

/-- A float comparison and the flags it raises (R122). -/
def fpCmp (p : Pred) (x y : Fp) : Bool × Flags :=
  let nan := fpIsNaN x || fpIsNaN y
  let quiet := sigFlag [x, y]
  let ordered := if nan then flNV else 0
  match p with
  | .eq => (fpEq x y, quiet)
  | .ne => (!fpEq x y, quiet)
  | .un => (nan, quiet)
  | .lt => (fpLt x y, ordered)
  | .le => (!nan && !fpLt y x, ordered)
  | .gt => (fpLt y x, ordered)
  | .ge => (!nan && !fpLt x y, ordered)

/-- Conversion between float formats (R123, R394): a conversion to the same format returns a non-NaN operand unchanged. -/
def fpConvert (src dst : FloatFmt) (rm : Rm) (b : Nat) : FpOut :=
  match fpOf src b with
  | .nan s => fpNaNOut dst (if s then flNV else 0)
  | .inf n => fpInfOut dst n
  | .fin n m e => roundTerm dst rm ⟨n, m, e⟩

/-- An integer type: its width and whether it is signed (R116). -/
structure IntTy where
  bits : Nat
  signed : Bool
  deriving DecidableEq, Repr

/-- The integer type of codes 0-7 of Table 4.10. -/
def intTy (t : Nat) : IntTy := ⟨8 * 2 ^ (t % 4), decide (t < 4)⟩

/-- The integer a bit pattern of a type stands for. -/
def intOf (t : IntTy) (b : Nat) : Int :=
  let u := b % 2 ^ t.bits
  if t.signed && decide (2 ^ (t.bits - 1) ≤ u) then (u : Int) - 2 ^ t.bits else u

/-- The least and greatest values of a type (R116). -/
def intMin (t : IntTy) : Int := if t.signed then -(2 ^ (t.bits - 1)) else 0
/-- The greatest value of a type. -/
def intMax (t : IntTy) : Int := if t.signed then 2 ^ (t.bits - 1) - 1 else 2 ^ t.bits - 1

/-- An integer modulo 2^bits. -/
def intBits (bits : Nat) (v : Int) : Nat := (v % (2 ^ bits : Int)).toNat

/-- `Sat(v, type)` with whether it clamped (R116). -/
def satInt (t : IntTy) (v : Int) : Nat × Bool :=
  if v < intMin t then (intBits t.bits (intMin t), true)
  else if intMax t < v then (intBits t.bits (intMax t), true)
  else (intBits t.bits v, false)

/-- Integer to float (R123). -/
def intToFp (dst : FloatFmt) (rm : Rm) (v : Int) : FpOut := roundTerm dst rm ⟨decide (v < 0), v.natAbs, 0⟩

/-- Float to integer (R124): the rounded value clamped under SATEN, or its low bits. -/
def fpToInt (src : FloatFmt) (t : IntTy) (rm : Rm) (saten : Bool) (b : Nat) : FpOut :=
  match fpOf src b with
  | .nan _ => { bits := 0, flags := flNV }
  | .inf n =>
    if saten then { bits := intBits t.bits (if n then intMin t else intMax t), flags := flNV, sat := true }
    else { bits := 0, flags := flNV }
  | .fin n m e =>
    let (k, inexact) := roundAt rm n m e false 0
    let v : Int := if n then -(k : Int) else k
    let nx := if inexact then flNX else 0
    let (clamped, out) := satInt t v
    if out then { bits := if saten then clamped else intBits t.bits v, flags := nx ||| flNV, sat := saten }
    else { bits := intBits t.bits v, flags := nx }

/-- VCLASS: the class of a value as a one-hot number (R508). -/
def fpClass (f : FloatFmt) (b : Nat) : Nat :=
  match fpOf f b with
  | .nan s => if s then 2 ^ 8 else 2 ^ 9
  | .inf n => if n then 2 ^ 0 else 2 ^ 7
  | .fin n m _ =>
    if m = 0 then (if n then 2 ^ 3 else 2 ^ 4)
    else if m < 2 ^ f.frac then (if n then 2 ^ 2 else 2 ^ 5)
    else (if n then 2 ^ 1 else 2 ^ 6)

end Sys2Proof.Machine
end

