-- ==== Sys2Proof/Machine/Map.lean ====
section
/-!
DEFINITION. A finite map from numbers as a list of pairs with rising keys.  Reading an absent key gives a default, so that
a module of 8,192 cores is written down by the few cores that differ from reset.
-/

namespace Sys2Proof.Machine

/-- A map from numbers to values, keys rising. -/
abbrev AMap (α : Type) := List (Nat × α)

/-- The value at a key. -/
def mapGet? {α : Type} : AMap α → Nat → Option α
  | [], _ => none
  | (k, v) :: t, i => if k = i then some v else mapGet? t i

/-- The value at a key, or a default. -/
def mapGet {α : Type} (d : α) (m : AMap α) (i : Nat) : α := (mapGet? m i).getD d

/-- The map with a key set to a value. -/
def mapSet {α : Type} : AMap α → Nat → α → AMap α
  | [], i, v => [(i, v)]
  | (k, w) :: t, i, v =>
    if k = i then (i, v) :: t
    else if i < k then (i, v) :: (k, w) :: t
    else (k, w) :: mapSet t i v

/-- The map without a key. -/
def mapDel {α : Type} (m : AMap α) (i : Nat) : AMap α := m.filter (fun p => p.1 != i)

/-- Whether the keys rise. -/
def mapWf {α : Type} : AMap α → Bool
  | [] => true
  | [_] => true
  | (k, _) :: (l, w) :: t => decide (k < l) && mapWf ((l, w) :: t)

end Sys2Proof.Machine
end

