-- ==== Sys2Proof/Machine/State.lean ====
section
/-!
DEFINITION. The state of the module: every piece of state the spec names, as plain data.

The module has 8,192 cores, 512 clusters and four dies; each is kept in a map whose absent keys stand for the value after
reset.  Instants of DEVTIME, addresses used as keys, counts and identifiers are numbers; what software sees as a word is a
bit vector.
-/

namespace Sys2Proof.Machine

open Sys2Proof

/-- The machine never stops with a fault: every fault of the spec is a trap, a report or a refusal that some agent takes, and
the machine goes on. The type is kept closed and has no constructor that a step raises. -/
inductive Fault where
  /-- Raised by nothing: no meaning answers with it (safe). -/
  | none
  deriving DecidableEq, Repr

/-- Why the model has no meaning for an instruction. -/
inductive Refusal where
  /-- The instruction has no meaning in the model yet; raised by an arm of `exec` (safe: the model stops). -/
  | notModelled (mnemonic : String)
  deriving DecidableEq, Repr

/-- A cause code of Table 4.17. -/
inductive Cause where
  | illop | priv | regbound | align | space | bound | page | prot | poison | sqfull | budget | metabad | slot | maplost
  | mapbad | mcastpart | dielost | rtfull | suberr | brk | watch | fpx | ecall | remote | deadline | permit | fenced
  | stalexlat
  deriving DecidableEq, Repr

/-- The states of a strand slot (Table 2.1). -/
inductive SlotState where
  | free | starting | ready | stalled | blocked | trapping | saving
  deriving DecidableEq, Repr

/-- A register that an instruction names, after any relative offset. -/
inductive Reg where
  | s (i : Nat) | v (i : Nat) | k (i : Nat)
  deriving DecidableEq, Repr

/-- The four counters of R77. -/
inductive Ctr where
  | ld | st | cp | tl
  deriving DecidableEq, Repr

/-- The scopes of Table 8.1. -/
inductive Scope where
  | strand | core | cluster | die | device | system
  deriving DecidableEq, Repr

/-- A stream register (Table 7.6). -/
structure Stream where
  kind : Nat := 0
  esize : Nat := 0
  /-- KIND 2: the operation number of its copy, 0 for none (R375). -/
  source : Word := 0
  wptr : Nat := 0
  rptr : Nat := 0
  limit : Nat := 2 ^ 64 - 1
  stage : List Byte := []
  /-- The pop under way (R149), by its operation number. -/
  pop : Option Nat := none
  /-- The instant from which an empty pop may be made again (R364). -/
  retry : Nat := 0
  /-- KIND 3: the arrival numbers of the messages whose bytes are staged, oldest first (R149). -/
  msgs : List Nat := []
  deriving DecidableEq, Repr

/-- A buffered send in the form of its save-image record (R37, Table 14.8), with the PC of the instruction that made it
(R531). -/
structure Send where
  form : Nat
  net : Nat
  dest : BitVec 32
  data : List Word
  pc : Nat
  deriving DecidableEq, Repr

/-- A deferred fault that has arrived and is not yet raised (R158): the operation, the registers it was to write, the counter
that counted it, and what it reports. -/
structure Deferred where
  op : Nat
  regs : List Reg
  ctr : Option Ctr
  /-- Whether the access is an atomic, which a release waits for as for a store (R164). -/
  upd : Bool
  cause : Cause
  sub : Nat
  tval : Word
  /-- The PC of the instruction that issued it (R281). -/
  pc : Nat
  deriving DecidableEq, Repr

/-- What a STALLED or BLOCKED strand waits for (R39, R40). -/
inductive Wait where
  | nothing
  /-- The answer of an operation under way. -/
  | op (id : Nat)
  /-- Bytes of a stream register: its number and how many are needed (R149). -/
  | stream (q need : Nat)
  /-- The end of a phase of a barrier (R188). -/
  | barrier (b phase : Nat)
  /-- The next instruction of its channel (R40). -/
  | channel
  /-- A marker that reaches its port (R63), and whether it has. -/
  | marker (r : Nat) (seen : Bool)
  /-- An arrival in the receive store since an arrival number, or an instant (R405). -/
  | idle (seq limit : Nat)
  /-- PUTS of a token (R249). -/
  | puts (token need : Nat)
  /-- The tile-queue entries or ingest messages that came before its form, numbered below `n` (R211, R315). -/
  | before (n : Nat)
  /-- An instant of DEVTIME. -/
  | until (t : Nat)
  /-- A condition that the instruction looks at again when it is retried. -/
  | retry
  deriving DecidableEq, Repr

/-- A trap that its strand has taken and not yet reported (R38, Table 14.2). -/
structure TrapInfo where
  cause : Cause
  /-- The code of a TRAP instruction or a cause (Table 4.17). -/
  code : Nat
  sub : Nat
  async : Bool
  epc : Nat
  tval : Word
  time : Nat
  deriving DecidableEq, Repr

/-- Why a strand is being saved (Table 2.1); a stop with its EPC and the instant at which it was raised (Table 14.2). -/
inductive SaveWhy where
  | preempt | capped | brk (code : Nat) (epc : Nat) (time : Nat) | watch (ptr : Word) (epc : Nat) (time : Nat)
  deriving DecidableEq, Repr

/-- A timed task's frame (R268-R271): its reservation, run frame's end, deadline, blocked allowance, blocked time so far and
whether it has lapsed. -/
structure Timing where
  rid : Nat
  frameEnd : Nat
  deadline : Nat
  wait : Nat
  used : Nat
  lapsed : Bool
  deriving DecidableEq, Repr

/-- A strand slot and the task in it (R22, R25). -/
structure Strand where
  st : SlotState := .free
  /-- A number of the task, of the model's own, by which operations under way know their issuer. -/
  task : Nat := 0
  ctx : Nat := 0
  asid : Nat := 0
  chan : Nat := 0
  seq : Nat := 0
  pc : BitVec 48 := 0
  sreg : Vector Word 64 := Vector.replicate 64 0
  vreg : Vector Vec 32 := Vector.replicate 32 0
  kreg : Vector (BitVec 16) 8 := Vector.replicate 8 0
  win : Vector Word 8 := Vector.replicate 8 0
  ereg : Vector (BitVec 32) 4 := Vector.replicate 4 0
  xi : BitVec 16 := 0
  fmt : BitVec 27 := 0
  strm : Vector Stream 8 := Vector.replicate 8 {}
  msgid : Word := 0
  budget : BitVec 32 := 0
  unb : Bool := false
  /-- The remainder held back when the scheduler has capped the budget (R42, R260). -/
  capped : Option (BitVec 32) := none
  cLd : Nat := 0
  cSt : Nat := 0
  cCp : Nat := 0
  cTl : Nat := 0
  spdisc : Bool := false
  timed : Bool := false
  /-- STATUS.TIMED: the task started from an entry with TIMED set (R80). -/
  fromTimed : Bool := false
  level : Nat := 0
  priv : Bool := false
  pub : Bool := false
  sub : Bool := false
  uns : Bool := false
  /-- The channel it publishes, or on which its port is attached. -/
  ichan : Nat := 0
  cause : Word := 0
  epc : Word := 0
  tval : Word := 0
  nS : Nat := 0
  nV : Nat := 0
  nK : Nat := 0
  watch : Vector Word 2 := Vector.replicate 2 0
  hor : Nat := 0
  flr : Nat := 0
  /-- The greatest read instant of the task's loads, which FENCE.acq takes F up to (R164). -/
  rdMax : Nat := 0
  /-- The greatest instants at which a command of DEVICE or SYSTEM scope counted in cp, and in tl, reported (R170). -/
  repCp : Nat := 0
  repTl : Nat := 0
  arrRec : Vector (Option (BitVec 16)) 32 := Vector.replicate 32 none
  sends : List Send := []
  /-- Its buffered sends have still to enter the send queues of the core to which it migrated (R435). -/
  entering : Bool := false
  faults : List Deferred := []
  /-- Registers that a reply which came too late after a migration was to fill (R45). -/
  lost : List Reg := []
  wait : Wait := .nothing
  /-- The translation being walked: ASID, space, virtual address; and the step at which it missed, by which walks wait in arrival
  order (R154). -/
  walk : Option (Nat × Nat × Nat) := none
  walkAt : Nat := 0
  /-- Pages of the ranges of its engine command that have been translated (R154, R372). -/
  walked : Nat := 0
  /-- INGCFG: the number at which it was issued, before which messages and other INGCFGs of its profile come, and that profile (R315). -/
  cfgFrom : Option (Nat × Nat) := none
  /-- The walk that found no translation: ASID, space, virtual address and PAGE subcode (R151, R153). -/
  walkFail : Option (Nat × Nat × Nat × Nat) := none
  trap : Option TrapInfo := none
  why : SaveWhy := .preempt
  /-- SAVING: the image taken for it, and the bytes of it that have been written (R282). -/
  saveTo : Option Nat := none
  savePos : Nat := 0
  /-- A pre-emption that PREEMPT has asked for, by the operation that waits for its outcome (R287). -/
  preempt : Option Nat := none
  /-- The encoding of the MIGRATE by which it left its core (R436). -/
  migWord : Word := 0
  timing : Option Timing := none
  /-- The instant at which the task entered its slot, and the place of that entry among all entries (R41; the model's own). -/
  started : Nat := 0
  startNo : Nat := 0
  /-- STARTING: core cycles still to go (Table 2.1). -/
  startLeft : Nat := 0
  /-- Posted host writes since the last flush (Table 8.1, SYSTEM). -/
  hostWrites : Bool := false
  /-- Whether it is a supervisor task started by a report (R277, R280). -/
  supervisor : Bool := false
  /-- Instructions of the stream that the strand has published or issued. -/
  issued : Nat := 0
  deriving DecidableEq, Repr

/-- A message in a core's receive store (R33), with what R268 and R286 keep with it. -/
structure Msg where
  chan : Nat
  seq : Nat
  pay : Vector Word 8
  msgid : Word
  /-- Its task is in a slot, or its bytes are being consumed by a stream. -/
  running : Bool := false
  /-- The save image of its pre-empted task (R35). -/
  image : Option Nat := none
  /-- The number of that task, by which its publication knows it, and the slot in which it was (R69, R281). -/
  task : Nat := 0
  slot : Nat := 0
  /-- The channel that task published or subscribed to (R69). -/
  ichan : Nat := 0
  /-- The task that a migration message carries (R44). -/
  mig : Option Strand := none
  /-- That task was saved while it waited in RESUB, which re-attaches its port (R63). -/
  resub : Bool := false
  /-- The channels that its saved task's stream registers bind with KIND 3 (R364). -/
  bound : List Nat := []
  /-- A task stopped by BRK or WATCH is not resumed until RETT (R367). -/
  stopped : Bool := false
  /-- Demoted to level 6 (R269, R271). -/
  demoted : Bool := false
  /-- Level 7 in its run frame: its reservation, run frame, deadline and blocked allowance (R268). -/
  timing : Option Timing := none
  /-- The instant before which it is held (R268). -/
  heldTill : Nat := 0
  /-- Aborts of its task by uncorrectable errors (R289). -/
  aborts : Nat := 0
  /-- Whether it is a supervisor report: CAUSE, EPC and TVAL are loaded from w1-w3 (R277). -/
  report : Bool := false
  /-- Whether it stands in one of the 192 shared entries (R33). -/
  shared : Bool := false
  /-- Its pre-empted task as it was saved: what its image does not hold keeps its value (R30, R83, R158). -/
  kept : Option Strand := none
  /-- The freshness floor with which its task starts: the read instant of the acquire that it observes (R163, R256). -/
  flr : Nat := 0
  deriving DecidableEq, Repr

/-- One access of an operation at one bank: the location's key, its bytes, the lane, the data to write, the byte enables, the
pointer as the instruction formed it, and what came of it. -/
structure Piece where
  key : Nat
  n : Nat
  lane : Nat := 0
  data : Nat := 0
  en : Nat := 0
  ptr : Word := 0
  done : Bool := false
  val : Nat := 0
  fault : Option (Cause × Nat × Word) := none
  /-- The step at which its bank performed it, its place in the order of applications (R159). -/
  at_ : Nat := 0
  /-- Served by a copy in its core's L1: it never left the core (R144, R156). -/
  hit : Bool := false
  /-- It has entered the queue of its scratchpad bank (R140). -/
  queued : Bool := false
  deriving DecidableEq, Repr

/-- The read-modify-write of AMO (R179). -/
inductive AmoOp where
  | add | and | or | xor | min | max | swap
  deriving DecidableEq, Repr

/-- What an operation under way does at its target. -/
inductive OpKind where
  | load (bytes : Nat) (signed : Bool)
  | loadVec (mask : BitVec 16)
  | gather (w : Nat) (mask : BitVec 16)
  | store
  | amo (op : AmoOp) (w : Nat) (b : Word)
  | cas (w : Nat) (old new : Word)
  | ufn (f : Nat) (a b : Word)
  | red (i64 : Bool) (v : Word)
  | waitc (cond : Nat) (b : Word) (registered : Bool) (retryAt : Nat)
  | qinit (cfg : Word)
  | qpush (size : Nat) (data : List Word) (kind : Nat) (rid : Option Nat)
  | qpop (size : Nat) (wait : Bool) (window : Nat) (retryAt : Nat)
  | qsteal (size : Nat)
  | qavail
  | permit (want : Nat)
  | pret (count : Nat)
  | pref (home : Bool)
  | mcast (bytes : Nat) (data : Nat)
  | copy | copym
  | join | leave | gsize
  | handler (mask : Bool) (data : BitVec 128)
  | tlbinv (sel : Word) (range : Word)
  /-- UFNCFG: the function's number, width and body; the units and cores that have switched stand in `members` (R501). -/
  | ufncfg (f : Nat) (wide : Bool) (body : List (BitVec 32))
  /-- Whether its port has a count to add (R51). -/
  | subscribe (add : Bool)
  | flush
  | sfu
  | mbtake
  | preempt
  | pwr (req : Word)
  | ctxsave
  deriving DecidableEq, Repr

/-- A contiguous part of a range of an engine command: its offset in the range, its length and the key of its first byte. -/
structure Seg where
  off : Nat
  len : Nat
  key : Nat
  deriving DecidableEq, Repr

/-- An operation that has left its instruction. -/
structure Op where
  id : Nat
  kind : OpKind
  core : Nat
  slot : Nat
  task : Nat
  ctx : Nat
  asid : Nat
  priv : Bool
  pc : Nat
  ctr : Option Ctr := none
  regs : List Reg := []
  acq : Option Scope := none
  pieces : List Piece := []
  /-- Its pointer or destination word, and further operand words. -/
  ptr : Word := 0
  args : List Word := []
  src : List Seg := []
  dst : List Seg := []
  /-- Bytes delivered so far (engine commands); the mesh cycle in which a queue operation arrived at its home (R193). -/
  pos : Nat := 0
  /-- Where a queue operation, a multicast, a RED or a copy stands: 0 on its way, 1 held in a Glover stage, 2 waiting at the home, 3
  served or serialised, 4 done, 5 arrived at the home, 9 cancelled (R375). -/
  phase : Nat := 0
  /-- The instant at which it entered that phase. -/
  since : Nat := 0
  /-- Members still to apply a multicast, and those that refused it, by rank (R173); the scalar registers that a QPOP.w is to
  write stand in `members`. -/
  todo : List Nat := []
  refused : List Nat := []
  members : List Nat := []
  /-- The greatest completion time and read instant so far (R162, R160). -/
  tc : Nat := 0
  rd : Nat := 0
  /-- Whether its instruction waits at it, in a short stall or blocked, until it is answered. -/
  pend : Bool := false
  /-- The values for its registers, once they are known. -/
  answer : Option (List Nat) := none
  fault : Option (Cause × Nat × Word) := none
  /-- The other strands whose counters count it (R65): core, slot, task. -/
  shared : List (Nat × Nat × Nat) := []
  /-- Whether a supervisor task issued it (R280). -/
  sup : Bool := false
  /-- An engine command: the task that forked it, the greatest t_c of that task's earlier accesses acknowledged so far, and whether
  its release at the fork has host writes still to flush (R164, R169). -/
  fork : Nat := 0
  hor : Nat := 0
  flush : Bool := false
  deriving DecidableEq, Repr

/-- A line of an L1 copy: the line's number, its bytes, its lease end and grant instant (R144, R160); the step of its grant, and by
byte the step at which a store merged into it was applied, so that bytes never go backwards in coherence order (R161). -/
structure L1Line where
  line : Nat
  bytes : List Byte
  leaseEnd : Nat
  grant : Nat
  no : Nat := 0
  stamps : AMap Nat := []
  deriving DecidableEq, Repr

/-- A translation: ASID, space, first virtual page, pages, first frame, permissions R, W, X and PRIV as bits 0-3 (R151). -/
structure Xlat where
  asid : Nat
  space : Nat
  page : Nat
  pages : Nat
  frame : Nat
  perm : Nat
  /-- A fragment of a page of 1 GiB, as a second-level cache holds it (R154, R487). -/
  big : Bool := false
  deriving DecidableEq, Repr

/-- An entry of a core's permit cache (R194, R268). -/
structure PermitEntry where
  ctx : Nat
  handle : Nat
  count : Nat
  expiry : Nat
  /-- Operations outstanding through it. -/
  busy : Nat
  /-- The reservation that has reserved it. -/
  reserved : Option Nat
  deriving DecidableEq, Repr

/-- A permit record at a home bank (R194), by the key of the object's descriptor line; a reservation's record has no expiry
(R267). -/
structure PermRec where
  line : Nat
  core : Nat
  ctx : Nat
  count : Nat
  expiry : Option Nat
  rid : Option Nat
  deriving DecidableEq, Repr

/-- A token entry of a mailbox (R248, R254). -/
structure TokenEntry where
  /-- 0 FREE, 1 COLLECTING, 2 COMBINING. -/
  st : Nat := 0
  token : Nat := 0
  puts : Nat := 0
  /-- Score, expert and key, best first. -/
  list : List (Nat × Nat × Nat) := []
  /-- COMBINING: the experts in list order and the received mask. -/
  experts : List Nat := []
  got : List Bool := []
  deriving DecidableEq, Repr

/-- A score mailbox (R246). -/
structure Mailbox where
  owner : Option Nat := none
  k : Nat := 0
  entries : List TokenEntry := List.replicate 64 {}
  deriving DecidableEq, Repr

/-- A forwarding entry of a core (R45): the task that left, where it went, until when. -/
structure Forward where
  task : Nat
  core : Nat
  chan : Nat
  till : Nat
  deriving DecidableEq, Repr

/-- A core (R22-R42). -/
structure Core where
  slots : Vector Strand 4 := Vector.replicate 4 {}
  /-- The slot at which the round robin looks first (R22). -/
  rr : Nat := 0
  /-- Strands that YIELD passes over, with the slots that must issue first (R523). -/
  yielded : List (Nat × List Nat) := []
  handlers : AMap (BitVec 128) := []
  rx : List Msg := []
  nextSeq : Nat := 0
  /-- Suspended channels (R278). -/
  suspended : List Nat := []
  /-- By channel: level reached by ageing and runnable microseconds since (R257). -/
  ages : AMap (Nat × Nat) := []
  l1 : List L1Line := []
  icache : List L1Line := []
  tlb : List Xlat := []
  /-- SPREG0-7 by context (R84). -/
  spregs : AMap (List Word) := []
  permits : List PermitEntry := []
  /-- Context, handle and kind, most recently used first (R198). -/
  kinds : List (Nat × Nat × Nat) := []
  mbox : Mailbox := {}
  pmc : Vector Word 8 := Vector.replicate 8 0
  pmsel : Vector (BitVec 8) 8 := Vector.replicate 8 0
  paircnt : Word := 0
  dupcnt : Word := 0
  halted : Bool := false
  /-- Reserved slot count R_c (R259). -/
  rsv : Nat := 0
  /-- The frame at whose start untimed strands were last capped (R260; the model's own). -/
  capFrame : Nat := 0
  retired : List Nat := []
  /-- Spare rows used, by slot x 4 + register class (R289). -/
  spares : AMap Nat := []
  fwd : List Forward := []
  /-- By virtual network: the packet that waits at its input for a free entry and holds it (R33, R248). -/
  held : AMap Nat := []
  /-- Contexts that have left the core (R285). -/
  away : List Nat := []
  /-- By row-queue header offset: the instant of the first unannounced row (R253). -/
  rings : AMap Nat := []
  /-- Bank queues by bank: operation and piece numbers in arrival order (R140). -/
  bankq : AMap (List (Nat × Nat)) := []
  deriving DecidableEq, Repr

/-- The states of a map identifier (Table 11.1). -/
inductive MapState where
  | free | matched | merged | saved | lost
  deriving DecidableEq, Repr

/-- A map of the Fuller (R227-R230): its issue state and its contents. -/
structure FMap where
  st : MapState := .free
  n : Nat := 0
  n' : Nat := 0
  depth : Nat := 0
  protect : Word := 0
  /-- MATCHED: token a of A, its best b and their similarity. -/
  best : List (Nat × Nat × Nat) := []
  sizes : List Nat := []
  dest : List Nat := []
  mark : Option (Cause × Word) := none
  deriving DecidableEq, Repr

/-- The work of a tile-queue entry. -/
inductive TileKind where
  | tload | tmma | tsmma | tzero | tstore | tmatch | tmerge | tmsize | tunmerge | tmapcomp | tmapsave | tmapload | reload
  deriving DecidableEq, Repr

/-- An entry of a cluster's tile queue (R211, R232). -/
structure TileOp where
  n : Nat
  kind : TileKind
  td : Nat
  ta : Nat
  tb : Nat
  args : List Word
  e : List Nat
  fmt : BitVec 27
  scaleA : Nat
  scaleB : Nat
  src : List Seg
  dst : List Seg
  /-- For each line, the k indices kept, with the position of each value in the line (R223). -/
  kept : List (List (Nat × Nat))
  core : Nat
  slot : Nat
  task : Nat
  ctx : Nat
  asid : Nat
  priv : Bool
  pc : Nat
  /-- Slots read and written, accumulators read and written, maps read and written. -/
  rdS : List Nat
  wrS : List Nat
  rdA : List Nat
  wrA : List Nat
  rdM : List Nat
  wrM : List Nat
  shared : List (Nat × Nat × Nat)
  /-- The greatest scope of its engine thread is DEVICE (R212). -/
  device : Bool
  /-- Bytes already delivered, and the latest completion time of its writes. -/
  pos : Nat
  tc : Nat
  /-- The map contents computed at issue or when performed. -/
  map : FMap
  /-- As in an engine command's operation (R164, R169, R280). -/
  sup : Bool := false
  fork : Nat := 0
  hor : Nat := 0
  /-- The late fault that has stopped it; it reports once its release is made (R170, R238, R495). -/
  fault : Option (Cause × Nat × Word) := none
  deriving DecidableEq, Repr

/-- A barrier (Table 9.3). -/
structure Barrier where
  phase : BitVec 16 := 0
  need : Nat := 0
  arr : Nat := 0
  count : Int := 0
  /-- The instant at which the last phase completed (R170). -/
  ended : Nat := 0
  deriving DecidableEq, Repr

/-- An SFU request (R273): the operation, its strand and its result. -/
structure SfuReq where
  op : Nat
  core : Nat
  slot : Nat
  task : Nat
  reg : Reg
  val : Nat
  flags : BitVec 5
  deriving DecidableEq, Repr

/-- A cluster (R202, R227, R187, R273, R309). -/
structure Cluster where
  slotOwner : AMap Nat := []
  accOwner : AMap Nat := []
  /-- Bytes of operand slots, by slot x 8,192 + byte. -/
  slotMem : AMap Byte := []
  scales : AMap (BitVec 32) := []
  marks : AMap (Cause × Word) := []
  /-- Words of accumulators, by accumulator x 4,096 + row x 64 + column. -/
  accMem : AMap (BitVec 32) := []
  tileq : List TileOp := []
  /-- The core of the cluster that the tile queue serves first, and the strands held at the full queue in the order in which they reached
  it: core, slot, task (R211). -/
  tilePtr : Nat := 0
  tileWant : List (Nat × Nat × Nat) := []
  /-- Maps by context x 32 + identifier. -/
  maps : AMap FMap := []
  /-- Reloads still to enter the tile queue, by context and identifier (R243). -/
  reloads : List (Nat × Nat) := []
  bars : AMap Barrier := []
  /-- Bytes delivered and still to be credited: the barrier, the bytes and the instant before which the release of their engine holds the
  credit back, in arrival order (R170, R189). -/
  credits : List (Nat × Nat × Nat) := []
  sfuq : List SfuReq := []
  /-- Requests not yet accepted, in issue order. -/
  sfuWait : List SfuReq := []
  sfuPtr : Nat := 0
  /-- The SFU has accepted a request in this core cycle (R273). -/
  sfuBusy : Bool := false
  /-- Clock, governor choice (x 100 MHz), pin with the context that set it, reservation floor, thermal trip (R309-R313). -/
  freq : Nat := 9
  gov : Int := 9
  /-- Stall cycles, and READY and STALLED cycles, of the governor's window (R310). -/
  stalls : Nat := 0
  busy : Nat := 0
  pin : Option (Nat × Nat) := none
  floor : Nat := 9
  tripped : Bool := false
  /-- The 10 us window that the governor sampled last (R310). -/
  sampled : Nat := 0
  /-- A change under way: the new clock (R311). -/
  change : Option Nat := none
  /-- A lock-domain switch under way (R56). -/
  lockSwitch : Option Nat := none
  /-- Pops held in the router's Glover stage, oldest first (R198). -/
  glover : List Nat := []
  deriving DecidableEq, Repr

/-- A launch of the launch unit (R256, R262). -/
structure Launch where
  id : Nat
  /-- 0 the record is to be read, 1 waiting for the fence, 2 posting. -/
  phase : Nat
  core : Nat
  slot : Nat
  chan : Nat
  ctx : Nat
  asid : Nat
  pc : Nat
  host : Bool
  msgid : Word
  seq : Nat
  c0 : Nat
  nc : Nat
  peer : Option Nat
  record : Word
  gx : Nat
  gy : Nat
  gz : Nat
  next : Nat
  args : List Word
  since : Nat
  timeout : Nat
  fence : Word
  target : Word
  dims : Word
  status : Word
  maxTasks : Nat
  delivered : Nat
  sup : Bool := false
  /-- The value with which its fence monitor has been met; the instant of the next reading where the table was full (R186, R256). -/
  met : Option Nat := none
  retryAt : Nat := 0
  /-- The instant at which its fence was met, the read instant of its acquire (R174, R256). -/
  metAt : Nat := 0
  deriving DecidableEq, Repr

/-- A profile of an ingest chain (R314): its owner, and for each stage its configuration and loaded table. -/
structure Profile where
  owner : Nat
  inflate : Option (Nat × Nat)
  /-- CHARSET, STRICT and the loaded table. -/
  transcode : Option (Nat × Bool × List Nat)
  /-- Merge entries, left and right. -/
  tokenise : Option (List (Nat × Nat))
  deriving DecidableEq, Repr

/-- A message in an ingest chain (R317-R324). -/
structure Ingest where
  ticket : Nat
  /-- 0 in the input queue, 1 in the stages, 3 stopped by a cause, 4 its rows pushed. -/
  stage : Nat
  /-- The submitting task and the number of its command, by which the release at the fork is known (R169). -/
  task : Nat
  fork : Nat
  core : Nat
  ctx : Nat
  asid : Nat
  priv : Bool
  src : Word
  len : Nat
  tag : Nat
  outq : Word
  quarq : Word
  doneP : Word
  outmax : Nat
  timeout : Nat
  profile : Nat
  skipInflate : Bool
  skipTranscode : Bool
  /-- Source bytes read so far; bytes that inflate has put out; the bytes in the queues before transcode and before tokenise; the character
  set, once its text has begun; and which stages are done with it (R318, R323). -/
  raw : List Byte := []
  put : Nat := 0
  q1 : List Byte := []
  q2 : List Byte := []
  cs : Option Nat := none
  inDone : Bool := false
  trDone : Bool := false
  tkDone : Bool := false
  /-- Token ids not yet pushed in a row; ids pushed. -/
  ids : List Nat := []
  emitted : Nat
  /-- Rows pushed so far; permits held on OUTQ; the instant of the first refusal of permits. -/
  rows : Nat
  permits : Nat
  waitFrom : Option Nat
  retryAt : Nat
  /-- Nanoseconds of stage work so far (R323), and the cause of Table 16.5 that stopped it, 0 for none. -/
  work : Nat
  cause : Nat
  /-- The stage that met it (Table 16.6), and its instant. -/
  failed : Nat
  causeTime : Nat
  /-- The latest completion time of its rows and record (R170). -/
  tc : Nat
  /-- As in an engine command's operation (R169). -/
  hor : Nat := 0
  deriving DecidableEq, Repr

/-- A die (R258, R306, R314). -/
structure Die where
  /-- BOOTSTAT: the stage of Table 15.4 in progress, or a failure code. -/
  boot : Nat := 1
  lost : Bool := false
  tailorcfg : Word := 50
  errcount : Word := 0
  launches : List Launch := []
  profiles : AMap Profile := []
  ingest : List Ingest := []
  tickets : Nat := 0
  /-- Re-admitted after a loss: its lines are poisoned until they are written whole (R294). -/
  wiped : Bool := false
  /-- Reset by DIERESET since it was lost: once through bring-up it is re-admitted (R307). -/
  wasReset : Bool := false
  deriving DecidableEq, Repr

/-- A port of the Ocotte Link: PORTSTAT, the instants of its training failures and failed resends in a row (R295-R301). -/
structure Port where
  stat : Word := 0
  fails : List Nat := []
  resends : Nat := 0
  /-- The raw lanes that meet the error target now (R301). -/
  lanes : Nat := 0
  /-- The raw lanes of the group in use (R295, R301). -/
  inUse : Nat := 0
  /-- The instant at which it entered its state. -/
  since : Nat := 0
  deriving DecidableEq, Repr

/-- What a publisher's instruction carries to its subscribers (R53, R58, R59). -/
structure Pub where
  instr : Instr
  pc : Nat
  len : Nat
  /-- Whether its control transfer was taken, the PC after it, and FMT and e0-e3 as it left them. -/
  taken : Bool
  next : Nat
  fmt : BitVec 27
  ereg : Vector (BitVec 32) 4
  /-- Its place in the stream. -/
  pos : Nat
  deriving DecidableEq, Repr

/-- A port of an instruction channel (R49-R55). -/
structure IPort where
  core : Nat
  slot : Nat
  task : Nat
  /-- Registered at the home (R51). -/
  registered : Bool := false
  /-- It has joined the stream: the place of the first instruction that it takes, and that instruction's PC (R51, R64, R69). -/
  joined : Bool := false
  joinedAt : Nat := 0
  nextPc : Nat := 0
  /-- Unsubscribed: it only watches for markers (R62). -/
  uns : Bool := false
  /-- Instructions sent and not yet arrived, and those arrived and not yet issued. -/
  flight : List Pub := []
  buf : List Pub := []
  issued : Nat := 0
  /-- The count its last report gave (R55). -/
  reported : Nat := 0
  deriving DecidableEq, Repr

/-- The states of an instruction channel (Table 3.1). -/
inductive ChanState where
  | free | registered | published | ending
  deriving DecidableEq, Repr

/-- An instruction channel (R48). -/
structure IChan where
  st : ChanState := .free
  owner : Nat := 0
  /-- The publisher: core, slot, task. -/
  pub : Option (Nat × Nat × Nat) := none
  ports : List IPort := []
  published : Nat := 0
  /-- The publisher's current instruction has passed its checks and is published, and waits (R96). -/
  early : Bool := false
  /-- Why it is ENDING: 0 END, 1 UNPUBLISH, 2 trap or abort with the publisher's faulting PC. -/
  ended : Nat × Nat := (0, 0)
  deriving DecidableEq, Repr

/-- An elected instruction of a channel in a cluster (R64-R66). -/
structure Elect where
  chan : Nat
  pos : Nat
  cluster : Nat
  issuer : Nat × Nat
  failed : Bool
  /-- The counter it rises in, the operation or tile entry, and whether that is done. -/
  ctr : Option Ctr
  op : Nat
  done : Bool
  deriving DecidableEq, Repr

/-- A packet in the network (R33, R299). -/
inductive Body where
  | message (chan : Nat) (pay : Vector Word 8) (host : Bool) (srcdev srccore : Nat) (report : Bool) (timing : Option Timing)
      (heldTill : Nat)
  | migration (chan : Nat) (task : Strand) (left : Nat)
  | put (ctx : Nat) (sa sb : Word)
  /-- A row before it is read: tag word, destination word, row pointer. -/
  | rowRead (ctx asid : Nat) (priv : Bool) (tag dst ptr : Word) (segs : List Seg)
  | row (ctx asid : Nat) (priv : Bool) (tag dst : Word) (bytes : List Byte) (rank : Option Nat)
  /-- A packet for another device, with the number of the launch that counts it, or 0, and what its MSGID says of its origin: HOST and
  SRCCORE (R528). -/
  | peer (dev core chan : Nat) (pay : Vector Word 8) (launch : Nat) (host : Bool) (srccore : Nat)
  deriving DecidableEq, Repr

/-- A packet with its number, source and target core and virtual network (R33). -/
structure Packet where
  pid : Nat
  src : Nat
  dst : Nat
  net : Nat
  body : Body
  since : Nat
  /-- The slot of its source core whose send queue it holds an entry of until it is delivered (R37, R526). -/
  holds : Option Nat
  /-- The read instant of the acquire that its task observes, 0 for none (R256). -/
  acq : Nat := 0
  deriving DecidableEq, Repr

/-- A monitor: the operation of a WAITC that waits at a bank (R185). -/
structure Monitor where
  op : Nat
  key : Nat
  cond : Nat
  cmp : Word
  deriving DecidableEq, Repr

/-- A slot of a reduction line (R182): contributing core, its elements by index, and the contexts that contributed, which own it
(R288). -/
structure RedSlot where
  core : Nat
  elems : AMap Word
  ctxs : List Nat
  deriving DecidableEq, Repr

/-- A reduction line that has slots (R182). -/
structure RedLine where
  line : Nat
  i64 : Bool
  slots : List RedSlot
  deriving DecidableEq, Repr

/-- An installed update function (R180): its width and 16 words. -/
structure UpdateFn where
  wide : Bool
  body : List (BitVec 32)
  deriving DecidableEq, Repr

/-- What a report is of (R277-R281). -/
inductive ReportKind where
  | trap | stop | wide
  deriving DecidableEq, Repr

/-- An outstanding report (R467): its id, where its message stands and, for a wide one, the channels it suspended. -/
structure Report where
  id : Word
  kind : ReportKind
  core : Nat
  chan : Nat
  seq : Nat
  ctx : Nat
  channels : List (Nat × Nat)
  deriving DecidableEq, Repr

/-- A reservation of the Tailor (R263-R272). -/
structure Resv where
  rid : Nat
  /-- 0 PENDING, 1 ACTIVE, 2 ENDING. -/
  st : Nat
  ctx : Nat
  asid : Nat
  host : Bool
  core : Nat
  cls : Nat
  period : Nat
  tasks : Nat
  floor : Nat
  chan : Nat
  ncores : Nat
  first : Nat
  budget : Nat
  deadline : Nat
  permn : Nat
  permq : Word
  wait : Nat
  release : Nat
  status : Word
  args : List Word
  /-- The arrival or release from which run frames and deadlines count (Table 13.4). -/
  from_ : Nat := 0
  /-- First run frame; next frame to post; while PENDING the last frame that the ring reached as the record was read, and while ENDING the
  frame at whose end it is freed (R264, R267, R272). -/
  frame : Nat
  nextFrame : Nat
  endFrame : Nat
  /-- Permits in the pool (R268). -/
  pool : Nat
  /-- While PENDING, the step of R267 that has begun last: 1 floors, 2 drains, 4 entries and permits. -/
  step : Nat := 0
  /-- The frame at whose start permits that pushes consumed are taken back next (R268). -/
  refill : Nat := 0
  deriving DecidableEq, Repr

/-- A timed record committed and not yet read (R263). -/
structure TimedJob where
  id : Nat
  core : Nat
  slot : Nat
  chan : Nat
  ctx : Nat
  asid : Nat
  pc : Nat
  host : Bool
  msgid : Word
  seq : Nat
  record : Word
  /-- Its commit, the arrival of a T1 launch (Table 13.4). -/
  since : Nat
  sup : Bool := false
  /-- The reservation that it has made PENDING (R267). -/
  pending : Option Nat := none
  deriving DecidableEq, Repr

/-- A context's entries outside its record: TDIES (R292), the map-keep flag (R80), save images in use (R282). -/
structure Ctx where
  tdies : BitVec 4 := 0
  mapkeep : Bool := false
  images : List Nat := []
  deriving DecidableEq, Repr

/-- The place of an error: a unit at a router by its cluster's raw coordinates, its number there and what of it; another unit; a thermal
sensor by its raw coordinates; an HBM4E line by its raw stack and pseudo-channel (R14, Table 1.3). -/
inductive ErrPlace where
  | mesh (px py unit loc : Nat)
  | unit (site loc : Nat)
  | sensor (px py : Nat)
  | hbm (stack channel : Nat)
  deriving DecidableEq, Repr

/-- An entry of the error log (R308): DEVTIME, die, row of Table 14.6, raw location, corrected. -/
structure ErrEntry where
  time : Nat
  die : Nat
  row : Nat
  loc : ErrPlace
  corrected : Bool
  deriving DecidableEq, Repr

/-- The thing that takes an event: the core or unit and the numbers and data of the event's row. The fields of the row's
operands: an operation or packet number or a core in `a`, a slot, bank or further number in `b` and `c`, data in `d`. -/
structure Subject where
  a : Nat := 0
  b : Nat := 0
  c : Nat := 0
  d : BitVec 1024 := 0
  deriving DecidableEq, Repr

/-- What became of the last instruction (the model's own field). -/
inductive Last where
  /-- Nothing, or an event. -/
  | none
  /-- It completed. -/
  | completed
  /-- It completed and its control transfer was taken. -/
  | branched
  /-- It waits in a short stall or blocked. -/
  | waiting
  /-- Its strand trapped. -/
  | trapped
  /-- Its strand left the slot. -/
  | left
  deriving DecidableEq, Repr

/-- The module. -/
structure State where
  /-- The strand whose instruction `exec` runs: core and slot (the model's own). -/
  cur : Nat × Nat := (0, 0)
  /-- The thing whose step an event is (the model's own). -/
  subj : Subject := {}
  /-- Inputs from outside the module still to come: after how many steps, and what (the model's own). -/
  agenda : List (Nat × Instr × Subject) := []
  /-- The step counter that free values are applied to (the model's own). -/
  tick : Nat := 0
  /-- The result of the last instruction (the model's own). -/
  last : Last := .none
  /-- The next number for an operation, packet, task or entry (the model's own). -/
  nextId : Nat := 1
  /-- Memory: HBM by physical address; scratchpads from 2^40; host memory from 2^48. Unlisted bytes read 0. -/
  mem : List Host.Cell := []
  /-- Units by the key of their first byte: the poisoned ones, and on a re-admitted die the lines that are not (R291, R294). -/
  poison : List Nat := []
  devtime : Nat := 0
  cores : AMap Core := []
  clusters : AMap Cluster := []
  dies : AMap Die := []
  ports : AMap Port := []
  ctxs : AMap Ctx := []
  asids : AMap (BitVec 256) := []
  /-- Export table: ASID and enable, by device (R152). -/
  exports : AMap (Nat × Bool) := []
  /-- Generations of translations held by peers, and the peers that hold them (R157). -/
  gens : List (Xlat × Nat × List Nat) := []
  tlb2 : List Xlat := []
  rtlb : List (Nat × Xlat × Nat) := []
  chans : AMap IChan := []
  elects : List Elect := []
  /-- Members by context x 4,096 + group (R43). -/
  groups : AMap (List Nat) := []
  ops : List Op := []
  net : List Packet := []
  /-- Latest lease end by line number (R144). -/
  leases : AMap Nat := []
  /-- Lines that a PREF has asked their home banks for, each with the core and the context that asked (R147, R156, R292), and lines held by
  their home bank (R527). -/
  fills : List (Nat × Nat × Nat) := []
  homeLines : List Nat := []
  monitors : List Monitor := []
  redLines : List RedLine := []
  permRecs : List PermRec := []
  /-- Contexts that own queue objects, by the key of the descriptor line: those that initialised them (R288, R292; log 92). -/
  queueOwners : AMap Nat := []
  ufns : AMap UpdateFn := []
  reports : List Report := []
  /-- Entries written to the host report ring since reset (R280), and MSI-X vectors raised. -/
  ringHead : Nat := 0
  hostRing : List (List Word) := []
  msi : List Nat := []
  resvs : List Resv := []
  timedJobs : List TimedJob := []
  fabid : BitVec 12 := 0
  modReady : Bool := false
  ctxtable : Word := 0
  ringBase : Word := 0
  ringSize : Word := 0
  errBase : Word := 0
  errSize : Word := 0
  errlog : List ErrEntry := []
  /-- Route tables: a mask of the 16 ports by 4,096 x die of the gateway + device (R302). -/
  routes : AMap (BitVec 16) := []
  /-- Engine commands whose next access finds no READY port, by number: since when (R303). -/
  portWaits : AMap Nat := []
  /-- Accesses and packets that find no READY port, by number: since when (R303). -/
  linkWaits : List (Nat × Nat) := []
  deriving DecidableEq, Repr

/-- The module right after reset (R306): every die in bring-up stage 1, DEVTIME 0, nothing in any slot, no message, no
operation, no translation; memory with nothing listed. -/
def State.reset : State := {}

end Sys2Proof.Machine
end

