-- ==== Sys2Proof/Machine/Ops.lean ====
section
/-!
DEFINITION. The named operations over the machine: where cores, strands and clusters stand, registers, memory bytes, the
counters, the order of an instruction's checks, how an instruction ends, taking a trap and releasing a report.
-/

namespace Sys2Proof.Machine

open Sys2Proof

/-! ## Where things stand -/

/-- The die of a core (R13). -/
def dieOf (c : Nat) : Nat := c / 2048

/-- The global cluster of a core (R13). -/
def clusterOf (c : Nat) : Nat := c / 16

/-- Whether the logical x axis of a die runs opposite to the raw one, and its rotation in quarter turns: DIEORIENT.MIRROR and ROT
(Tables 1.1, 1.2). -/
def dieMirror (d : Nat) : Bool := d % 2 == 1
def dieRot (d : Nat) : Nat := d % 4

/-- The column of a raw or logical column of a die, in the other numbering (R12, Table 1.3). -/
def flipX (d x : Nat) : Nat := if dieMirror d then 7 - x else x

/-- The global cluster at raw coordinates of a die (R12, R13). -/
def rawCluster (d px py : Nat) : Nat := d * 128 + py * 8 + flipX d px

/-- A core of the module. -/
def State.core (s : State) (c : Nat) : Core := mapGet {} s.cores c

/-- The module with a core replaced. -/
def State.setCore (s : State) (c : Nat) (k : Core) : State := { s with cores := mapSet s.cores c k }

/-- The module with a core changed. -/
def State.onCore (s : State) (c : Nat) (f : Core → Core) : State := s.setCore c (f (s.core c))

/-- A strand slot of a core. -/
def Core.slot (k : Core) (i : Nat) : Strand := (k.slots[i]?).getD {}

/-- A core with a strand slot replaced. -/
def Core.setSlot (k : Core) (i : Nat) (t : Strand) : Core := { k with slots := k.slots.setIfInBounds i t }

/-- A strand slot of the module. -/
def State.slot (s : State) (c i : Nat) : Strand := (s.core c).slot i

/-- The module with a strand slot replaced. -/
def State.setSlot (s : State) (c i : Nat) (t : Strand) : State := s.onCore c (fun k => k.setSlot i t)

/-- The strand whose instruction runs. -/
def State.me (s : State) : Strand := s.slot s.cur.1 s.cur.2

/-- The module with the running strand replaced. -/
def State.setMe (s : State) (t : Strand) : State := s.setSlot s.cur.1 s.cur.2 t

/-- The module with the running strand changed. -/
def State.onMe (s : State) (f : Strand → Strand) : State := s.setMe (f s.me)

/-- The core of the running strand. -/
def State.myCore (s : State) : Core := s.core s.cur.1

/-- A cluster of the module. -/
def State.cluster (s : State) (g : Nat) : Cluster := mapGet {} s.clusters g

/-- The module with a cluster changed. -/
def State.onCluster (s : State) (g : Nat) (f : Cluster → Cluster) : State :=
  { s with clusters := mapSet s.clusters g (f (s.cluster g)) }

/-- The cluster of the running strand. -/
def State.myCluster (s : State) : Nat := clusterOf s.cur.1

/-- A die of the module. -/
def State.die (s : State) (d : Nat) : Die := mapGet {} s.dies d

/-- The module with a die changed. -/
def State.onDie (s : State) (d : Nat) (f : Die → Die) : State := { s with dies := mapSet s.dies d (f (s.die d)) }

/-- A context's entries outside its record. -/
def State.ctx (s : State) (x : Nat) : Ctx := mapGet {} s.ctxs x

/-- The module with a context's entries changed. -/
def State.onCtx (s : State) (x : Nat) (f : Ctx → Ctx) : State := { s with ctxs := mapSet s.ctxs x (f (s.ctx x)) }

/-- An instruction channel. -/
def State.chan (s : State) (c : Nat) : IChan := mapGet {} s.chans c

/-- The module with an instruction channel changed. -/
def State.onChan (s : State) (c : Nat) (f : IChan → IChan) : State := { s with chans := mapSet s.chans c (f (s.chan c)) }

/-- A fresh number for an operation, a packet, a task or an entry. -/
def State.fresh (s : State) : State := { s with nextId := s.nextId + 1 }

/-! ## Bit fields of numbers and words -/

/-- Bits [h:l] of a word as a number (R1). -/
def bits (w : Word) (h l : Nat) : Nat := w.toNat / 2 ^ l % 2 ^ (h + 1 - l)

/-- Bits [h:l] of a number. -/
def nbits (n h l : Nat) : Nat := n / 2 ^ l % 2 ^ (h + 1 - l)

/-- A number as a 64-bit word, modulo 2^64. -/
def word (n : Nat) : Word := BitVec.ofNat 64 n

/-- An integer as a 64-bit word, modulo 2^64. -/
def wordZ (z : Int) : Word := BitVec.ofInt 64 z

/-- The low `w` bits of a number read as a signed number (Table 0.2). -/
def signExt (n w : Nat) : Int := if n % 2 ^ w < 2 ^ (w - 1) then (n % 2 ^ w : Nat) else (n % 2 ^ w : Nat) - (2 ^ w : Nat)

/-- The encoding of an instruction, zero-extended, as TVAL of ILLOP and PRIV holds it (Table 4.17). -/
def instrWord (i : Instr) : Word := match encode i with | some (_, v) => word v | none => 0

/-! ## Memory bytes -/

/-- A byte of memory by its key; an unlisted byte reads 0 (log 1). -/
def readByte (s : State) (k : Nat) : Byte := mapGet 0 s.mem k

/-- The memory with a byte written, in canonical form: rising keys, no entry that reads as an unlisted byte. -/
def setByte (m : List Host.Cell) (k : Nat) (b : Byte) : List Host.Cell := if b = 0 then mapDel m k else mapSet m k b

/-- The canonical form of memory. -/
def memWf (m : List Host.Cell) : Bool := mapWf m && m.all (fun p => p.2 != 0)

/-- The module with a byte of memory written. -/
def writeByte (s : State) (k : Nat) (b : Byte) : State := { s with mem := setByte s.mem k b }

/-- `n` bytes of memory from a key up. -/
def readBytes (s : State) (k : Nat) : Nat → List Byte
  | 0 => []
  | n + 1 => readByte s k :: readBytes s (k + 1) n

/-- A little-endian number of `n` bytes of memory (R1). -/
def readNat (s : State) (k : Nat) : Nat → Nat
  | 0 => 0
  | n + 1 => (readByte s k).toNat + 256 * readNat s (k + 1) n

/-- Bytes written from a key up. -/
def writeBytes (s : State) (k : Nat) : List Byte → State
  | [] => s
  | b :: t => writeBytes (writeByte s k b) (k + 1) t

/-- The low `n` bytes of a number written from a key up, where the enables have the byte's bit. -/
def writeNat (s : State) (k : Nat) (data en : Nat) : Nat → State
  | 0 => s
  | n + 1 => writeNat (if en % 2 = 1 then writeByte s k (BitVec.ofNat 8 data) else s) (k + 1) (data / 256) (en / 2) n

/-! ## Registers -/

/-- A scalar register; s0 reads zero (R24, R74). -/
def Strand.s (t : Strand) (i : Nat) : Word := if i = 0 then 0 else (t.sreg[i]?).getD 0

/-- A scalar register written; a write to s0 is discarded (R74). -/
def Strand.setS (t : Strand) (i : Nat) (v : Word) : Strand :=
  if i = 0 then t else { t with sreg := t.sreg.setIfInBounds i v }

/-- A vector register. -/
def Strand.v (t : Strand) (i : Nat) : Vec := (t.vreg[i]?).getD 0

/-- A vector register written. -/
def Strand.setV (t : Strand) (i : Nat) (v : Vec) : Strand := { t with vreg := t.vreg.setIfInBounds i v }

/-- A mask register; k0 reads all ones (R24, R74). -/
def Strand.k (t : Strand) (i : Nat) : BitVec 16 := if i = 0 then 0xFFFF else (t.kreg[i]?).getD 0

/-- A mask register written; a write to k0 is discarded (R74). -/
def Strand.setK (t : Strand) (i : Nat) (v : BitVec 16) : Strand :=
  if i = 0 then t else { t with kreg := t.kreg.setIfInBounds i v }

/-- A register written with a number, modulo its width. -/
def Strand.setReg (t : Strand) (r : Reg) (v : Nat) : Strand :=
  match r with
  | .s i => t.setS i (word v)
  | .v i => t.setV i (BitVec.ofNat 128 v)
  | .k i => t.setK i (BitVec.ofNat 16 v)

/-- Registers written with numbers, one after the other. -/
def Strand.setRegs (t : Strand) : List Reg → List Nat → Strand
  | r :: rs, v :: vs => (t.setReg r v).setRegs rs vs
  | _, _ => t

/-- An extension register (R89). -/
def Strand.e (t : Strand) (i : Nat) : BitVec 32 := (t.ereg[i]?).getD 0

/-- A stream register (R148). -/
def Strand.q (t : Strand) (i : Nat) : Stream := (t.strm[i]?).getD {}

/-- A stream register replaced. -/
def Strand.setQ (t : Strand) (i : Nat) (q : Stream) : Strand := { t with strm := t.strm.setIfInBounds i q }

/-- The index that a field names: the field, plus xi where it is relative (R75). -/
def Strand.idx (t : Strand) (f : Nat) (rel : Bool) : Int := (f : Int) + if rel then t.xi.toInt else 0

/-- The register that a field names, once its index has been checked. -/
def Strand.reg (t : Strand) (f : Nat) (rel : Bool) : Nat := (t.idx f rel).toNat

/-- The value of the scalar register that a field names. -/
def Strand.rs (t : Strand) (f : BitVec 5) (rel : Bool) : Word := t.s (t.reg f.toNat rel)

/-- Strand with the scalar register that a field names written. -/
def Strand.ws (t : Strand) (f : BitVec 5) (rel : Bool) (v : Word) : Strand := t.setS (t.reg f.toNat rel) v

/-! ## Counters -/

/-- The value of a counter (R77). -/
def Strand.ctr (t : Strand) : Ctr → Nat
  | .ld => t.cLd
  | .st => t.cSt
  | .cp => t.cCp
  | .tl => t.cTl

/-- A counter that has risen by one (R77). -/
def Strand.rise (t : Strand) : Ctr → Strand
  | .ld => { t with cLd := t.cLd + 1 }
  | .st => { t with cSt := t.cSt + 1 }
  | .cp => { t with cCp := t.cCp + 1 }
  | .tl => { t with cTl := t.cTl + 1 }

/-- A counter that has fallen by one (R77). -/
def Strand.fall (t : Strand) : Ctr → Strand
  | .ld => { t with cLd := t.cLd - 1 }
  | .st => { t with cSt := t.cSt - 1 }
  | .cp => { t with cCp := t.cCp - 1 }
  | .tl => { t with cTl := t.cTl - 1 }

/-- The strand with a counter risen, where there is one. -/
def Strand.rise? (t : Strand) (c : Option Ctr) : Strand := match c with | some x => t.rise x | none => t

/-- The strand with a counter fallen, where there is one. -/
def Strand.fall? (t : Strand) (c : Option Ctr) : Strand := match c with | some x => t.fall x | none => t

/-- The slot in which a task stands, if one holds it. -/
def findSlot (s : State) (task : Nat) : AMap Core → Option (Nat × Nat)
  | [] => none
  | (c, k) :: t =>
    match (List.range 4).find? (fun i => (k.slot i).task == task && (k.slot i).st != .free) with
    | some i => some (c, i)
    | none => findSlot s task t

/-- The slot in which a task stands, anywhere in the module. -/
def State.taskSlot (s : State) (task : Nat) : Option (Nat × Nat) := findSlot s task s.cores

/-- The module with the strand of a task changed, if a slot still holds the task (R281). -/
def State.onTask (s : State) (task : Nat) (f : Strand → Strand) : State :=
  match s.taskSlot task with
  | some (c, i) => s.setSlot c i (f (s.slot c i))
  | none => s

/-! ## How an instruction ends -/

/-- What an instruction comes to: it completes and execution goes on after it or at a target, it traps, it waits in a short
stall or blocked, or its strand has left the slot. -/
inductive Res where
  | ok (s : State)
  | jump (s : State) (target : Nat)
  | trap (s : State) (c : Cause) (sub : Nat) (tval : Word)
  | stall (s : State) (w : Wait)
  | block (s : State) (w : Wait)
  | gone (s : State)

/-- A strand at a PC, after an instruction that waited for nothing. -/
def Strand.goAt (t : Strand) (pc : BitVec 48) : Strand := { t with pc := pc, wait := .nothing, walkFail := none, walked := 0, cfgFrom := none }

/-- A strand that waits, STALLED or BLOCKED, at its instruction (R39, R40). -/
def Strand.waitIn (t : Strand) (st : SlotState) (w : Wait) : Strand := { t with st := st, wait := w }

/-- A strand that has trapped, with what its report will hold. -/
def Strand.trapTo (t : Strand) (x : TrapInfo) : Strand :=
  { t with st := .trapping, wait := .nothing, walk := none, walkFail := none, preempt := none, trap := some x }

/-- The module with what became of the last instruction. -/
def State.withLast (s : State) (l : Last) : State := { s with last := l }

/-- The module after the pending pre-emption of the running strand, if there is one, has come to nothing: PREEMPT sees outcome 0
(R275, R287). -/
def State.refusePreempt (s : State) : State :=
  match s.me.preempt with
  | some id => { s with ops := s.ops.map (fun o => if o.id = id then { o with answer := some [0] } else o) }
  | none => s

/-- Taking a trap (R25, R38): the strand enters TRAPPING with what its report will hold: cause, subcode, EPC at its PC, TVAL
and the instant. A trap cancels a pending pre-emption of its strand (R275), which PREEMPT then sees as outcome 0 (R287). Its
sends, its message and its report are dealt with once its engines have drained (`reportTrap`). -/
def takeTrap (s : State) (c : Cause) (code sub : Nat) (tval : Word) : State :=
  (s.refusePreempt.onMe (fun t => t.trapTo { cause := c, code := code, sub := sub, async := false, epc := t.pc.toNat, tval := tval,
                                             time := s.devtime })).withLast .trapped

/-- The numbers of Table 4.17. -/
def causeCode : Cause → Nat
  | .illop => 0x01
  | .priv => 0x02
  | .regbound => 0x03
  | .align => 0x04
  | .space => 0x05
  | .bound => 0x06
  | .page => 0x07
  | .prot => 0x08
  | .poison => 0x09
  | .sqfull => 0x0A
  | .budget => 0x0B
  | .metabad => 0x0C
  | .slot => 0x0D
  | .maplost => 0x0E
  | .mapbad => 0x0F
  | .mcastpart => 0x10
  | .dielost => 0x11
  | .rtfull => 0x12
  | .suberr => 0x13
  | .brk => 0x14
  | .watch => 0x15
  | .fpx => 0x16
  | .ecall => 0x17
  | .remote => 0x18
  | .deadline => 0x19
  | .permit => 0x1A
  | .fenced => 0x1B
  | .stalexlat => 0x1C

/-- The end of an instruction of `len` bytes: completed, it leaves the PC after it or at its target; trapped, the strand
traps; waiting, the strand is STALLED or BLOCKED at the instruction, which restarts whole (R39, R40). -/
def finish (len : Nat) (r : Res) : Host.Outcome State Fault Refusal :=
  match r with
  | .ok s => .next ((s.onMe (fun t => t.goAt (t.pc + BitVec.ofNat 48 len))).withLast .completed)
  | .jump s target => .next ((s.onMe (fun t => t.goAt (BitVec.ofNat 48 target))).withLast .branched)
  | .trap s c sub tval => .next (takeTrap s c (causeCode c) sub tval)
  | .stall s w => .next ((s.onMe (fun t => t.waitIn .stalled w)).withLast .waiting)
  | .block s w => .next ((s.onMe (fun t => t.waitIn .blocked w)).withLast .waiting)
  | .gone s => .next (s.withLast .left)

/-- The end of an event: the module after it. -/
def event (s : State) : Host.Outcome State Fault Refusal := .next s

/-! ## The checks before an instruction's own (R96 steps 3 and 4) and its register waits -/

/-- A register that an instruction names: its class (0 scalar, 1 vector, 2 mask), its computed index, and whether the
instruction reads and writes it. -/
structure Use where
  cls : Nat
  idx : Int
  rd : Bool
  wr : Bool
  deriving DecidableEq, Repr

/-- A use of the register itself. -/
def Use.reg (u : Use) : Reg := match u.cls with | 0 => .s u.idx.toNat | 1 => .v u.idx.toNat | _ => .k u.idx.toNat

/-- Whether a use lies within the allotment (R24). -/
def Use.inAllot (t : Strand) (u : Use) : Bool :=
  decide (0 ≤ u.idx) && decide (u.idx < (match u.cls with | 0 => t.nS | 1 => t.nV | _ => t.nK))

/-- A scalar register read. -/
def rdS (t : Strand) (f : BitVec 5) (rel : Bool) : Use := ⟨0, t.idx f.toNat rel, true, false⟩
/-- A scalar register written. -/
def wrS (t : Strand) (f : BitVec 5) (rel : Bool) : Use := ⟨0, t.idx f.toNat rel, false, true⟩
/-- A scalar register read and written. -/
def rwS (t : Strand) (f : BitVec 5) (rel : Bool) : Use := ⟨0, t.idx f.toNat rel, true, true⟩
/-- Consecutive scalar registers read. -/
def rdRange (f n : Nat) : List Use := (List.range n).map (fun i => ⟨0, ((f + i : Nat) : Int), true, false⟩)
/-- Consecutive scalar registers written, from a field that may be relative. -/
def wrRange (t : Strand) (f : BitVec 5) (rel : Bool) (n : Nat) : List Use :=
  (List.range n).map (fun i => ⟨0, t.idx f.toNat rel + (i : Nat), false, true⟩)
/-- A vector register read. -/
def rdV (f : BitVec 5) : Use := ⟨1, f.toNat, true, false⟩
/-- A vector register written. -/
def wrV (f : BitVec 5) : Use := ⟨1, f.toNat, false, true⟩
/-- A vector register read and written. -/
def rwV (f : BitVec 5) : Use := ⟨1, f.toNat, true, true⟩
/-- A mask register read. -/
def rdK (f : BitVec 3) : Use := ⟨2, f.toNat, true, false⟩
/-- A mask register written. -/
def wrK (f : BitVec 3) : Use := ⟨2, f.toNat, false, true⟩
/-- A mask register read and written. -/
def rwK (f : BitVec 3) : Use := ⟨2, f.toNat, true, true⟩

/-- The oldest deferred fault among some (R158: in issue order). -/
def oldestFault : List Deferred → Option Deferred
  | [] => none
  | d :: t => match oldestFault t with | none => some d | some e => if e.op < d.op then some e else some d

/-- The registers an instruction reads. -/
def readsOf (us : List Use) : List Reg := (us.filter (·.rd)).map Use.reg

/-- Whether an operation still owes one of the registers (R156). -/
def owes (task : Nat) (rs : List Reg) (o : Op) : Bool := o.task == task && o.regs.any (fun r => rs.contains r)

/-- The check of an instruction's registers: REGBOUND in the order given (R76); REMOTE for a register that a dropped reply
was to fill (R45); the oldest arrived fault of the registers it reads (R158); then the scoreboard, a short stall while a reply
is outstanding to a register that it reads or writes (R156). Only then its own checks and effect. -/
def guard (us : List Use) (body : State → Res) (s : State) : Res :=
  match us.find? (fun u => !u.inAllot s.me) with
  | some u => .trap s .regbound 0 (wordZ u.idx)
  | none =>
    match (readsOf us).find? (fun r => s.me.lost.contains r) with
    | some r => .trap s .remote 0 (match r with | .s i => word i | .v i => word i | .k i => word i)
    | none =>
      match oldestFault (s.me.faults.filter (fun d => d.regs.any (fun r => (readsOf us).contains r))) with
      | some d => .trap s d.cause d.sub d.tval
      | none =>
        match s.ops.find? (owes s.me.task (us.map Use.reg)) with
        | some o => .stall s (.op o.id)
        | none => body s

/-- A privileged form: with STATUS.PRIV = 0 it traps with PRIV before its registers are checked (R95, R96). -/
def privOnly (i : Instr) (body : State → Res) (s : State) : Res :=
  if s.me.priv then body s else .trap s .priv 0 (instrWord i)

/-! ## Fields of the records that several rules use -/

/-- Whether a slot of a core is one of its reserved slots: the highest-numbered ones in service (R259, R289). -/
def Core.reservedSlot (k : Core) (i : Nat) : Bool :=
  !k.retired.contains i &&
    decide (((List.range 4).filter (fun j => decide (i < j) && !k.retired.contains j)).length < k.rsv)


/-- A handler table entry; after reset only MASK is set (Table 2.2). -/
def Core.entry (k : Core) (ch : Nat) : BitVec 128 := mapGet (BitVec.ofNat 128 (2 ^ 89)) k.handlers ch

/-- Bits [h:l] of a handler table entry. -/
def entBits (e : BitVec 128) (h l : Nat) : Nat := nbits e.toNat h l

/-- The context record of a context, read from the table at CTXTABLE (R276, log 10). -/
def ctxRecord (s : State) (x : Nat) : Nat := readNat s (s.ctxtable.toNat % 2 ^ 40 + 64 * x) 64

/-- The ASID record; the reset value of LEASE is 3 (Table 7.7). -/
def State.asid (s : State) (a : Nat) : Nat := (mapGet (BitVec.ofNat 256 (3 * 2 ^ 104)) s.asids a).toNat

/-- The lease length of an ASID in nanoseconds (Table 7.7). -/
def leaseOf (s : State) (a : Nat) : Nat := 32 * 2 ^ (Nat.min (nbits (s.asid a) 107 104) 7)

/-- MSGID of a message (Table 2.3). -/
def msgidOf (dev core chan : Nat) (host : Bool) (seq : Nat) : Word :=
  word (dev % 4096 * 2 ^ 52 + core % 8192 * 2 ^ 39 + chan % 64 * 2 ^ 33 + (if host then 2 ^ 32 else 0) + seq % 2 ^ 32)

/-- A report id (Table 14.2, w4). -/
def reportId (core slot chan ctx : Nat) : Word := word (core + 2 ^ 13 * slot + 2 ^ 15 * chan + 2 ^ 21 * ctx)

/-- CAUSE (Table 4.7). -/
def causeWord (async : Bool) (sub code : Nat) : Word :=
  word ((if async then 2 ^ 31 else 0) + sub % 256 * 256 + code % 256)

/-- The lowest free save image of a context (R282). -/
def freeImage (s : State) (x : Nat) : Option Nat :=
  let used := (s.ctx x).images
  match (List.range (used.length + 1)).find? (fun n => !used.contains n) with
  | some n => if n < nbits (ctxRecord s x) 255 240 then some n else none
  | none => none

/-- The image that a strand was being saved to is free again, where its save comes to nothing. -/
def dropSave (s : State) (t : Strand) : State :=
  match t.saveTo with
  | some n => if t.st = .saving then s.onCtx t.ctx (fun x => { x with images := x.images.filter (· != n) }) else s
  | none => s

/-! ## Operations that an instruction waits for, and performance counts -/

/-- The operation at which the running strand's instruction waits. -/
def pending (s : State) : Option Op := s.ops.find? (fun o => o.task == s.me.task && o.pend)

/-- An instruction that starts an operation and completes once it is answered: a first execution starts it, a later one looks
for the answer. -/
def awaiting (start : State → Res) (done : Op → List Nat → State → Res) (wait : State → Op → Res) (s : State) : Res :=
  match pending s with
  | none => start s
  | some o =>
    let s' : State := { s with ops := s.ops.filter (fun x => x.id != o.id) }
    match o.fault with
    | some (c, sub, tval) => .trap s' c sub tval
    | none => match o.answer with | some l => done o l s' | none => wait s o

/-- A performance event counted on a core: every PMC whose PMSEL names it rises (R274). -/
def perf (s : State) (c code n : Nat) : State :=
  s.onCore c (fun k => { k with pmc := Vector.ofFn (fun i : Fin 8 =>
    if k.pmsel[i.val].toNat = code then k.pmc[i.val] + word n else k.pmc[i.val]) })

/-! ## Sending packets and reports -/

/-- A packet put into the network. -/
def sendPacket (s : State) (src dst net : Nat) (holds : Option Nat) (b : Body) : State :=
  { s.fresh with net := s.net ++ [{ pid := s.nextId, src := src, dst := dst, net := net, body := b, since := s.devtime,
                                    holds := holds }] }

/-- Eight payload words. -/
def payload (l : List Word) : Vector Word 8 := Vector.ofFn (fun i : Fin 8 => (l[i.val]?).getD 0)

/-- An entry of the host report ring, with MSI-X vector 1 (R280). -/
def ringReport (s : State) (ws : List Word) : State :=
  { s with hostRing := s.hostRing ++ [ws], ringHead := s.ringHead + 1, msi := s.msi ++ [1] }

/-- Whether a report can reach the context's supervisor (R276, R280). -/
def supervisorReachable (s : State) (r ctx : Nat) (bySupervisor : Bool) : Bool :=
  let e := (s.core (nbits r 156 144)).entry (nbits r 143 138)
  nbits r 143 138 != 0 && entBits e 0 0 == 1 && entBits e 76 64 != ctx && !bySupervisor

/-- The source of packets that the device itself sends: no core, with SRCCORE 0 (Table 2.5). -/
def deviceSrc : Nat := 2 ^ 19 + 1

/-- A report posted to the supervisor of a context, or to the host report ring where it cannot reach one (R277, R280). Its
message uses no send queue and the reply network; MSGID is that of Table 2.5. -/
def postReport (s : State) (ctx core : Nat) (bySupervisor : Bool) (ws : List Word) : State :=
  let r := ctxRecord s ctx
  if supervisorReachable s r ctx bySupervisor then
    sendPacket s core (nbits r 156 144) 1 none
      (.message (nbits r 143 138) (payload ws) false s.fabid.toNat (if core < 8192 then core else 0) true none 0)
  else ringReport s ws

/-- The payload of a report (Table 14.2). -/
def reportWords (msgid cause epc tval id : Word) (time seq : Nat) : List Word :=
  [msgid, cause, epc, tval, id, word time, word seq, 0]

/-- A report of the form of R281: of an operation or a record of a task that may have ended, a supervisor task's own among them (R280).
It suspends nothing and is never outstanding. -/
def lateReport (s : State) (bySupervisor : Bool) (ctx core slot chan : Nat) (msgid : Word) (seq pc : Nat) (f : Cause × Nat × Word) :
    State :=
  postReport s ctx core bySupervisor
    (reportWords msgid (causeWord true f.2.1 (causeCode f.1)) (word pc) f.2.2 (reportId core slot chan ctx) s.devtime seq)

/-- Whether a deferred fault is one of an engine command (R281). -/
def lateFault (d : Deferred) : Bool := d.ctr == some .cp || d.ctr == some .tl

/-- The faults of engine commands that no WAIT raised before their task ended, by END, migration, abort or trap: one report each
(R281). -/
def lateFaults (s : State) (c i : Nat) (t : Strand) : State :=
  (t.faults.filter lateFault).foldl (fun s d =>
    lateReport s t.supervisor t.ctx c i t.chan t.msgid t.seq d.pc (d.cause, d.sub, d.tval)) s

/-- A timed task that lapses, counted once (R271, R274). -/
def countLapse (s : State) (c : Nat) (t : Strand) : State :=
  match t.timing with | some x => if x.lapsed then s else perf s c 0x0D 1 | none => s

/-! ## Leaving a slot -/

/-- Whether a copy still delivers: it has met no fault and has not delivered its last byte (R502). -/
def delivering (o : Op) : Bool := o.kind == .copy && o.fault.isNone && decide (o.pos < ((o.args[1]?).getD 0).toNat)

/-- A stream register freed (R149, R502): the messages whose bytes are staged leave the receive store, and a copy that still
delivers into it is cancelled (R375). -/
def freeStream (c task : Nat) (s : State) (q : Stream) : State :=
  let s := if q.kind = 3 then
      s.onCore c (fun k => { k with rx := k.rx.filter (fun m => !(m.chan == q.source.toNat && q.msgs.contains m.seq)) })
    else s
  if q.kind = 2 then { s with ops := s.ops.map (fun o => if o.id = q.source.toNat ∧ o.task = task ∧ delivering o then { o with phase := 9 } else o) }
  else s

/-- Every stream register of a strand freed, as END, a trap and an abort do (R364). -/
def freeStreams (s : State) (c : Nat) (t : Strand) : State := t.strm.toList.foldl (freeStream c t.task) s

/-- Whether an operation is withdrawn when its task leaves its slot: a wait, not an access that has been sent. -/
def withdrawn (o : Op) : Bool :=
  match o.kind with
  | .waitc _ _ _ _ | .sfu | .qpop _ true _ _ | .pwr _ | .subscribe _ | .ctxsave | .preempt => true
  | _ => false

/-- The module without the monitors, held pops, SFU requests, subscriptions on their way and waits of a task that leaves its slot
(R49, R186, R197, R273, R312); what it has sent goes on, with nobody waiting for it. -/
def dropWaits (s : State) (task : Nat) : State :=
  let mine := (s.ops.filter (fun o => o.task == task && withdrawn o)).map (·.id)
  { s with
    monitors := s.monitors.filter (fun m => !mine.contains m.op)
    clusters := s.clusters.map (fun p => (p.1, { p.2 with
      glover := p.2.glover.filter (fun i => !mine.contains i)
      sfuq := p.2.sfuq.filter (fun r => r.task != task)
      sfuWait := p.2.sfuWait.filter (fun r => r.task != task) }))
    ops := (s.ops.filter (fun o => !mine.contains o.id)).map (fun o => if o.task = task then { o with pend := false } else o) }

/-- A slot freed: its task is gone, its registers count for nothing more. -/
def freeSlot (s : State) (c i : Nat) : State := s.setSlot c i {}

/-- The ports of a task detached from their channel; a channel without ports that waits for its last one becomes FREE
(Table 3.1). -/
def detachPorts (s : State) (task : Nat) : State :=
  { s with chans := (s.chans.map (fun p =>
      let ports := p.2.ports.filter (fun q => q.task != task)
      if ports.isEmpty && (p.2.st == .registered || p.2.st == .ending) then (p.1, ({} : IChan))
      else (p.1, { p.2 with ports := ports }))) }

/-- Whether an operation is a task's SUBSCRIBE, on its way or with its count still to add. -/
def subscribing (task : Nat) (o : Op) : Bool := o.task == task && (match o.kind with | .subscribe _ => true | _ => false)

/-- The strand in a slot begins to be saved: the lowest free image of its context is taken for it, and its port is detached (Table 2.1, R69,
R282); none where no image is free. -/
def beginSave (s : State) (c i : Nat) (why : SaveWhy) : Option State :=
  let t := s.slot c i
  (freeImage s t.ctx).map (fun n =>
    let s := detachPorts { s with ops := s.ops.filter (fun o => !subscribing t.task o) } t.task
    (s.onCtx t.ctx (fun x => { x with images := n :: x.images })).setSlot c i
      { t with st := .saving, why := why, saveTo := some n, savePos := 0, walk := none })

/-- A publisher's channel enters ENDING, with the reason and the publisher's faulting PC (Table 3.1, R68, R72); it is FREE at
once where it has no port. -/
def endPublication (s : State) (task why pc : Nat) : State :=
  { s with chans := s.chans.map (fun p =>
      match p.2.pub with
      | some (_, _, t) =>
        if t = task then
          if p.2.ports.isEmpty then (p.1, ({} : IChan))
          else (p.1, { p.2 with st := .ending, pub := none, ended := (why, pc) })
        else p
      | none => p) }

/-! ## Reporting a trap and releasing it -/

/-- A message of a receive store changed. -/
def onMsg (k : Core) (ch seq : Nat) (f : Msg → Msg) : Core :=
  { k with rx := k.rx.map (fun m => if m.chan = ch && m.seq = seq then f m else m) }

/-- The message of a trapped task back at the head of its channel's queue: it keeps its arrival number, which is lower than
those of later arrivals (R38). -/
def returnMsg (k : Core) (ch seq : Nat) : Core := onMsg k ch seq (fun m => { m with running := false, image := none })

/-- The report of a trapped strand (R38, R277, R278): its buffered sends are discarded with their reservations, its message
returns to the head of its channel's queue, the channel is suspended, the slot freed, and the report posted and outstanding; late faults
that no WAIT raised are reported after it, and a timed task lapses (R271, R281).
What the task held elsewhere ends: ports, publication, monitors, waiting pops, stream registers (Table 14.4). -/
def reportTrap (s : State) (c i : Nat) (tr : TrapInfo) : State :=
  let t := s.slot c i
  let id := reportId c i t.chan t.ctx
  let ws := reportWords t.msgid (causeWord tr.async tr.sub tr.code) (word tr.epc) tr.tval id tr.time t.seq
  let s := freeSlot (detachPorts (endPublication (dropWaits (freeStreams s c t) t.task) t.task 2 tr.epc) t.task) c i
  let s := s.onCore c (fun k =>
    { returnMsg k t.chan t.seq with suspended := t.chan :: k.suspended.filter (· != t.chan) })
  let s := { s with reports := s.reports ++ [{ id := id, kind := .trap, core := c, chan := t.chan, seq := t.seq, ctx := t.ctx,
                                               channels := [(c, t.chan)] }] }
  lateFaults (postReport (countLapse s c t) t.ctx c t.supervisor ws) c i t

/-- A saved task that will never be resumed: its publication ends as at an abort, its stream registers are freed, late faults that no WAIT
raised are reported, and its image is free (R49, R68, R281, R286, R364, R367). -/
def discardSaved (c : Nat) (s : State) (m : Msg) : State :=
  match m.image, m.kept with
  | some n, some t =>
    let s := endPublication (freeStreams s c t) t.task 2 t.pc.toNat
    lateFaults (s.onCtx t.ctx (fun x => { x with images := x.images.filter (· != n) })) c m.slot t
  | _, _ => s

/-- A channel released (R279): with the action's bit 0 or 1 its suspended message is removed first (actions 1 and 2), and with
actions 2 and 3 its MASK is set. A stopped task whose message is removed goes with its image (R367). -/
def releaseChannel (action : Nat) (seq : Option Nat) (s : State) (p : Nat × Nat) : State :=
  let k := s.core p.1
  let gone := fun (m : Msg) => decide (m.chan = p.2) && (action == 1 || action == 2) &&
    (match seq with | some n => m.seq == n | none => m.stopped || m.running == false && k.suspended.contains p.2 &&
      (k.rx.find? (fun x => x.chan == p.2)).map (·.seq) == some m.seq)
  let s := (k.rx.filter gone).foldl (discardSaved p.1) s
  s.onCore p.1 (fun k =>
    { k with
      rx := (k.rx.filter (fun m => !gone m)).map (fun m =>
        if m.chan = p.2 then { m with stopped := false } else m)
      suspended := k.suspended.filter (· != p.2)
      handlers := if action = 2 || action = 3 then mapSet k.handlers p.2 (k.entry p.2 ||| BitVec.ofNat 128 (2 ^ 89))
                  else k.handlers })

/-- The end of the handling of an outstanding report: the action on its channel, or on every channel that a wide report
suspended, and the report, of equal ones the oldest, is outstanding no more (R279, R467). -/
def releaseReport (s : State) (r : Report) (action : Nat) : State :=
  let s := r.channels.foldl (releaseChannel action (if r.kind == .wide then none else some r.seq)) s
  { s with reports := s.reports.erase r }

/-- The outstanding report of an id, the oldest where ids repeat (R467). -/
def findReport (s : State) (id : Word) : Option Report := s.reports.find? (fun r => r.id == id)

end Sys2Proof.Machine
end

