-- ==== Sys2Proof/Machine/Lockstep.lean ====
section
/-!
DEFINITION. Instruction channels: ports, what a stream carries, publishing, and elected issue (R48-R72).
-/

namespace Sys2Proof.Machine

open Sys2Proof

/-- TVAL of SUBERR (R71). -/
def suberr (chan code : Nat) : Word := word (chan % 256 * 256 + code)

/-- A strand's trap with SUBERR. -/
def subTrap (s : State) (chan code : Nat) : Res := .trap s .suberr 0 (suberr chan code)

/-- The port of a task on a channel. -/
def portOf (c : IChan) (task : Nat) : Option IPort := c.ports.find? (fun p => p.task == task)

/-- The port of the running strand on its channel. -/
def State.myPort (s : State) : Option IPort := portOf (s.chan s.me.ichan) s.me.task

/-- The stream instruction that the running subscriber executes: the first of its port's buffer (R57). -/
def State.carried (s : State) : Option Pub := if s.me.sub then s.myPort.bind (fun p => p.buf.head?) else none

/-- A port of a channel changed. -/
def onPort (s : State) (c task : Nat) (f : IPort → IPort) : State :=
  s.onChan c (fun x => { x with ports := x.ports.map (fun p => if p.task = task then f p else p) })

/-- An instruction sent down the tree of a channel: it is in flight to every port; ports of unsubscribed strands take it only to
watch for markers (R53, R55, R62). -/
def publish (s : State) (c : Nat) (p : Pub) : State :=
  s.onChan c (fun x => { x with
    published := x.published + 1
    ports := x.ports.map (fun q => { q with flight := q.flight ++ [p] }) })

/-- Forms that a member of a lockstep group may not execute (Table 3.5): SUBERR code NESTED. -/
def notNested (body : State → Res) (s : State) : Res :=
  if s.me.pub || s.me.sub then subTrap s s.me.ichan 4 else body s

/-- A control transfer of the running strand: to a target when taken, else to the next instruction. A subscriber's outcome is
compared with the stream's (R59). -/
def transfer (taken : Bool) (target : Nat) (s : State) : Res :=
  let out := if taken then .jump s target else .ok s
  match s.carried with
  | none => out
  | some p =>
    if p.taken = taken ∧ (taken = false ∨ p.next = target % 2 ^ 48) then out
    else subTrap s s.me.ichan 5

/-! ## Trees (R53, R525) -/

/-- The die through which a tree or a packet from a die reaches the opposite one: the next, or the third while the next is lost
(R53, R525). -/
def passDie (s : State) (a : Nat) : Nat := if (s.die ((a + 1) % 4)).lost then (a + 3) % 4 else (a + 1) % 4

/-- Die links that the tree of a channel crosses to a die: to a neighbour of its root, or through one of them to the opposite die (R53,
R525). Link `d` joins dies d and d + 1 (mod 4). -/
def treeLinks (s : State) (root die : Nat) : List Nat :=
  match (die + 4 - root) % 4 with
  | 0 => []
  | 1 => [root]
  | 2 => if passDie s root = (root + 1) % 4 then [root, (root + 1) % 4] else [(root + 3) % 4, (root + 2) % 4]
  | _ => [(root + 3) % 4]

/-- The links that a channel's tree uses. -/
def chanLinks (s : State) (c : Nat) (x : IChan) : List Nat := (x.ports.flatMap (fun p => treeLinks s (c / 64) (dieOf p.core))).eraseDups

/-- Whether a port would make a seventeenth tree on a die link (R51). -/
def crossFull (s : State) (c core : Nat) : Bool :=
  (treeLinks s (c / 64) (dieOf core)).any (fun l =>
    !(chanLinks s c (s.chan c)).contains l &&
    decide (16 ≤ (s.chans.filter (fun p => p.1 != c && (chanLinks s p.1 p.2).contains l)).length))

/-! ## Markers (R62, R63) -/

/-- The marker that a stream item is. -/
def markerOf (i : Instr) : Option Nat := match i with | .rdv r => some r.toNat | _ => none

/-- Whether a strand waits in RESUB for a marker. -/
def awaitsMarker (t : Strand) (r : Nat) : Bool := match t.wait with | .marker n _ => t.st == .blocked && n == r | _ => false

/-- Whether a port is about to join the stream by a marker that is on its way and lies before a place of it: a port not yet joined by any
marker, that of an unsubscribed strand by the one that its RESUB waits for (R51, R63). -/
def joinsBefore (s : State) (q : IPort) (pos : Nat) : Bool :=
  !q.joined && q.flight.any (fun p => decide (p.pos < pos) &&
    (match markerOf p.instr with | some r => !q.uns || awaitsMarker (s.slot q.core q.slot) r | none => false))

/-! ## Elected issue (R64-R66) -/

/-- The order of cores and slots. -/
def before (a b : Nat × Nat) : Bool := decide (a.1 < b.1) || (a.1 == b.1 && decide (a.2 < b.2))

/-- The first of some places. -/
def firstPlace : List (Nat × Nat) → Option (Nat × Nat)
  | [] => none
  | a :: t => match firstPlace t with | none => some a | some b => if before b a then some b else some a

/-- The active members of a channel in a cluster at a place of the stream: the publisher and the subscribed strands that joined the
stream there or before, or are about to. A strand that has left it had issued every instruction up to there (R64). -/
def activeMembers (s : State) (c g pos : Nat) : List (Nat × Nat) :=
  let x := s.chan c
  let subs := (x.ports.filter (fun p => p.joined && !p.uns && decide (p.joinedAt ≤ pos) || joinsBefore s p pos)).map
    (fun p => (p.core, p.slot))
  let pub := match x.pub with | some (k, i, _) => [(k, i)] | none => []
  (pub ++ subs).filter (fun p => clusterOf p.1 == g)

/-- Whether an engine operation or tile entry is still to complete. -/
def engineRuns (s : State) (g id : Nat) : Bool :=
  s.ops.any (fun o => o.id == id) || (s.cluster g).tileq.any (fun e => e.n == id)

/-- Another task counted for an engine operation or tile entry (R65). -/
def shareEngine (s : State) (g id : Nat) (who : Nat × Nat × Nat) : State :=
  let s : State := { s with ops := s.ops.map (fun (o : Op) => if o.id = id then { o with shared := o.shared ++ [who] } else o) }
  s.onCluster g (fun x => { x with tileq := x.tileq.map (fun e => if e.n = id then { e with shared := e.shared ++ [who] } else e) })

/-- The record of an elected instruction. -/
def findElect (s : State) (c pos g : Nat) : Option Elect :=
  s.elects.find? (fun e => e.chan == c && e.pos == pos && e.cluster == g)

/-- The place of the running strand's instruction in the stream. -/
def streamPos (s : State) : Nat := s.me.issued

/-- An elected instruction (R64): outside a lockstep group the strand performs it; in one the elected issuer performs it for its
cluster, and the other active members, once it has, count it or trap with ISSUER (R65, R66). The issuer's own register checks are
part of `body`: they fail the instruction for the cluster, and the other members make none. -/
def elected (ctr : Option Ctr) (body : State → Res) (s : State) : Res :=
  if s.me.pub || s.me.sub then
    let c := s.me.ichan
    let g := s.myCluster
    match findElect s c (streamPos s) g with
    | some e =>
      if e.issuer = s.cur then body s
      else if e.failed then subTrap s c 6
      else if e.ctr.isSome && engineRuns s g e.op then
        .ok ((shareEngine s g e.op (s.cur.1, s.cur.2, s.me.task)).onMe (fun t => t.rise? e.ctr))
      else .ok s
    | none =>
      if firstPlace (activeMembers s c g (streamPos s)) = some s.cur then
        let mark := fun (s' : State) (failed : Bool) =>
          { s' with elects := s'.elects ++ [{ chan := c, pos := streamPos s, cluster := g, issuer := s.cur, failed := failed,
                                              ctr := ctr, op := s.nextId, done := false }] }
        match body s with
        | .ok s' => .ok (mark s' false)
        | .jump s' t => .jump (mark s' false) t
        | .trap s' cause sub tval => .trap (mark s' true) cause sub tval
        | r => r
      else .stall s .retry
  else body s

end Sys2Proof.Machine
end

