-- ==== Sys2Proof/Config.lean ====
section
/-!
DEFINITION. What the spec leaves open as a value: uninterpreted constants without a body.  Nothing can evaluate them, so a
theorem holds whatever they are.  Each is named in a row of notes/assumptions.
-/

namespace Sys2Proof.Config

/-- Which of the steps that could come next is taken, by the model's step counter (log 3). -/
opaque freeChoice : Nat → Nat

/-- Nanoseconds by which DEVTIME advances in a step (log 2). -/
opaque freeNs : Nat → Nat

/-- Core cycles that pass in a step (log 2). -/
opaque freeCycles : Nat → Nat

/-- Core cycles that a task's start or restore takes, of the at most 8 that Table 2.1 allows, by the model's step counter (log 25). -/
opaque startCycles : Nat → Nat

/-- A byte that a read of host memory returns, by the step counter and the address (log 11). -/
opaque hostByte : Nat → Nat → BitVec 8

/-- Whether an engine's read of host memory completes with an error (R305; log 11). -/
opaque hostFails : Nat → Bool

/-- What a peer device answers to the n-th request sent to it: 0 to 127 a value, 128 and above a refusal (log 12). -/
opaque peerAnswer : Nat → BitVec 8

/-- A byte that a peer device returns (log 12). -/
opaque peerByte : Nat → Nat → BitVec 8

/-- The hash of context number and group number that fixes a group's root router, a global cluster (R43; log 13). -/
opaque groupHash : Nat → Nat → Nat

/-- The set of its home bank in which a line lies, by line number, and the binary logarithm of the ways of a set (R146; log 7). -/
opaque homeSet : Nat → Nat
opaque homeWaysLog : Nat

/-- The hash of source core, destination device and destination core that picks a port of a route mask (R302; log 13). -/
opaque routeHash : Nat → Nat → Nat → Nat

/-- The length in bytes of an invalid sequence of a set of several bytes a character, by the set and the bytes (R320; log 14). -/
opaque charLen : Nat → List (BitVec 8) → Nat

/-- The source byte offset that a stopped ingest message has reached (Table 16.6; log 14). -/
opaque ingestOffset : Nat → Nat

/-- A byte that a poisoned unit delivers into a stream register, whose staging buffer holds no poison (R373, R375; log 17). -/
opaque poisonByte : Nat → Nat → BitVec 8

/-- The vendor part number and stepping in the register ID (Table 15.3; log 16). -/
opaque idRegister : BitVec 64

/-- Whether a packet between two opposite dies is lost with the die that it passes through, by step counter and packet number (R293,
R525; log 82). -/
opaque lostTransit : Nat → Nat → Bool

/-- Whether a unit has switched to the body that a UFNCFG under way installs, by step counter and unit (R501; log 23). -/
opaque unitSwitches : Nat → Nat → Bool

/-- The logical pseudo-channel of its stack in which a line lies, by physical address (R14, R16; log 86). -/
opaque channelOf : Nat → Nat

end Sys2Proof.Config
end

