-- ==== Sys2Proof/Machine/Nx.lean ====
section
/-!
DEFINITION. The NX block formats (R127-R129) and the block arithmetic of the engines (R130-R133).
-/

namespace Sys2Proof.Machine

/-- The magnitude bits of an NX variant: NX4 2, NX6 4, NX9 7 (Table 6.4). -/
def nxM (variant : Nat) : Nat := match variant with | 0 => 2 | 1 => 4 | _ => 7

/-- The bytes of a block of a variant (Table 6.4). -/
def nxBytes (variant : Nat) : Nat := match variant with | 0 => 8 | 1 => 12 | _ => 18

/-- A list of bytes as a little-endian number. -/
def leNat : List Byte → Nat
  | [] => 0
  | b :: t => b.toNat + 256 * leNat t

/-- The `n` low bytes of a number, little-endian. -/
def leBytes : Nat → Nat → List Byte
  | 0, _ => []
  | n + 1, v => BitVec.ofNat 8 v :: leBytes n (v / 256)

/-- A block: its exponent byte, the quad shifts and, for each element, its sign and magnitude (R127). -/
structure NxBlock where
  e : Nat
  shifts : List Nat
  elems : List (Bool × Nat)
  deriving DecidableEq, Repr

/-- The block in the bytes of a variant (R127). -/
def nxDecode (variant : Nat) (bs : List Byte) : NxBlock :=
  let m := nxM variant
  let pay := leNat (bs.drop 2)
  { e := leNat (bs.take 1)
    shifts := (List.range 4).map (fun q => leNat (bs.drop 1 |>.take 1) / 2 ^ (2 * q) % 4)
    elems := (List.range 16).map (fun i =>
      let x := pay / 2 ^ ((m + 1) * i) % 2 ^ (m + 1)
      (x / 2 ^ m == 1, x % 2 ^ m)) }

/-- `RoundNE(|x| / 2^k)` (R129). -/
def nxRound (t : Term) (k : Int) : Nat := (roundAt .rne false t.m t.e false k).1

/-- The largest shift of 0-3 at which every magnitude of a quad fits (R129). -/
def nxShift (m : Nat) (e : Int) (quad : List Term) : Nat :=
  let fits (s : Nat) : Bool := quad.all (fun t => decide (nxRound t (e - 127 - s - (m - 1)) ≤ 2 ^ m - 1))
  if fits 3 then 3 else if fits 2 then 2 else if fits 1 then 1 else 0

/-- The conversion of 16 values to a block (R129): its bytes and the flags it raises. -/
def nxEncode (variant : Nat) (xs : List Fp) : List Byte × Flags :=
  let m := nxM variant
  let bytes := nxBytes variant
  let ts := xs.filterMap (fun x => match x with | .fin n v e => some (⟨n, v, e⟩ : Term) | _ => none)
  if ts.length < xs.length then (leBytes bytes 255, flNV)
  else
    let e0 := minExp ts 0
    let amax := ts.foldl (fun a t => max a (t.m * 2 ^ (t.e - e0).toNat)) 0
    let raw : Int := (Nat.log2 amax : Int) + e0 + 127
    let e : Int := if amax = 0 ∨ raw < 0 then 0 else raw
    let shifts := (List.range 4).map (fun q => nxShift m e ((ts.drop (4 * q)).take 4))
    let step (i : Nat) : Int := e - 127 - shifts.getD (i / 4) 0 - (m - 1)
    let coded := ts.mapIdx (fun i t =>
      let mag := min (nxRound t (step i)) (2 ^ m - 1)
      let exact := decide (sumAt (min t.e (step i)) [⟨false, t.m, t.e⟩] = sumAt (min t.e (step i)) [⟨false, mag, step i⟩])
      (t.neg && mag != 0, mag, exact))
    let nx := coded.any (fun c => !c.2.2)
    let pay := (coded.mapIdx (fun i c => ((if c.1 then 2 ^ m else 0) + c.2.1) * 2 ^ ((m + 1) * i))).foldl (· + ·) 0
    let sh := (shifts.mapIdx (fun q s => s * 2 ^ (2 * q))).foldl (· + ·) 0
    (leBytes bytes (e.toNat + 256 * sh + 65536 * pay),
      (if nx then flNX else 0) ||| (if nx && decide (amax ≠ 0) && decide (raw < 0) then flUF else 0))

/-- `RoundNE32` of a sum of exact values: a binary32 pattern (R130). -/
def sum32 (xs : List Fp) : Nat := (fpSum f32 .rne xs).bits

/-- An exact sum of products before it is rounded: a NaN, an infinity, or a finite value whose zero is -0 only when every
term is -0 (R131, R133). -/
def exactFp (xs : List Fp) : Fp :=
  if xs.any fpIsNaN then .nan false
  else
    match xs.filterMap (fun x => match x with | .inf n => some n | _ => none) with
    | n :: r => if r.all (· == n) then .inf n else .nan false
    | [] =>
      let t := exactSum .rne (xs.filterMap (fun x => match x with | .fin n m e => some ⟨n, m, e⟩ | _ => none))
      .fin t.neg t.m t.e

/-- One addition to a binary32 accumulator (R130, R131). -/
def accAdd (c : Nat) (g : Fp) : Nat := sum32 [fpOf f32 c, g]

/-- The product P of a pair of NX blocks over the element indices that take part, scaled by S (R130). -/
def nxBlockProduct (va vb : Nat) (a b : NxBlock) (live : List Nat) (scaleA scaleB : Nat) : Fp :=
  if a.e = 255 ∨ b.e = 255 then .nan false
  else
    let dot := exactFp (live.map (fun i =>
      let (sa, ma) := a.elems.getD i (false, 0)
      let (sb, mb) := b.elems.getD i (false, 0)
      .fin ((sa && ma != 0) != (sb && mb != 0)) (ma * mb) (-(a.shifts.getD (i / 4) 0 : Int) - b.shifts.getD (i / 4) 0)))
    let exact := match dot with
      | .fin n m e => .fin n m (e + a.e + b.e - 254 - (nxM va - 1) - (nxM vb - 1))
      | x => x
    let s := (fpMul f32 .rne (fpOf f32 scaleA) (fpOf f32 scaleB)).bits
    fpOf f32 (sum32 [fpMulExact exact (fpOf f32 s)])

end Sys2Proof.Machine
end

