-- ==== Sys2Proof/Machine/Mem.lean ====
section
/-!
DEFINITION. Memory: tagged pointers and what each access class accepts, scratchpad regions, translation, the pieces of an
access, and what a bank does when it applies one (R135-R162, R178-R185, R291, R292).
-/

namespace Sys2Proof.Machine

open Sys2Proof

/-! ## Locations -/

/-- The space tag of a pointer (R135). -/
def tagOf (p : Word) : Nat := bits p 63 60

/-- The key of a byte of a scratchpad. -/
def spKey (core off : Nat) : Nat := 2 ^ 40 + core * 2 ^ 18 + off

/-- The key of a host address. -/
def hostKey (a : Nat) : Nat := 2 ^ 48 + a

/-- The key of a peer location, by the pointer's bits [59:0]. -/
def peerKey (p : Word) : Nat := 2 ^ 60 + bits p 59 0

/-- Whether a key is a byte of HBM. -/
def isHbm (k : Nat) : Bool := decide (k < 2 ^ 40)

/-- Whether a key is a byte of a scratchpad. -/
def isScratch (k : Nat) : Bool := decide (2 ^ 40 ≤ k) && decide (k < 2 ^ 48)

/-- Whether a key is a host address. -/
def isHost (k : Nat) : Bool := decide (2 ^ 48 ≤ k) && decide (k < 2 ^ 60)

/-- Whether a key is a peer location. -/
def isPeer (k : Nat) : Bool := decide (2 ^ 60 ≤ k)

/-- The core whose scratchpad holds a key. -/
def keyCore (k : Nat) : Nat := (k - 2 ^ 40) / 2 ^ 18

/-- The byte offset in the scratchpad. -/
def keyOff (k : Nat) : Nat := (k - 2 ^ 40) % 2 ^ 18

/-- The logical stack that holds a line (R16). -/
def stackOf (pa : Nat) : Nat := nbits pa 15 12 ^^^ nbits pa 19 16 ^^^ nbits pa 23 20

/-- The home bank of a line within its die (R16). -/
def bankOf (pa : Nat) : Nat :=
  nbits pa 11 6 ^^^ nbits pa 17 12 ^^^ nbits pa 23 18 ^^^ nbits pa 29 24 ^^^ nbits pa 35 30 ^^^ nbits pa 39 36

/-- The die at whose bank a location is applied. -/
def keyDie (k : Nat) : Option Nat :=
  if isHbm k then some (stackOf k / 4) else if isScratch k then some (dieOf (keyCore k)) else none

/-- The scratchpad bank of an offset (R139). -/
def spBank (off : Nat) : Nat := off / 16 % 16

/-- The first byte of the unit of poison that holds a key: 16 bytes in a scratchpad, a line in HBM (R291). -/
def unitOf (k : Nat) : Nat := if isHbm k then k / 64 * 64 else k / 16 * 16

/-- The bytes of that unit. -/
def unitSize (k : Nat) : Nat := if isHbm k then 64 else 16

/-- Whether a unit is poisoned (R291, R294). -/
def unitBad (s : State) (u : Nat) : Bool := s.poison.contains u != (isHbm u && (s.die (stackOf u / 4)).wiped)

/-- A unit poisoned or made clean. -/
def setBad (s : State) (u : Nat) (v : Bool) : State :=
  if unitBad s u = v then s
  else { s with poison := if s.poison.contains u then s.poison.filter (· != u) else u :: s.poison }

/-- The mask of lost dies (R293). -/
def lostMask (s : State) : Nat :=
  (if (s.die 0).lost then 1 else 0) + (if (s.die 1).lost then 2 else 0) + (if (s.die 2).lost then 4 else 0) +
    (if (s.die 3).lost then 8 else 0)

/-- Whether a location lies at a bank of a lost die. -/
def onLostDie (s : State) (k : Nat) : Bool := match keyDie k with | some d => (s.die d).lost | none => false

/-- TDIES of a context gains a die; what acts for no context, a peer or the host, has none (R292). -/
def touchDie (s : State) (x d : Nat) : State :=
  if x < 8192 then s.onCtx x (fun c => { c with tdies := c.tdies ||| BitVec.ofNat 4 (2 ^ d) }) else s

/-- TDIES gains the die at whose bank an access of the context is applied (R292). -/
def touchKey (s : State) (x k : Nat) : State := match keyDie k with | some d => touchDie s x d | none => s

/-! ## Pointers -/

/-- The access classes of Table 7.3. -/
inductive Acc where
  | load | ld | store | amo | waitc | red | pref | queue | avail | region | engine
  deriving DecidableEq, Repr

/-- The spaces that a class accepts (Table 7.3, R136 apart). -/
def accSpace (a : Acc) (tag : Nat) : Bool :=
  match a with
  | .load => decide (tag ≤ 6)
  | .ld => decide (tag ≤ 6) || tag == 8
  | .store => decide (tag ≤ 6)
  | .amo => decide (tag ≤ 5)
  | .waitc => decide (tag ≤ 4)
  | .red => tag == 8
  | .pref => tag == 0 || tag == 4
  | .queue | .avail => tag == 7
  | .region => tag == 4
  | .engine => decide (tag ≤ 6)

/-- Whether the fields that Table 7.1 and Table 7.2 mark zero are zero. -/
def fieldsOk (p : Word) : Bool :=
  match tagOf p with
  | 1 => bits p 59 18 == 0
  | 2 => bits p 59 52 == 0 && bits p 47 18 == 0
  | 3 => bits p 46 18 == 0
  | 5 => if bits p 47 44 = 3 then bits p 30 18 == 0 else true
  | 7 => bits p 59 48 == 0 && bits p 5 0 == 0
  | _ => bits p 59 48 == 0

/-- The SPACE and BOUND checks of a pointer, made before any translation (R135-R137). -/
def ptrCheck (a : Acc) (p : Word) : Option Cause :=
  if !accSpace a (tagOf p) then some .space
  else if tagOf p == 5 && bits p 47 44 != 3 && bits p 47 44 != 4 then some .space
  else if !fieldsOk p then some .bound
  else none

/-- A pointer moved by a signed distance, its tag kept (R416). -/
def ptrAdd (p : Word) (d : Int) : Word :=
  word (tagOf p * 2 ^ 60 + (((bits p 59 0 : Int) + d) % (2 ^ 60 : Int)).toNat)

/-! ## Scratchpad regions (R84, R141, R285) -/

/-- Whether a region register covers a KiB of the scratchpad. -/
def regionHas (w : Word) (kib : Nat) : Bool :=
  bits w 31 31 == 1 && decide (bits w 7 0 ≤ kib) && decide (kib < bits w 7 0 + bits w 24 16)

/-- Whether any region of some contexts covers a KiB. -/
def anyRegion (k : Core) (p : Nat → Word → Bool) (kib : Nat) : Bool :=
  k.spregs.any (fun e => e.2.any (fun w => p e.1 w && regionHas w kib))

/-- Whether a KiB is held for a context that is away from the core: a keep region of another context (R285). -/
def heldKib (k : Core) (ctx kib : Nat) : Bool :=
  anyRegion k (fun x w => k.away.contains x && x != ctx && bits w 30 30 == 1 &&
    !k.slots.toList.any (fun t => t.st != .free && t.ctx == x)) kib

/-- The ASID of a context, from its record (R276). -/
def ctxAsid (s : State) (x : Nat) : Nat := nbits (ctxRecord s x) 12 0

/-- Whether an access may touch a KiB of a core's scratchpad (R141, R285). -/
def kibOk (s : State) (core ctx asid : Nat) (priv : Bool) (kib : Nat) : Bool :=
  let k := s.core core
  !heldKib k ctx kib && (priv || anyRegion k (fun x _ => ctxAsid s x == asid) kib)

/-- Whether an access may touch bytes of a core's scratchpad. -/
def regionOk (s : State) (core ctx asid : Nat) (priv : Bool) (off n : Nat) : Bool :=
  (List.range ((off % 1024 + n + 1023) / 1024)).all (fun i => kibOk s core ctx asid priv (off / 1024 + i))

/-! ## Translation (R150-R154) -/

/-- A step of a table walk: the entry of a table, its line's die, and whether the line is poisoned or lost. -/
def pte (s : State) (table idx : Nat) : Except Nat Nat :=
  let k := table + idx * 8
  if onLostDie s k then .error 3
  else if unitBad s (unitOf k) then .error 2
  else .ok (readNat s k 8)

/-- Whether an entry is valid with its reserved fields zero (Table 7.8). -/
def pteValid (e : Nat) : Bool := nbits e 0 0 == 1 && nbits e 51 40 == 0 && nbits e 11 7 == 0

/-- The permissions R, W, X, PRIV of an entry as bits 0-3. -/
def ptePerm (e : Nat) : Nat := nbits e 5 2

/-- A contiguous group: sixteen aligned leaves with the same permissions over a 64 KiB-aligned block (R151). A leaf of the group whose line
is poisoned or lies on a lost die, for which the rule names no cause, makes the group ill-formed: PAGE with subcode 0, the model's choice
(log 21). -/
def contigOk (s : State) (table idx e : Nat) : Bool :=
  let base := idx / 16 * 16
  let f0 := nbits e 39 12 - (idx - base)
  decide (nbits e 39 12 ≥ idx - base) && f0 % 16 == 0 && (List.range 16).all (fun i =>
    match pte s table (base + i) with
    | .ok g => pteValid g && nbits g 1 1 == 1 && nbits g 6 6 == 1 && ptePerm g == ptePerm e && nbits g 39 12 == f0 + i
    | .error _ => false)

/-- The walk of a map from a top table: the page, its length in 4 KiB pages, its frame and permissions, or why there is no
translation: 0 PAGE, 2 a poisoned table line, 3 a table on a lost die (R151). -/
def walkTable (s : State) (asid space root va : Nat) : Except Nat Xlat := do
  let e1 ← pte s root (nbits va 47 39)
  if !pteValid e1 || nbits e1 1 1 == 1 || nbits e1 6 6 == 1 then throw 0
  let e2 ← pte s (nbits e1 39 12 * 4096) (nbits va 38 30)
  if !pteValid e2 || nbits e2 6 6 == 1 then throw 0
  if nbits e2 1 1 == 1 then
    if nbits e2 29 12 != 0 then throw 0
    return { asid, space, page := va / 2 ^ 30 * 2 ^ 18, pages := 2 ^ 18, frame := nbits e2 39 12, perm := ptePerm e2 }
  let e3 ← pte s (nbits e2 39 12 * 4096) (nbits va 29 21)
  if !pteValid e3 || nbits e3 6 6 == 1 then throw 0
  if nbits e3 1 1 == 1 then
    if nbits e3 20 12 != 0 then throw 0
    return { asid, space, page := va / 2 ^ 21 * 2 ^ 9, pages := 2 ^ 9, frame := nbits e3 39 12, perm := ptePerm e3 }
  let t4 := nbits e3 39 12 * 4096
  let e4 ← pte s t4 (nbits va 20 12)
  if !pteValid e4 || nbits e4 1 1 == 0 then throw 0
  if nbits e4 6 6 == 1 then
    if !contigOk s t4 (nbits va 20 12) e4 then throw 0
    return { asid, space, page := va / 2 ^ 16 * 16, pages := 16, frame := nbits e4 39 12 / 16 * 16, perm := ptePerm e4 }
  return { asid, space, page := va / 4096, pages := 1, frame := nbits e4 39 12, perm := ptePerm e4 }

/-- The walk of an ASID's map of a space; PRIVGROW (1) where space 0x0 may grow (R150, R153). -/
def walk (s : State) (asid space va : Nat) : Except Nat Xlat :=
  let r := s.asid asid
  match walkTable s asid space (if space = 0 then nbits r 39 0 else nbits r 91 52) va with
  | .ok x => .ok x
  | .error 0 => if space = 0 && decide (nbits r 159 112 ≤ va) && decide (va < nbits r 207 160) then .error 1 else .error 0
  | .error e => .error e

/-! ## Home banks (R15, R146) -/

/-- Ways of a set of a home bank beyond the first, and the sets of the bank, which holds 4 MiB (R15, R20, log 7). -/
def moreWays : Nat := 2 ^ (Config.homeWaysLog % 17) - 1
def homeSets : Nat := 65536 / (moreWays + 1)

/-- Whether two lines lie in one set of one home bank (R16, log 7). -/
def sameSet (k l : Nat) : Bool :=
  stackOf (k * 64) / 4 == stackOf (l * 64) / 4 && bankOf (k * 64) == bankOf (l * 64) &&
    Config.homeSet k % homeSets == Config.homeSet l % homeSets

/-- The lines of a line's set that its home bank holds. -/
def homeSetOf (s : State) (line : Nat) : List Nat := s.homeLines.filter (sameSet line)

/-- Whether a line has a live lease (R144). -/
def leased (s : State) (line : Nat) : Bool := decide (s.devtime < mapGet 0 s.leases line)

/-- Whether a home bank may evict a line: it has no live lease and no reduction slots (R146, R183). -/
def evictable (s : State) (line : Nat) : Bool := !leased s line && !s.redLines.any (fun r => r.line == line)

/-- Whether a home bank holds a line or has a way for it: one that is free, or whose line may be evicted (R146). -/
def homeRoom (s : State) (line : Nat) : Bool :=
  s.homeLines.contains line || decide ((homeSetOf s line).length < moreWays + 1) || (homeSetOf s line).any (evictable s)

/-- A line held by its home bank, as its most recent one; where its set is full the oldest line that may be evicted is (R146, log 7). -/
def homeTake (s : State) (line : Nat) : State :=
  let l := if s.homeLines.contains line || decide ((homeSetOf s line).length < moreWays + 1) then s.homeLines
    else match (homeSetOf s line).reverse.find? (evictable s) with
      | some x => s.homeLines.filter (· != x)
      | none => s.homeLines
  { s with homeLines := line :: l.filter (· != line) }

/-! ## Translations -/

/-- The physical address that a translation gives a virtual one. -/
def xlatAddr (x : Xlat) (va : Nat) : Nat := (x.frame + (va / 4096 - x.page)) * 4096 + va % 4096

/-- Whether a translation covers a page of an ASID and space. -/
def xlatHas (asid space page : Nat) (x : Xlat) : Bool :=
  x.asid == asid && x.space == space && decide (x.page ≤ page) && decide (page < x.page + x.pages)

/-- Whether a translation allows an access: the permission bit needed (1 R, 2 W, 4 X) and PRIV (R151). -/
def xlatPerm (x : Xlat) (need : Nat) (priv : Bool) : Bool :=
  x.perm / need % 2 == 1 && (priv || x.perm / 8 % 2 == 0)

/-- What becomes of a pointer's translation: a key, a trap, or a walk of a virtual address to wait for. -/
inductive Loc where
  | key (k : Nat)
  | trap (c : Cause) (sub : Nat)
  | walk (asid space va : Nat)
  deriving DecidableEq, Repr

/-- The trap of a walk that found no translation. -/
def walkTrap (sub : Nat) : Cause × Nat :=
  match sub with | 0 => (.page, 0) | 1 => (.page, 1) | 2 => (.poison, 0) | _ => (.dielost, 0)

/-- The translation of an address of the running strand: its core's TLB, the walk that failed, or a walk (R154). -/
def translate (s : State) (space need va : Nat) : Loc :=
  match s.myCore.tlb.find? (xlatHas s.me.asid space (va / 4096)) with
  | some x => if xlatPerm x need s.me.priv then .key (xlatAddr x va) else .trap .prot 0
  | none =>
    match s.me.walkFail with
    | some (a, sp, x, sub) =>
      if a = s.me.asid ∧ sp = space ∧ x = va then .trap (walkTrap sub).1 (walkTrap sub).2
      else .walk s.me.asid space va
    | none => .walk s.me.asid space va

/-- The running strand waits for the walk of a virtual address (R39, R154). -/
def startWalk (s : State) (asid space va : Nat) : Res :=
  .stall (s.onMe (fun t => { t with walk := some (asid, space, va), walkAt := s.tick })) .retry

/-! ## Table walks as accesses, and the second-level cache (R146, R154, R292) -/

/-- The die whose second-level cache holds a translation: the hash of R154, the next surviving die where it is lost (R293). -/
def xlatDie (s : State) (asid va : Nat) : Nat :=
  let d := nbits va 22 21 ^^^ nbits va 24 23 ^^^ asid % 4
  (((List.range 4).map (fun i => (d + i) % 4)).find? (fun d => !(s.die d).lost)).getD d

/-- The keys of the table entries that a walk reads from a table down, its remaining index fields given. -/
def walkKeys (s : State) : List Nat → Nat → List Nat
  | [], _ => []
  | i :: t, table =>
    let k := table + i * 8
    let e := readNat s k 8
    k :: (if pteValid e && nbits e 1 1 == 0 then walkKeys s t (nbits e 39 12 * 4096) else [])

/-- The keys of the table entries that the walk of an address reads. -/
def walkReads (s : State) (asid space va : Nat) : List Nat :=
  let r := s.asid asid
  walkKeys s [nbits va 47 39, nbits va 38 30, nbits va 29 21, nbits va 20 12] (if space = 0 then nbits r 39 0 else nbits r 91 52)

/-- The reads of a walk at its home banks: the dies that it touches, and the lines that their banks hold from then on (R146, R154, R292). -/
def touchWalk (s : State) (ctx asid space va : Nat) : State :=
  (walkReads s asid space va).foldl (fun s k => homeTake (touchKey s ctx k) (k / 64)) s

/-- The translation of the second-level cache for an address. -/
def xlatGet (s : State) (asid space va : Nat) : Option Xlat := s.tlb2.find? (xlatHas asid space (va / 4096))

/-- A translation as the second-level cache of a die keeps it: of a page of 1 GiB the 2 MiB that hold the address (R154). -/
def xlatFragment (x : Xlat) (va : Nat) : Xlat :=
  if x.pages = 2 ^ 18 then
    let page := va / 2 ^ 21 * 2 ^ 9
    { x with page := page, pages := 2 ^ 9, frame := x.frame + (page - x.page), big := true }
  else x

/-- Whether two translations lie in one set of one die's second-level cache: 32 K entries in sets of eight; the set is the first page's
number modulo 4,096, the model's choice (R154, log 81). -/
def sameXlatSet (s : State) (x y : Xlat) : Bool :=
  xlatDie s x.asid (x.page * 4096) == xlatDie s y.asid (y.page * 4096) && x.page % 4096 == y.page % 4096

/-- A translation put into the second-level cache, the oldest of its set replaced (R154). -/
def xlatPut (s : State) (x : Xlat) : State :=
  let l := s.tlb2.filter (· != x)
  let keep := (l.filter (sameXlatSet s x)).take 7
  { s with tlb2 := x :: l.filter (fun y => !sameXlatSet s x y || keep.contains y) }

/-- What the second-level cache, or the walk of a die, answers to a miss: the translation, or why there is none. -/
def answerWalk (s : State) (ctx asid space va : Nat) : State × Except Nat Xlat :=
  match xlatGet s asid space va with
  | some x => (s, .ok x)
  | none =>
    let s := touchWalk s ctx asid space va
    match walk s asid space va with
    | .ok x => (xlatPut s (xlatFragment x va), .ok x)
    | .error sub => (s, .error sub)

/-- The translation of an address as it stands: the second-level cache's, or the tables' (R154). -/
def xlatNow (s : State) (asid space va : Nat) : Except Nat Xlat :=
  match xlatGet s asid space va with | some x => .ok x | none => walk s asid space va

/-- The second-level cache after an engine, a home or the hardware itself has looked a pointer up in it, with the walk that a miss makes; a
look-up alone sets no bit of TDIES (R154, R292). -/
def touchPtr (s : State) (ctx : Nat) (p : Word) : State :=
  if tagOf p = 0 ∨ tagOf p = 4 then (answerWalk s ctx (ctxAsid s ctx) (tagOf p) (bits p 47 0)).1 else s

/-- The permission that a class needs: R for loads, W for stores, atomics and RED (R151). -/
def accNeed (a : Acc) : Nat := match a with | .store | .amo | .red | .queue | .region => 2 | _ => 1

/-- The core that a scratchpad pointer names (Table 7.1). -/
def spCore (me : Nat) (p : Word) : Nat :=
  match tagOf p with
  | 1 => me
  | 2 => me / 16 * 16 + bits p 51 48
  | _ => bits p 59 58 * 2048 + bits p 57 47

/-- Where an access of the running strand goes: the checks in the order SPACE, BOUND, ALIGN, the own scratchpad's regions,
then PAGE and PROT (R417, R480, R353); a bank of a lost die (R293). -/
def locate (s : State) (a : Acc) (p : Word) (n : Nat) : Loc :=
  match ptrCheck a p with
  | some c => .trap c 0
  | none =>
    if p.toNat % n ≠ 0 then .trap .align 0
    else
      match tagOf p with
      | 0 => translate s 0 (accNeed a) (bits p 47 0)
      | 1 =>
        if regionOk s s.cur.1 s.me.ctx s.me.asid s.me.priv (bits p 17 0) n then .key (spKey s.cur.1 (bits p 17 0))
        else .trap .prot 0
      | 2 => .key (spKey (spCore s.cur.1 p) (bits p 17 0))
      | 3 => .key (spKey (spCore s.cur.1 p) (bits p 17 0))
      | 5 => .key (peerKey p)
      | 6 => .key (hostKey (bits p 47 0))
      | _ => translate s 4 (accNeed a) (bits p 47 0)

/-! ## Pieces of an access -/

/-- A lane of an access before it is translated: its number, pointer, bytes, alignment, data and byte enables. -/
structure Lane where
  lane : Nat
  ptr : Word
  n : Nat
  data : Nat := 0
  en : Nat := 0
  deriving DecidableEq, Repr

/-- What the checks of all lanes come to, in ascending lanes. -/
inductive Located where
  | pieces (l : List Piece)
  | trap (c : Cause) (sub : Nat) (tval : Word)
  | walk (asid space va : Nat)
  deriving DecidableEq, Repr

/-- The pieces of an access, each lane checked in turn; the first failure traps (R419, R481). -/
def locateAll (s : State) (a : Acc) : List Lane → Located
  | [] => .pieces []
  | l :: t =>
    match locate s a l.ptr l.n with
    | .trap c sub => .trap c sub (if c = .dielost then word (lostMask s) else l.ptr)
    | .walk x y z => .walk x y z
    | .key k =>
      if onLostDie s k then .trap .dielost 0 (word (lostMask s))
      else
        match locateAll s a t with
        | .pieces ps => .pieces ({ key := k, n := l.n, lane := l.lane, data := l.data, en := l.en, ptr := l.ptr } :: ps)
        | r => r

/-- Whether two ranges of locations overlap. -/
def overlaps (k n k' n' : Nat) : Bool := decide (k < k' + n') && decide (k' < k + n)

/-- Whether an operation is one on a queue object, whose accesses are its home's own (R193). -/
def isQueue (k : OpKind) : Bool :=
  match k with
  | .qinit _ | .qpush _ _ _ _ | .qpop _ _ _ _ | .qsteal _ | .qavail | .permit _ | .pret _ => true
  | _ => false

/-- A peer access of a device at its target here: the export table's ASID, its regions or its global map; with `need` 0 without the check
of permissions (R136, R141, R152). -/
def peerTargetOf (s : State) (dev need : Nat) (p : Piece) : Except (Cause × Nat × Word) Nat :=
  let (asid, on) := mapGet (0, false) s.exports dev
  let a := p.key - 2 ^ 60
  if !on then .error (.prot, 0, p.ptr)
  else if nbits a 47 44 = 3 then
    let core := nbits a 43 42 * 2048 + nbits a 41 31
    if regionOk s core 8192 asid false (nbits a 17 0) p.n then .ok (spKey core (nbits a 17 0)) else .error (.prot, 0, p.ptr)
  else
    match xlatNow s asid 4 (nbits a 43 0) with
    | .ok x => if need = 0 ∨ xlatPerm x need false then .ok (xlatAddr x (nbits a 43 0)) else .error (.prot, 0, p.ptr)
    | .error sub => .error ((walkTrap sub).1, (walkTrap sub).2, p.ptr)

/-- Whether a key is a location of this device named as a peer's, whose access is still to come back to it (R136). -/
def isSelfPeer (s : State) (k : Nat) : Bool := isPeer k && nbits (k - 2 ^ 60) 59 48 == s.fabid.toNat

/-- Where a piece is performed: a location of this device named as a peer's is that location (R136, R159). -/
def locOf (s : State) (p : Piece) : Nat :=
  if isSelfPeer s p.key then (match peerTargetOf s s.fabid.toNat 0 p with | .ok k => k | .error _ => p.key) else p.key

/-- Whether a piece of an operation may be applied: every earlier access of the task to one of its locations has been
(R161), the lanes of one store in ascending order (R142). -/
def pieceReady (s : State) (o : Op) (i : Nat) (p : Piece) : Bool :=
  !s.ops.any (fun x => x.task == o.task && decide (x.id < o.id) && !isQueue x.kind &&
    x.pieces.any (fun y => !y.done && overlaps (locOf s y) y.n p.key p.n)) &&
  !(o.pieces.take i).any (fun y => !y.done && overlaps y.key y.n p.key p.n)

/-- The operation with a number. -/
def findOp (s : State) (id : Nat) : Option Op := s.ops.find? (fun o => o.id == id)

/-- The module with an operation changed. -/
def onOp (s : State) (id : Nat) (f : Op → Op) : State := { s with ops := s.ops.map (fun o => if o.id = id then f o else o) }

/-- The module without an operation. -/
def dropOp (s : State) (id : Nat) : State := { s with ops := s.ops.filter (fun o => o.id != id) }

/-- The module without an operation for which no instruction waits. -/
def forget (s : State) (id : Nat) : State := { s with ops := s.ops.filter (fun o => o.id != id || o.pend) }

/-- An operation's answer for the instruction that waits for it; where none does, it is over. -/
def answerOp (s : State) (id : Nat) (vals : List Nat) : State :=
  onOp (forget s id) id (fun o => { o with answer := some vals, rd := s.devtime })

/-- An operation that the running strand issues. -/
def myOp (s : State) (k : OpKind) : Op :=
  { id := s.nextId, kind := k, core := s.cur.1, slot := s.cur.2, task := s.me.task, ctx := s.me.ctx, asid := s.me.asid,
    priv := s.me.priv, pc := s.me.pc.toNat, since := s.devtime }

/-- Pieces of an access of a core that leave it: remote requests (R156). -/
def remotePieces (c : Nat) (ps : List Piece) : Nat :=
  (ps.filter (fun p => !p.hit && !(isScratch p.key && tagOf p.ptr != 5 && keyCore p.key == c))).length

/-- Remote requests that an operation has outstanding, until its reply or acknowledgement: its pieces, one to a handler table, a multicast's
or a group's root; the writes and reads of an engine are not the core's (R156, R400, R402). -/
def opRemote (o : Op) : Nat :=
  match o.kind with
  | .handler _ _ | .mcast _ _ | .join | .leave | .gsize => if o.answer.isSome then 0 else 1
  | .copy | .copym => 0
  | _ => remotePieces o.core o.pieces

/-- An operation under way, with its counter risen (R77) and its remote requests counted (R274). -/
def startOp (s : State) (o : Op) : State :=
  { ((perf s o.core 0x13 (opRemote o)).onMe (fun t => t.rise? o.ctr)) with
    ops := s.ops ++ [o], nextId := s.nextId + 1 }

/-- A piece of an operation enters the queue of its scratchpad bank, where another core's regions are checked (R140, R141). -/
def enterBank (s : State) (o : Op) (i : Nat) (p : Piece) : State :=
  let c := keyCore p.key
  let bad := tagOf p.ptr != 1 && tagOf p.ptr != 5 && !regionOk s c o.ctx o.asid o.priv (keyOff p.key) p.n
  onOp (s.onCore c (fun k =>
    let b := spBank (keyOff p.key)
    { k with bankq := mapSet k.bankq b ((mapGet [] k.bankq b) ++ [(o.id, i)]) })) o.id (fun o => { o with
      pieces := o.pieces.modify i (fun p => { p with queued := true, fault := if bad then some (.prot, 0, p.ptr) else p.fault }) })

/-- Whether a bank of a core has a free place in its queue of eight (R140). -/
def bankRoom (s : State) (core bank : Nat) : Bool := decide ((mapGet [] (s.core core).bankq bank).length < 8)

/-- A piece that waits to enter the queue of a bank: of an access in the network, or of a lane for which the queue had no place. -/
def entersBank (core bank : Nat) (p : Piece) : Bool :=
  isScratch p.key && !p.done && !p.queued && keyCore p.key == core && spBank (keyOff p.key) == bank

/-- Whether a piece of an operation may enter its bank's queue now: there is a place, no earlier request of its core to that core waits
before it (R33), and no earlier access of its task to its locations is still to come (R161). -/
def mayEnter (s : State) (o : Op) (i : Nat) (p : Piece) : Bool :=
  bankRoom s (keyCore p.key) (spBank (keyOff p.key)) && pieceReady s o i p &&
    !s.ops.any (fun x => x.core == o.core && decide (x.id < o.id) &&
      x.pieces.any (entersBank (keyCore p.key) (spBank (keyOff p.key)))) &&
    !(o.pieces.take i).any (entersBank (keyCore p.key) (spBank (keyOff p.key)))

/-- The bank queues of an operation's own core with its pieces entered, in ascending lanes, as far as there are places; a request to
another core's bank enters when it arrives there (R140, R142). -/
def enqueue (s : State) (id : Nat) : List Piece → Nat → State
  | [], _ => s
  | p :: t, i =>
    let s := match findOp s id with
      | some o => if isScratch p.key && !p.done && keyCore p.key == o.core && mayEnter s o i p then enterBank s o i p else s
      | none => s
    enqueue s id t (i + 1)

/-- Remote requests of a core that are outstanding (R156), those of PREF.home among them. -/
def remoteCount (s : State) (c : Nat) : Nat :=
  ((s.ops.filter (fun o => o.core == c)).map opRemote).sum + (s.fills.filter (fun x => x.2.1 == c)).length

/-- Whether a local access finds its bank's queue full, or lanes of an earlier one waiting for a place in it (R140). -/
def bankFull (s : State) (ps : List Piece) : Bool :=
  ps.any (fun p => isScratch p.key && keyCore p.key == s.cur.1 &&
    (!bankRoom s s.cur.1 (spBank (keyOff p.key)) ||
      s.ops.any (fun x => x.core == s.cur.1 && x.pieces.any (entersBank s.cur.1 (spBank (keyOff p.key))))))

/-- Whether the access would pass the limit of 64 remote requests of its core (R156). -/
def remoteFull (s : State) (ps : List Piece) : Bool :=
  remotePieces s.cur.1 ps != 0 && decide (remoteCount s s.cur.1 + remotePieces s.cur.1 ps > 64)

/-- Whether an acquire load of the strand has not yet returned: no later access issues (R164, R418). -/
def acquiring (s : State) : Bool := s.ops.any (fun o => o.task == s.me.task && o.acq.isSome)

/-- A form that issues accesses of its own: a short stall while an acquire load of the strand has not returned (R164). -/
def afterAcquire (k : State → Res) (s : State) : Res := if acquiring s then .stall s .retry else k s

/-- The copy of a line in a core's L1 that may serve a load of the strand now: its lease runs past the guard and it was
granted at or after the freshness floor (R144, R163). -/
def l1Hit (s : State) (c : Nat) (flr : Nat) (line : Nat) : Option L1Line :=
  (s.core c).l1.find? (fun x => x.line == line && decide (s.devtime + 2 < x.leaseEnd) && decide (flr ≤ x.grant))

/-- The value of some bytes of a copy. -/
def l1Value (x : L1Line) (k n : Nat) : Nat := leNat ((x.bytes.drop (k % 64)).take n)

/-- Whether no earlier access of the running strand to some bytes is under way: one that is not applied yet, or whose answer has not
come (R161, R176). -/
def settled (s : State) (k n : Nat) : Bool :=
  !s.ops.any (fun o => o.task == s.me.task && o.pieces.any (fun y => !y.hit && overlaps (locOf s y) y.n k n))

/-- A piece of a load that a copy in the core's L1 serves: done, with the copy's value (R144, R160). -/
def l1Serve (s : State) (p : Piece) : Piece :=
  if (tagOf p.ptr == 0 || tagOf p.ptr == 4) && isHbm p.key && settled s p.key p.n then
    match l1Hit s s.cur.1 s.me.flr (p.key / 64) with
    | some x => { p with done := true, hit := true, val := l1Value x p.key p.n }
    | none => p
  else p

/-- The pieces of an access as they issue: those of a load that a copy serves are done. -/
def served (a : Acc) (s : State) (ps : List Piece) : List Piece :=
  match a with | .load | .ld => ps.map (l1Serve s) | _ => ps

/-- An access of the running strand: the acquire that holds it back, its checks, the walk that it waits for, the queues that it
finds full; then `k` with its pieces. -/
def access (a : Acc) (lanes : List Lane) (k : List Piece → State → Res) (s : State) : Res :=
  match locateAll s a lanes with
  | .trap c sub tval => .trap s c sub tval
  | .walk x y z => startWalk s x y z
  | .pieces ps =>
    if acquiring s || bankFull s ps || remoteFull s (served a s ps) then .stall s .retry else k (served a s ps) s

/-! ## Watches (R85) -/

/-- Whether a watch register matches an access of a kind: 0 a read, 1 a write, 2 an update. -/
def watchMatch (kind : Nat) (w p : Word) : Bool :=
  bits w 63 6 == bits p 63 6 &&
    (match kind with
     | 0 => bits w 0 0 == 1
     | 1 => bits w 1 1 == 1
     | _ => bits w 1 0 != 0)

/-- The lowest lane that matches a watch. -/
def watchHit (t : Strand) (kind : Nat) (lanes : List Lane) : Option Word :=
  (lanes.find? (fun l => t.watch.toList.any (fun w => watchMatch kind w l.ptr))).map (·.ptr)

/-- A strand stopped by BRK or a watch: it is to be saved with the PC after its instruction; without a free image it traps with that
cause (R282). -/
def stopped (why : SaveWhy) (c : Cause) (tval : Word) (s : State) : Res :=
  match beginSave s s.cur.1 s.cur.2 why with
  | some s => .ok s
  | none => .trap s c 0 tval

/-- A completed access, stopped by a watch that it matches (R85). -/
def watched (kind : Nat) (lanes : List Lane) (s : State) : Res :=
  match watchHit s.me kind lanes with
  | some p => stopped (.watch p s.me.pc.toNat s.devtime) .watch p s
  | none => .ok s

/-! ## What a bank does -/

/-- Whether any unit of a range is poisoned (R291). -/
def poisoned (s : State) (k n : Nat) : Bool :=
  (List.range ((k - unitOf k + n + unitSize k - 1) / unitSize k)).any (fun i =>
    unitBad s (unitOf k + i * unitSize k))

/-- The condition of WAITC (R185). -/
def condHolds (cond : Nat) (v b : Word) : Bool :=
  match cond with
  | 0 => v == b
  | 1 => v != b
  | 2 => decide (b.toNat ≤ v.toNat)
  | _ => decide (v.toNat < b.toNat)

/-- The launch whose fence monitor some have met within its time records the value with which it was met, and the instant (R256). -/
def meetFences (now : Nat) (ms : List Monitor) (v : Monitor → Nat) (l : Launch) : Launch :=
  match ms.find? (fun m => m.op == l.id) with
  | some m => if now < l.since + 1000 * l.timeout then { l with met := some (v m), metAt := now } else l
  | none => l

/-- The monitors that an application at some bytes wakes: freed, their waits, of strands and of launches, answered with the value
(R185, R256). -/
def wakeMonitors (s : State) (k n : Nat) : State :=
  let hit := s.monitors.filter (fun m => overlaps m.key 8 k n && condHolds m.cond (word (readNat s m.key 8)) m.cmp)
  let s' := hit.foldl (fun s m => answerOp s m.op [readNat s m.key 8]) s
  { s' with
    monitors := s.monitors.filter (fun m => !hit.contains m)
    dies := s.dies.map (fun p => (p.1, { p.2 with launches := p.2.launches.map (meetFences s.devtime hit (fun m => readNat s m.key 8)) })) }

/-- The sum of an element of a reduction line: the base and the slots in ascending core index (R183). -/
def redSum (i64 : Bool) (base : Nat) (slots : List RedSlot) (e : Nat) : Nat :=
  slots.foldl (fun a r => match mapGet? r.elems e with
    | some v => if i64 then (a + v.toNat) % 2 ^ 64 else (fpAdd f32 .rne (fpOf f32 a) (fpOf f32 (v.toNat % 2 ^ 32))).bits
    | none => a) base

/-- The elements of a line written with their sums. -/
def redWrite (s : State) (r : RedLine) (w : Nat) : Nat → State
  | 0 => s
  | e + 1 =>
    let s := redWrite s r w e
    let k := r.line * 64 + e * w
    writeNat s k (redSum r.i64 (readNat s k w) r.slots e) (2 ^ w - 1) w

/-- The collapse of a reduction line (R183). For an access other than a store a poisoned base refuses it and the slots are
kept; a store completes it, and the contributions to the poisoned base are discarded (R291). The second part tells whether it
was refused. -/
def collapse (s : State) (k : Nat) (store : Bool) : State × Bool :=
  match s.redLines.find? (fun r => isHbm k && r.line == k / 64) with
  | none => (s, false)
  | some r =>
    let freed := { s with redLines := s.redLines.filter (fun x => x.line != r.line) }
    if unitBad s (r.line * 64) then (if store then freed else s, !store)
    else (wakeMonitors (redWrite freed r (if r.i64 then 8 else 4) (if r.i64 then 8 else 16)) (r.line * 64) 64, false)

/-- A write applied at its bank: it collapses the line, its enabled bytes are written, it clears the poison of a unit that it
covers whole, and wakes monitors (R145, R183, R185, R291). -/
def applyWrite (s : State) (k n data en : Nat) : State :=
  let s := (collapse s k true).1
  let s := writeNat s k data en n
  let s := if n = unitSize k ∧ k = unitOf k ∧ en % 2 ^ n = 2 ^ n - 1 then setBad s k false else s
  wakeMonitors s k n

/-- Bytes written by an engine, unit by unit. -/
def applyBytes (s : State) (k : Nat) (l : List Byte) : State := applyWrite s k l.length (leNat l) (2 ^ l.length - 1)

/-- A read served at its bank: it collapses the line; POISON where a unit is poisoned (R183, R291). -/
def applyRead (s : State) (k n : Nat) : State × Option Nat :=
  let (s, refused) := collapse s k false
  if refused || poisoned s k n then (s, none) else (s, some (readNat s k n))

/-- The completion time of an application: the line's recorded lease end, or the instant at a scratchpad (R145, R162). -/
def tcOf (s : State) (k : Nat) : Nat :=
  if isHbm k then Nat.max s.devtime (mapGet 0 s.leases (k / 64)) else s.devtime

/-- The new value of an AMO (R179). -/
def amoNew (op : AmoOp) (w x b : Nat) : Nat :=
  let m := 2 ^ (8 * w)
  match op with
  | .add => (x + b) % m
  | .and => x &&& (b % m)
  | .or => x ||| (b % m)
  | .xor => x ^^^ (b % m)
  | .min => if signExt (b % m) (8 * w) < signExt x (8 * w) then b % m else x
  | .max => if signExt x (8 * w) < signExt (b % m) (8 * w) then b % m else x
  | .swap => b % m

/-! ### Update functions (R180, R181) -/

/-- A register of the update unit: the eight registers as a list. -/
def uReg (r : List Nat) (i : Nat) : Nat := (r[i]?).getD 0

/-- One micro-operation of `w` bytes on the registers (Table 9.2). -/
def microOp (w : Nat) (i : Nat) (r : List Nat) : List Nat :=
  let m := 2 ^ (8 * w)
  let d := nbits i 26 24
  let a := uReg r (nbits i 23 21)
  let b := uReg r (nbits i 20 18)
  let x := signExt a (8 * w)
  let y := signExt b (8 * w)
  let sh := b % 64
  let v := match nbits i 31 27 with
    | 1 => a + b
    | 2 => a + m - b
    | 3 => a &&& b
    | 4 => a ||| b
    | 5 => a ^^^ b
    | 6 => if x ≤ y then a else b
    | 7 => if x ≤ y then b else a
    | 8 => Nat.min a b
    | 9 => Nat.max a b
    | 10 => a * 2 ^ sh
    | 11 => a / 2 ^ sh
    | 12 => if a = b then 1 else 0
    | 13 => if a < b then 1 else 0
    | 14 => if uReg r d ≠ 0 then a else b
    | 15 => (signExt (nbits i 16 0) 17 % (m : Int)).toNat
    | 16 => (fpAdd f32 .rne (fpOf f32 a) (fpOf f32 b)).bits
    | _ => (fpMinMax f32 true a b).bits
  r.set d (v % m)

/-- The micro-operations up to STOP. -/
def runMicro (w : Nat) : List (BitVec 32) → List Nat → List Nat
  | [], r => r
  | i :: t, r => if nbits i.toNat 31 27 = 0 then r else runMicro w t (microOp w i.toNat r)

/-- An update function applied: the new value and what it returns (R181). -/
def runUfn (f : UpdateFn) (x a b : Nat) : Nat × Nat :=
  let w := if f.wide then 8 else 4
  let m := 2 ^ (8 * w)
  let r := runMicro w f.body [x % m, a % m, b % m, 0, 0, 0, x % m, x % m]
  (uReg r 6, uReg r 7)

/-! ### Leases and copies -/

/-- The lines of a set beyond its eighth way, least recently used first, are dropped (R143). The set of a line is its number modulo
128, the model's choice (log 83). -/
def l1Trim (line : Nat) (l : List L1Line) : List L1Line :=
  let keep := ((l.filter (fun x => x.line % 128 == line % 128)).take 8).map (·.line)
  l.filter (fun x => x.line % 128 != line % 128 || keep.contains x.line)

/-- A copy put into an L1, most recently used first. -/
def l1Put (k : Core) (x : L1Line) : Core :=
  { k with l1 := l1Trim x.line (x :: k.l1.filter (fun y => y.line != x.line)) }

/-- A hit makes its line the most recently used. -/
def l1Use (k : Core) (line : Nat) : Core :=
  match k.l1.find? (fun x => x.line == line) with
  | some x => { k with l1 := x :: k.l1.filter (fun y => y.line != line) }
  | none => k

/-- A lease granted on a line for an ASID: the latest end is recorded (R144). -/
def grantLease (s : State) (asid line : Nat) : State × Nat :=
  let e := s.devtime + leaseOf s asid
  ({ s with leases := mapSet s.leases line (Nat.max e (mapGet 0 s.leases line)) }, e)

/-- The step from which a byte of a copy stands. -/
def L1Line.stamp (x : L1Line) (b : Nat) : Nat := mapGet x.no x.stamps b

/-- A copy with a byte of a store applied at a step; a byte that a later application gave stays (R145, R161). -/
def L1Line.put (x : L1Line) (at_ b : Nat) (v : Byte) : L1Line :=
  if x.stamp b ≤ at_ then { x with bytes := x.bytes.set b v, stamps := mapSet x.stamps b at_ } else x

/-- A copy with the enabled bytes of an applied piece. -/
def L1Line.merge (x : L1Line) (p : Piece) : L1Line :=
  (List.range p.n).foldl (fun x j =>
    if p.en / 2 ^ j % 2 = 1 then x.put p.at_ (p.key % 64 + j) (BitVec.ofNat 8 (p.data / 256 ^ j)) else x) x

/-- The writer's own copy updated with a store's bytes; it keeps its lease (R145). -/
def l1Merge (k : Core) (p : Piece) : Core :=
  { k with l1 := k.l1.map (fun x => if isHbm p.key && x.line == p.key / 64 then x.merge p else x) }

/-- Whether a copy is older than what a bank served to a piece (R161). -/
def L1Line.stale (x : L1Line) (p : Piece) : Bool :=
  isHbm p.key && x.line == p.key / 64 && (List.range p.n).any (fun j => decide (x.stamp (p.key % 64 + j) < p.at_))

/-- The answer of an access reaches a core: its own copies take the bytes that it wrote, and a copy older than what it read, or than a
RED that it made, leaves (R145, R160, R161, log 79). -/
def l1Answer (o : Op) (k : Core) : Core :=
  (o.pieces.filter (fun p => p.done && !p.hit && p.fault.isNone)).foldl (fun k p =>
    match o.kind with
    | .store => l1Merge k p
    | _ => (fun (k : Core) => { k with l1 := k.l1.filter (fun x => !x.stale p) }) (l1Merge k p)) k

/-! ### Applying a piece -/

/-- A piece marked done with a value or a fault, in its operation; the completion time and read instant rise (R162, R160). -/
def donePiece (s : State) (id i : Nat) (val tc : Nat) (fault : Option (Cause × Nat × Word)) : State :=
  onOp s id (fun o => { o with
    pieces := o.pieces.modify i (fun p => { p with done := true, val := val, fault := fault, at_ := s.tick })
    tc := Nat.max o.tc tc
    rd := Nat.max o.rd s.devtime })

/-- The bytes that an atomic's piece wrote, for the copies of its core (R145). -/
def wrotePiece (s : State) (id i n v : Nat) : State :=
  onOp s id (fun o => { o with pieces := o.pieces.modify i (fun p => { p with data := v, en := 2 ^ n - 1 }) })

/-- The index of an operation's first destination register, as TVAL of REMOTE holds it (R303, R500). -/
def regIndex (o : Op) : Word := match o.regs with | .s r :: _ => word r | .v r :: _ => word r | .k r :: _ => word r | [] => 0

/-- Whether an operation is an atomic. -/
def isAtomic (k : OpKind) : Bool := match k with | .amo _ _ _ | .cas _ _ _ | .ufn _ _ _ => true | _ => false

/-- The update unit of a location: of a home bank, or of a scratchpad bank (R180). -/
def updateUnit (k : Nat) : Nat := if isScratch k then 8192 + keyCore k * 16 + spBank (keyOff k) else stackOf k / 4 * 64 + bankOf k

/-- The function of a number at a unit, or in the mask of a core, unit 2^20 + core: while a UFNCFG waits for acknowledgements each unit
switches at an instant of its own, which is free (R501, log 23). -/
def functionAt (s : State) (unit f : Nat) : State × Option UpdateFn :=
  match s.ops.reverse.find? (fun o => (match o.kind with | .ufncfg g _ _ => g == f | _ => false) &&
      (o.members.contains unit || Config.unitSwitches s.tick unit)) with
  | some o =>
    (onOp s o.id (fun o => { o with members := if o.members.contains unit then o.members else unit :: o.members }),
     match o.kind with | .ufncfg _ w body => some ⟨w, body⟩ | _ => none)
  | none => (s, mapGet? s.ufns f)

/-- A write's data as it stands at a location of the operation: the update functions read it first. -/
def updatePiece (s : State) (o : Op) (i : Nat) (p : Piece) (k : Nat) : State :=
  match applyRead s k p.n with
  | (s, none) => donePiece s o.id i 0 s.devtime (some (.poison, 0, p.ptr))
  | (s, some x) =>
    match o.kind with
    | .amo op w b =>
      let v := amoNew op w x b.toNat
      donePiece (wrotePiece (applyWrite s k w v (2 ^ w - 1)) o.id i w v) o.id i x (tcOf s k) none
    | .cas w old new =>
      if x = old.toNat % 2 ^ (8 * w) then
        let v := new.toNat % 2 ^ (8 * w)
        donePiece (wrotePiece (applyWrite s k w v (2 ^ w - 1)) o.id i w v) o.id i x (tcOf s k) none
      else donePiece s o.id i x s.devtime none
    | .ufn f a b =>
      match functionAt s (updateUnit k) f with
      | (s, some g) =>
        let (new, ret) := runUfn g x a.toNat b.toNat
        donePiece (wrotePiece (applyWrite s k p.n new (2 ^ p.n - 1)) o.id i p.n new) o.id i ret (tcOf s k) none
      | (s, none) => donePiece s o.id i 0 s.devtime (some (.remote, 0, regIndex o))
    | _ => donePiece s o.id i x s.devtime none

/-- Slots of reduction lines in use at a home bank (R184). -/
def redSlotsAt (s : State) (pa : Nat) : Nat :=
  ((s.redLines.filter (fun r => bankOf (r.line * 64) == bankOf pa && stackOf (r.line * 64) / 4 == stackOf pa / 4)).map
    (·.slots.length)).sum

/-- A value of a context added into an element of a core's slot (R182). -/
def redInto (i64 : Bool) (ctx e : Nat) (v : Word) (r : RedSlot) : RedSlot :=
  { r with ctxs := if r.ctxs.contains ctx then r.ctxs else ctx :: r.ctxs, elems := mapSet r.elems e (match mapGet? r.elems e with
      | none => if i64 then v else word (v.toNat % 2 ^ 32)
      | some x => if i64 then x + v
        else word (fpAdd f32 .rne (fpOf f32 (x.toNat % 2 ^ 32)) (fpOf f32 (v.toNat % 2 ^ 32))).bits) }

/-- A slot put into a line in ascending core index. -/
def redInsert (x : RedSlot) : List RedSlot → List RedSlot
  | [] => [x]
  | r :: t => if x.core < r.core then x :: r :: t else if x.core = r.core then x :: t else r :: redInsert x t

/-- Whether a RED needs a slot at a bank that has none free; a line of the other type collapses first, which frees its slots (R182,
R184). -/
def redFull (s : State) (o : Op) (p : Piece) (i64 : Bool) : Bool :=
  match s.redLines.find? (fun r => r.line == p.key / 64) with
  | some r =>
    if r.i64 = i64 then !r.slots.any (fun x => x.core == o.core) && decide (4096 ≤ redSlotsAt s p.key)
    else decide (4096 ≤ redSlotsAt s p.key - r.slots.length)
  | none => decide (4096 ≤ redSlotsAt s p.key)

/-- A RED applied into the issuing core's slot; a line of the other type collapses first (R182). -/
def redPiece (s : State) (o : Op) (i : Nat) (p : Piece) (i64 : Bool) (v : Word) : State :=
  let other := s.redLines.any (fun r => r.line == p.key / 64 && r.i64 != i64)
  let (s, refused) := if other then collapse s p.key false else (s, false)
  if refused then donePiece s o.id i 0 s.devtime (some (.poison, 0, p.ptr))
  else
    let w := if i64 then 8 else 4
    let line := (s.redLines.find? (fun r => r.line == p.key / 64)).getD ⟨p.key / 64, i64, []⟩
    let slot := (line.slots.find? (fun x => x.core == o.core)).getD ⟨o.core, [], []⟩
    let line := { line with slots := redInsert (redInto i64 o.ctx (p.key % 64 / w) v slot) line.slots }
    donePiece { s with redLines := line :: s.redLines.filter (fun r => r.line != p.key / 64) } o.id i 0 (tcOf s p.key) none

/-- Whether a QPOP.w waits in a monitor entry of the home bank of a line (R196). -/
def popWaits (k : Nat) (o : Op) : Bool :=
  match o.kind with
  | .qpop _ true _ _ => o.phase == 2 && o.pieces.any (fun p => bankOf p.key == bankOf k && stackOf p.key / 4 == stackOf k / 4)
  | _ => false

/-- The entries of the monitor table that a location's monitor takes (R185), those of waiting QPOP.w among them (R196). -/
def monitorsAt (s : State) (k : Nat) : Nat :=
  (if isHbm k then (s.ops.filter (popWaits k)).length else 0) + (s.monitors.filter (fun m =>
    if isHbm k then isHbm m.key && bankOf m.key == bankOf k && stackOf m.key / 4 == stackOf k / 4
    else isScratch m.key && keyCore m.key == keyCore k)).length

/-- The strand that waits at an operation is BLOCKED in it (R40). -/
def blockWaiter (s : State) (o : Op) : State :=
  s.onTask o.task (fun t => if t.st = .stalled ∧ t.wait = .op o.id then { t with st := .blocked } else t)

/-- WAITC at the bank: it completes at once when the value meets the condition; otherwise its strand is BLOCKED, and its monitor is
registered, or with a full table it is to be read again in 1 us (R174, R186). A read again that finds an entry free registers the
monitor, the model's choice (log 80). -/
def monitorPiece (s : State) (o : Op) (i : Nat) (p : Piece) (cond : Nat) (b : Word) : State :=
  match applyRead s p.key 8 with
  | (s, none) => donePiece s o.id i 0 s.devtime (some (.poison, 0, p.ptr))
  | (s, some x) =>
    let s := donePiece s o.id i x s.devtime none
    if condHolds cond (word x) b then answerOp s o.id [x]
    else
    let s := blockWaiter s o
    if monitorsAt s p.key < (if isHbm p.key then 1024 else 64) then
      onOp { s with monitors := s.monitors ++ [⟨o.id, p.key, cond, b⟩] } o.id (fun o =>
        { o with kind := .waitc cond b true 0 })
    else onOp s o.id (fun o => { o with kind := .waitc cond b false (s.devtime + 1000) })

/-- A piece of an operation applied at a location of this device. -/
def applyLocal (s : State) (o : Op) (i : Nat) (p : Piece) (k : Nat) : State :=
  let s := touchKey s o.ctx k
  match o.kind with
  | .load _ _ | .loadVec _ | .gather _ _ =>
    match applyRead s k p.n with
    | (s, some x) => donePiece s o.id i x s.devtime none
    | (s, none) => donePiece s o.id i 0 s.devtime (some (.poison, 0, p.ptr))
  | .amo _ _ _ | .cas _ _ _ | .ufn _ _ _ => updatePiece s o i p k
  | .red i64 v => redPiece s o i p i64 v
  | .waitc cond b _ _ => monitorPiece s o i p cond b
  | _ => donePiece (applyWrite s k p.n p.data p.en) o.id i 0 (tcOf s k) none

/-- Whether a port is READY (Table 15.2). -/
def portReady (p : Port) : Bool := bits p.stat 2 0 == 6

/-- The die at whose edge gateway the packets of a core, or of the launch unit of die `c` - 8,192, leave (R302). -/
def gatewayOf (c : Nat) : Nat := if c < 8192 then dieOf c else (c - 8192) % 4

/-- The ports of a mask in the order in which a flow takes them: from the one that the hash of its endpoints picks (R302). -/
def flowPorts (mask : BitVec 16) (src dev dst : Nat) : List Nat :=
  let l := (List.range 16).filter mask.getLsbD
  let h := Config.routeHash src dev dst % l.length
  l.drop h ++ l.take h

/-- The port by which a packet of a core for a core of a device leaves: the first of its flow's ports that is READY and not a lost die's, of
the route table of its gateway (R293). The own device's identifier is routed as any other (R136, R302, R303). -/
def linkPort (s : State) (src dev dst : Nat) : Option Nat :=
  (flowPorts (mapGet 0 s.routes (gatewayOf src * 4096 + dev)) src dev dst).find? (fun n =>
    portReady (mapGet {} s.ports n) && !(s.die (n / 4)).lost)

/-- Whether such a packet finds a READY port. -/
def linkReady (s : State) (src dev dst : Nat) : Bool := (linkPort s src dev dst).isSome

/-- The core that a peer pointer's key names, 0 for one of its global map (Table 7.2). -/
def peerCore (k : Nat) : Nat :=
  let a := k - 2 ^ 60
  if nbits a 47 44 = 3 then nbits a 43 42 * 2048 + nbits a 41 31 else 0

/-- Whether a peer location has a port to be reached by. -/
def keyReady (s : State) (src k : Nat) : Bool := !isPeer k || linkReady s src (nbits (k - 2 ^ 60) 59 48) (peerCore k)

/-- Whether the peer accesses that an operation still owes have ports to leave by (R303). -/
def reachable (s : State) (o : Op) : Bool := o.pieces.all (fun p => p.done || keyReady s o.core p.key)

/-- Whether an operation writes at its target. -/
def writes (k : OpKind) : Bool := match k with | .load _ _ | .loadVec _ | .gather _ _ | .waitc _ _ _ _ => false | _ => true

/-- The free bytes that another device or the host returns. -/
def freeNat (f : Nat → Nat → BitVec 8) (tick k : Nat) : Nat → Nat
  | 0 => 0
  | n + 1 => (f tick k).toNat + 256 * freeNat f tick (k + 1) n

/-- REMOTE for a peer access without a port (R303). -/
def noPort (o : Op) : Cause × Nat × Word := (.remote, 0, if isAtomic o.kind || writes o.kind then BitVec.allOnes 64 else regIndex o)

/-- The refusals that a peer may answer: PAGE, PROT, STALEXLAT, to what is not a store POISON, and to an update function that it lacks
REMOTE (R158, R480, R500). -/
def peerRefusal (a : Nat) (p : Piece) (o : Op) : Cause × Nat × Word :=
  match a % (match o.kind with | .ufn _ _ _ => 5 | .store => 3 | _ => 4) with
  | 0 => (.page, 0, p.ptr)
  | 1 => (.prot, 0, p.ptr)
  | 2 => (.stalexlat, 0, p.ptr)
  | 3 => (.poison, 0, p.ptr)
  | _ => (.remote, 0, regIndex o)

/-! ### Translations given to peers (R157) -/

/-- The translation that a page of the export map has for a peer: its place among those given out. -/
def genOf (s : State) (asid page : Nat) : Option (Xlat × Nat × List Nat) := s.gens.find? (fun g => xlatHas asid 4 page g.1)

/-- A peer asks for a translation of the global map: it is given out with the page's generation and the peer is recorded (R157). The
first generation of a page is 0, the model's choice (log 84). -/
def giveXlat (s : State) (dev va : Nat) : State :=
  let (asid, on) := mapGet (0, false) s.exports dev
  if !on then s
  else
    match genOf s asid (va / 4096), walk s asid 4 va with
    | some g, .ok _ => { s with gens := s.gens.map (fun h => if h = g then (g.1, g.2.1, (dev :: g.2.2).dedup) else h) }
    | none, .ok x => { s with gens := s.gens ++ [(x, 0, [dev])] }
    | _, .error _ => s

/-- The generation of a page of a device's export map, 0 where none has been given out. -/
def genNow (s : State) (dev va : Nat) : Nat :=
  match genOf s (mapGet (0, false) s.exports dev).1 (va / 4096) with | some g => g.2.1 | none => 0

/-- Whether a peer's access to the global map arrives with the current generation of a translation that it holds (R157). -/
def genFresh (s : State) (dev va gen : Nat) : Bool :=
  match genOf s (mapGet (0, false) s.exports dev).1 (va / 4096) with
  | some g => g.2.1 == gen && g.2.2.contains dev
  | none => false

/-- The page of a peer's export map that a key names, as the gateways' caches name it. -/
def gatewayPage (k : Nat) : Xlat :=
  let a := k - 2 ^ 60
  { asid := nbits a 59 48, space := 5, page := nbits a 43 0 / 4096, pages := 1, frame := 0, perm := 0 }

/-- The cached translation of a gateway for a key, with its generation (R157). -/
def gatewayGet (s : State) (die k : Nat) : Option Nat :=
  (s.rtlb.find? (fun x => x.1 == die && x.2.1 == gatewayPage k)).map (·.2.2)

/-- A translation kept by the gateway of a die with the generation that the peer answered, free for another device: 2,048 entries, the
oldest replaced (R157). -/
def gatewayPut (s : State) (die k : Nat) : State :=
  if nbits (k - 2 ^ 60) 47 44 ≠ 4 ∨ (gatewayGet s die k).isSome then s
  else
    let own := isSelfPeer s k
    let s := if own then giveXlat s s.fabid.toNat (nbits (k - 2 ^ 60) 43 0) else s
    let gen := if own then genNow s s.fabid.toNat (nbits (k - 2 ^ 60) 43 0) else freeNat Config.peerByte s.tick k 2
    { s with rtlb := (die, gatewayPage k, gen) :: (s.rtlb.filter (fun x => x.1 == die)).take 2047 ++ s.rtlb.filter (fun x => x.1 != die) }

/-- A translation that the gateway of a die discards (R157). -/
def gatewayDrop (s : State) (die k : Nat) : State :=
  { s with rtlb := s.rtlb.filter (fun x => !(x.1 == die && x.2.1 == gatewayPage k)) }

/-- An access to the own device as a peer, at its gateway and its target: the gateway asks for the translation where it holds none, a
generation no longer current is refused with STALEXLAT and discarded, and the target checks it as any peer's (R136, R152, R157). -/
def selfTarget (s : State) (die need : Nat) (p : Piece) : State × Except (Cause × Nat × Word) Nat :=
  let s := gatewayPut s die p.key
  let va := nbits (p.key - 2 ^ 60) 43 0
  if nbits (p.key - 2 ^ 60) 47 44 = 4 ∧ (mapGet (0, false) s.exports s.fabid.toNat).2 ∧
      (genOf s (mapGet (0, false) s.exports s.fabid.toNat).1 (va / 4096)).isSome ∧
      !genFresh s s.fabid.toNat va ((gatewayGet s die p.key).getD 0) then
    (gatewayDrop s die p.key, .error (.stalexlat, 0, p.ptr))
  else (s, peerTargetOf s s.fabid.toNat need p)

/-- The cause and permission that an operation needs at a peer. -/
def peerNeed (o : Op) : Nat := if writes o.kind then 2 else 1

/-- An access of an operation to the own device as a peer comes back from the edge gateway: it goes on at the bank that it names, as a
peer's (R136); a refusal is the answer. -/
def selfArrive (s : State) (o : Op) (i : Nat) (p : Piece) : State :=
  match selfTarget s (gatewayOf o.core) (peerNeed o) p with
  | (s, .ok k) =>
    if onLostDie s k then donePiece s o.id i 0 s.devtime (some (.dielost, 0, word (lostMask s)))
    else onOp s o.id (fun o => { o with pieces := o.pieces.modify i (fun p => { p with key := k }) })
  | (s, .error f) => donePiece s o.id i 0 s.devtime (some f)

/-- A piece at another device or in host memory: another device answers freely, with a value or a refusal (log 12), its translation
kept by the gateway or, stale, discarded (R157); host memory returns free bytes (log 11). -/
def applyRemote (s : State) (o : Op) (i : Nat) (p : Piece) : State :=
  let a := (Config.peerAnswer s.tick).toNat
  if isHost p.key then
    if writes o.kind then donePiece s o.id i 0 s.devtime none
    else donePiece s o.id i (freeNat Config.hostByte s.tick p.key p.n) s.devtime none
  else if a < 128 then
    donePiece (gatewayPut s (gatewayOf o.core) p.key) o.id i (freeNat Config.peerByte s.tick p.key p.n) s.devtime none
  else
    let f := peerRefusal (a - 128) p o
    donePiece (if f.1 = .stalexlat then gatewayDrop s (gatewayOf o.core) p.key else s) o.id i 0 s.devtime (some f)

/-- A piece applied where it belongs; one refused by the regions of its target applies nothing. -/
def applyPiece (s : State) (o : Op) (i : Nat) (p : Piece) : State :=
  match p.fault with
  | some f => donePiece s o.id i 0 s.devtime (some f)
  | none => if isHost p.key || isPeer p.key then applyRemote s o i p else applyLocal s o i p p.key

/-- The piece that an event applies: the operation's piece of that index, not yet done and ready, at a home bank. -/
def homePiece (s : State) (id i : Nat) (ok : OpKind → Bool) : Option (Op × Piece) :=
  match findOp s id with
  | none => none
  | some o =>
    match o.pieces[i]? with
    | none => none
    | some p =>
      if ok o.kind && isHbm p.key && !p.done && pieceReady s o i p && homeRoom s (p.key / 64) then some (o, p) else none

/-- The source number of what acts for no core of this device: peer devices from here on (R136). -/
def peerSrc : Nat := 8196

/-- The request of another device is over once every piece of it is done. -/
def peerOver (s : State) (id : Nat) : State :=
  match findOp s id with
  | some o => if decide (peerSrc ≤ o.core) && o.pieces.all (·.done) then dropOp s id else s
  | none => s

/-- A piece performed at its home bank, which holds its line from then on (R146). -/
def applyHome (s : State) (o : Op) (i : Nat) (p : Piece) : State := peerOver (applyPiece (homeTake s (p.key / 64)) o i p) o.id

/-! ## Completing an access -/

/-- The faults of an operation's pieces, that of the lowest lane first. -/
def opFault (o : Op) : Option (Cause × Nat × Word) :=
  match o.fault with
  | some f => some f
  | none => o.pieces.findSome? (·.fault)

/-- A loaded value extended by its type (R416). -/
def loadExt (n : Nat) (signed : Bool) (v : Nat) : Nat :=
  if signed then (signExt v (8 * n) % (2 ^ 64 : Int)).toNat else v % 2 ^ (8 * n)

/-- A vector register with some lanes of `w` bytes replaced. -/
def laneWrite (w : Nat) (v : Vec) (i x : Nat) : Vec :=
  (v &&& ~~~(BitVec.ofNat 128 ((2 ^ (8 * w) - 1) * 2 ^ (8 * w * i)))) |||
    BitVec.ofNat 128 (x % 2 ^ (8 * w) * 2 ^ (8 * w * i))

/-- The bytes of a loaded unit that the mask selects put into a register (R420). -/
def bytesWrite (mask : BitVec 16) (v : Vec) (x : Nat) : Vec :=
  (List.range 16).foldl (fun v i => if mask.getLsbD i then laneWrite 1 v i (x / 256 ^ i % 256) else v) v

/-- The strand with what a completed load or atomic writes to its registers. -/
def loadInto (o : Op) (t : Strand) : Strand :=
  let first := (o.pieces.head?).map (·.val) |>.getD 0
  match o.kind, o.regs with
  | .load n sg, [.s r] => t.setS r (word (loadExt n sg first))
  | .loadVec m, [.v r] => t.setV r (bytesWrite m (t.v r) first)
  | .gather w _, [.v r] => t.setV r (o.pieces.foldl (fun v p => laneWrite w v p.lane p.val) (t.v r))
  | .amo _ w _, [.s r] => t.setS r (word (loadExt w true first))
  | .cas w _ _, [.s r] => t.setS r (word (loadExt w true first))
  | .ufn _ _ _, [.s r] => t.setS r (word (loadExt ((o.pieces.head?).map (·.n) |>.getD 8) true first))
  | _, rs => match o.answer with | some vs => t.setRegs rs vs | none => t

/-- The scopes at which an acquire raises the freshness floor (R164). -/
def raisesFloor : Option Scope → Bool | some .device => true | some .system => true | _ => false

/-- Whether an access is acknowledged with a completion time: a store, an atomic, a RED and what else counts in st (R162). -/
def givesTc (o : Op) : Bool := o.ctr == some .st || isAtomic o.kind

/-- A completed access's instants in its strand: the greatest read instant, of a write the release horizon, and the freshness floor of an
acquire (R163, R164). -/
def Strand.seen (t : Strand) (o : Op) : Strand :=
  let t := { t with rdMax := if o.ctr = some .ld then Nat.max t.rdMax o.rd else t.rdMax
                    hor := if givesTc o then Nat.max t.hor o.tc else t.hor }
  if raisesFloor o.acq then { t with flr := Nat.max t.flr o.rd } else t

/-- What the arrival of an answer does to its strand: its registers written, or the fault kept until it is raised; the counter
falls either way (R77, R158). -/
def Strand.arrive (o : Op) (t : Strand) : Strand :=
  let t := (t.fall? o.ctr).seen o
  match opFault o with
  | some (c, sub, tval) =>
    { t with faults := t.faults ++ [{ op := o.id, regs := o.regs, ctr := o.ctr, upd := isAtomic o.kind, cause := c, sub := sub, tval := tval,
                                         pc := o.pc }] }
  | none => loadInto o t

/-- Whether a core still forwards the replies of a task that left it: for 4 us (R45). -/
def forwards (s : State) (core task : Nat) : Bool := (s.core core).fwd.any (fun e => e.task == task && decide (s.devtime < e.till))

/-- The strand of a task changed wherever it stands: in a slot, or in a migration message within the 4 us of its forwarding
entry; a reply that comes later is dropped and its registers are lost (R45). -/
def onTaskAnywhere (s : State) (o : Op) (f : Strand → Strand) : State :=
  let late := fun (t : Strand) => { t.fall? o.ctr with lost := t.lost ++ o.regs }
  match s.taskSlot o.task with
  | some (c, i) => s.setSlot c i (if c = o.core || forwards s o.core o.task then f (s.slot c i) else late (s.slot c i))
  | none =>
    let g := fun (t : Strand) => if t.task = o.task then (if forwards s o.core o.task then f t else late t) else t
    { s with
      net := s.net.map (fun p => match p.body with | .migration ch t left => { p with body := .migration ch (g t) left } | _ => p)
      cores := s.cores.map (fun e => (e.1, { e.2 with rx := e.2.rx.map (fun m => { m with mig := m.mig.map g }) })) }

/-- The completion time of an acknowledged access reaches the engine commands that its task forked after it: their release at the fork
waits for it (R164, R169). -/
def raiseForks (s : State) (o : Op) : State :=
  if !givesTc o then s else
  { s with
    ops := s.ops.map (fun e => if e.fork = o.task ∧ e.fork ≠ 0 ∧ o.id < e.id then { e with hor := Nat.max e.hor o.tc } else e)
    clusters := s.clusters.map (fun p => (p.1, { p.2 with tileq := p.2.tileq.map (fun e =>
      if e.fork = o.task ∧ e.fork ≠ 0 ∧ o.id < e.n then { e with hor := Nat.max e.hor o.tc } else e) }))
    dies := s.dies.map (fun p => (p.1, { p.2 with ingest := p.2.ingest.map (fun e =>
      if e.task = o.task ∧ o.task ≠ 0 ∧ o.id < e.fork then { e with hor := Nat.max e.hor o.tc } else e) })) }

/-- Every piece that a remote target serves is served as the reply or acknowledgement comes. -/
def serveRemote (s : State) (o : Op) : List Piece → Nat → State
  | [], _ => s
  | p :: t, i =>
    serveRemote (if !p.done && (isHost p.key || isPeer p.key || p.fault.isSome) then applyPiece s o i p else s) o t (i + 1)

/-- The kind cache of a core filled from an answer of a home: 16 entries, the least recently used replaced (R198). -/
def kindPut (k : Core) (ctx handle kind : Nat) : Core :=
  { k with kinds := ((ctx, handle, kind) :: k.kinds.filter (fun e => !(e.1 == ctx && e.2.1 == handle))).take 16 }

/-- The permit cache entry of a context and handle changed. -/
def onPermit (k : Core) (ctx handle : Nat) (f : PermitEntry → PermitEntry) : Core :=
  { k with permits := k.permits.map (fun e => if e.ctx = ctx ∧ e.handle = handle then f e else e) }

/-- What the answer of a queue operation does to its core's caches: the kind, unless the operation was refused; the permits
granted and their expiry; the end of an operation through a permit entry (R194, R198). An answer carries the kind,
and that of PERMIT the expiry and whether the earlier permits stood at the home, in `args`. -/
def queueReply (s : State) (o : Op) : State :=
  if !isQueue o.kind then s
  else
    let h := o.ptr.toNat
    s.onCore o.core (fun k =>
      let k := match o.args with | kd :: _ => kindPut k o.ctx h kd.toNat | [] => k
      match o.kind with
      | .permit _ => onPermit k o.ctx h (fun e =>
          match o.answer, o.args with
          | some [g], [_, ex, stood] => { e with
              count := (if e.reserved.isNone ∧ stood = 0 then 0 else e.count) + g, expiry := Nat.max e.expiry ex.toNat, busy := e.busy - 1 }
          | _, _ => { e with busy := e.busy - 1 })
      | .qpush _ _ _ _ | .pret _ => onPermit k o.ctx h (fun e => { e with busy := e.busy - 1 })
      | _ => k)

/-- The bytes of an element held in words. -/
def elementBytes (size : Nat) (l : List Nat) : List Byte := (l.take (size / 8)).flatMap (fun v => leBytes 8 v)

/-- What the answer of a stream's pop does to its register: the element staged; after EMPTY the pop may be made again 64 mesh
cycles later; a refusal stays until the read that waits for it raises it (R149, R364). -/
def streamGot (now : Nat) (o : Op) (t : Strand) : Strand :=
  match o.kind with
  | .qpop size false _ _ =>
    if o.ctr.isSome then t
    else
      { t with strm := t.strm.map (fun q =>
          if q.pop = some o.id then
            match o.answer with
            | some l =>
              if l[size / 8]? = some 1 then
                { q with stage := q.stage ++ elementBytes size l, wptr := q.wptr + size, pop := none, retry := 0 }
              else { q with pop := none, retry := now + 32 }
            | none => q
          else q) }
  | _ => t

/-- The core on which a task stands: in a slot, or on its way there in a migration message, in the network or in the receive store (R44). -/
def taskCore (s : State) (task : Nat) : Option Nat :=
  match s.taskSlot task with
  | some (c, _) => some c
  | none =>
    match s.net.find? (fun p => match p.body with | .migration _ t _ => t.task == task | _ => false) with
    | some p => some p.dst
    | none => (s.cores.find? (fun e => e.2.rx.any (fun m => (m.mig.map (·.task)) == some task))).map (·.1)

/-- The copies of a core, and of the core to which its task has gone, as the answer of an access reaches them (R161, R176). -/
def answerCopies (s : State) (o : Op) : State :=
  let s' := s.onCore o.core (l1Answer o)
  match taskCore s o.task with
  | some c => if c = o.core then s' else s'.onCore c (l1Answer o)
  | none => s'

/-- The completion time that a peer's answer gives: DEVTIME of its arrival (R162). -/
def peerTc (s : State) (o : Op) : Op := if o.pieces.any (fun p => tagOf p.ptr == 5) then { o with tc := s.devtime } else o

/-- The completion of an operation counted in ld or st: served at remote targets, its stores merged into the core's own copies,
its answer delivered, the operation over. -/
def completeOp (s : State) (o : Op) : State :=
  let s := serveRemote s o o.pieces 0
  match findOp s o.id with
  | none => s
  | some o =>
    let o := peerTc s o
    let s := raiseForks (answerCopies s o) o
    dropOp (onTaskAnywhere (queueReply s o) o (fun t => streamGot s.devtime o (t.arrive o))) o.id

/-- Whether every piece is done or waits at a remote target: those of the own device are done, and their t_c reached (R162). -/
def repliable (s : State) (o : Op) : Bool :=
  o.pieces.all (fun p => p.done || isHost p.key || (isPeer p.key && !isSelfPeer s p.key)) &&
    (!o.pieces.any (fun p => p.done && tagOf p.ptr == 5) || decide (o.tc ≤ s.devtime))

end Sys2Proof.Machine
end

