-- ==== Sys2Proof/Machine/Sfu.lean ====
section
/-!
DEFINITION. The functions of the special-function unit, correctly rounded (R125, Table 6.3): division, square root,
reciprocal square root, 2^x, log2 x and tanh x.

Division and the roots are exact with a sticky tail.  The transcendental functions are irrational off their exact cases;
they are computed in fixed point with `fixBits` fraction bits and rounded with a sticky tail.
-/

namespace Sys2Proof.Machine

/-- Bits of a quotient's or root's magnitude kept below the leading one: more than any format needs. -/
def guardBits : Nat := 64

/-- The integer square root, one bit at a time from bit `k` down. -/
def isqrtFrom (n : Nat) : Nat → Nat → Nat
  | 0, r => r
  | k + 1, r =>
    let c := r + 2 ^ k
    isqrtFrom n k (if c * c ≤ n then c else r)

/-- The integer square root. -/
def isqrt (n : Nat) : Nat := isqrtFrom n (Nat.log2 n / 2 + 1) 0

/-- `x / y` (R395, Table 6.3). -/
def fpDiv (f : FloatFmt) (rm : Rm) (x y : Fp) : FpOut :=
  match x, y with
  | .nan _, _ => fpNaNOut f (sigFlag [x, y])
  | _, .nan _ => fpNaNOut f (sigFlag [x, y])
  | .inf _, .inf _ => fpNaNOut f flNV
  | .inf a, .fin b _ _ => fpInfOut f (a != b)
  | .fin a _ _, .inf b => fpZero f (a != b)
  | .fin a m e, .fin b n g =>
    if n = 0 then
      if m = 0 then fpNaNOut f flNV else { fpInfOut f (a != b) with flags := flDZ }
    else if m = 0 then fpZero f (a != b)
    else
      let k := guardBits + Nat.log2 n
      let u := m * 2 ^ k
      roundTo f rm (a != b) (u / n) (e - g - k) (u % n != 0)

/-- The value 1. -/
def fpOne : Fp := .fin false 1 0

/-- The magnitude of a finite value with an even exponent. -/
def evenExp (m : Nat) (e : Int) : Nat × Int := if e % 2 = 0 then (m, e) else (2 * m, e - 1)

/-- The square root (R395, Table 6.3). -/
def fpSqrt (f : FloatFmt) (rm : Rm) (x : Fp) : FpOut :=
  match x with
  | .nan s => fpNaNOut f (if s then flNV else 0)
  | .inf n => if n then fpNaNOut f flNV else fpInfOut f false
  | .fin n m e =>
    if m = 0 then fpZero f n
    else if n then fpNaNOut f flNV
    else
      let (m', e') := evenExp m e
      let u := m' * 2 ^ (2 * guardBits)
      let r := isqrt u
      roundTo f rm false r (e' / 2 - guardBits) (r * r != u)

/-- The reciprocal square root (R512, Table 6.3). -/
def fpRsq (f : FloatFmt) (rm : Rm) (x : Fp) : FpOut :=
  match x with
  | .nan s => fpNaNOut f (if s then flNV else 0)
  | .inf n => if n then fpNaNOut f flNV else fpZero f false
  | .fin n m e =>
    if m = 0 then { fpInfOut f n with flags := flDZ }
    else if n then fpNaNOut f flNV
    else
      let (m', e') := evenExp m e
      let u := 2 ^ (4 * guardBits)
      let r := isqrt (u / m')
      roundTo f rm false r (-(e' / 2) - 2 * guardBits) (r * r * m' != u)

/-- Fraction bits of the fixed-point evaluations. -/
def fixBits : Nat := 320
/-- One in fixed point. -/
def fixOne : Nat := 2 ^ fixBits

/-- `sum_{j} z^(2j+1)/(2j+1)`: the series of atanh, from the power `p = z^(2j+1)`. -/
def atanhSeries (z2 : Nat) : Nat → Nat → Nat → Nat
  | 0, _, _ => 0
  | n + 1, p, j => p / (2 * j + 1) + atanhSeries z2 n (p * z2 / fixOne) (j + 1)

/-- `atanh z` in fixed point for `0 <= z <= 1/3`. -/
def atanhFix (z : Nat) : Nat := atanhSeries (z * z / fixOne) 110 z 0

/-- `ln 2` in fixed point: `2 atanh (1/3)`. -/
def ln2Fix : Nat := 2 * atanhFix (fixOne / 3)

/-- `sum_j x^j / j!` from the term `t = x^j / j!`. -/
def expSeries (x : Nat) : Nat → Nat → Nat → Nat
  | 0, _, _ => 0
  | n + 1, t, j => t + expSeries x n (t * x / fixOne / (j + 1)) (j + 1)

/-- `e^x` in fixed point for `0 <= x < 1`. -/
def expFix (x : Nat) : Nat := expSeries x 90 fixOne 0

/-- A non-negative finite magnitude in fixed point. -/
def toFix (m : Nat) (e : Int) : Nat :=
  let s : Int := e + fixBits
  if 0 ≤ s then m * 2 ^ s.toNat else m / 2 ^ (-s).toNat

/-- `2^x` (R512, Table 6.3): exact for an integer `x`. Beyond the range of every format the magnitude only has to lie on
its side of it. -/
def fpExp2 (f : FloatFmt) (rm : Rm) (x : Fp) : FpOut :=
  match x with
  | .nan s => fpNaNOut f (if s then flNV else 0)
  | .inf n => if n then fpZero f false else fpInfOut f false
  | .fin n m e =>
    if m = 0 then { bits := (roundTo f rm false 1 0 false).bits }
    else if 0 ≤ e + Nat.log2 m - 12 then roundTo f rm false (2 ^ guardBits) ((if n then -4096 else 4096) - guardBits) true
    else
      -- x = i + r with 0 <= r < 1
      let v : Int := if n then -(m : Int) else m
      let i : Int := if 0 ≤ e then v * 2 ^ e.toNat else v / 2 ^ (-e).toNat
      let r : Nat := if 0 ≤ e then 0 else (v % 2 ^ (-e).toNat).toNat
      if r = 0 then roundTo f rm false 1 i false
      else roundTo f rm false (expFix (toFix r e * ln2Fix / fixOne)) (i - fixBits) true

/-- `log2` of a positive magnitude: sign, magnitude, exponent and whether the value is inexact. -/
def log2Exact (m : Nat) (e : Int) : Bool × Nat × Int × Bool :=
  let k := Nat.log2 m
  let i : Int := e + k
  if m = 2 ^ k then (decide (i < 0), i.natAbs, 0, false)
  else
    let u := m * fixOne / 2 ^ k                     -- in [1, 2)
    let z := (u - fixOne) * fixOne / (u + fixOne)
    let fr : Int := ((2 * atanhFix z * fixOne / ln2Fix : Nat) : Int)
    let v : Int := i * fixOne + fr
    (decide (v < 0), if v < 0 then v.natAbs - 1 else v.natAbs, -fixBits, true)

/-- `log2 x` (R512, Table 6.3). -/
def fpLog2 (f : FloatFmt) (rm : Rm) (x : Fp) : FpOut :=
  match x with
  | .nan s => fpNaNOut f (if s then flNV else 0)
  | .inf n => if n then fpNaNOut f flNV else fpInfOut f false
  | .fin n m e =>
    if m = 0 then { fpInfOut f true with flags := flDZ }
    else if n then fpNaNOut f flNV
    else
      let (neg, v, g, inexact) := log2Exact m e
      if v = 0 && !inexact then fpZero f false else roundTo f rm neg v g inexact

/-- `tanh x` (R512, Table 6.3).  Below 2^-20 the result is the operand less a tail under half a unit; from 64 on it is 1 less
such a tail. -/
def fpTanh (f : FloatFmt) (rm : Rm) (x : Fp) : FpOut :=
  match x with
  | .nan s => fpNaNOut f (if s then flNV else 0)
  | .inf n => { bits := (roundTo f rm n 1 0 false).bits }
  | .fin n m e =>
    if m = 0 then fpZero f n
    else
      let top : Int := e + Nat.log2 m
      if top < -20 then roundTo f rm n (m * 2 ^ guardBits - 1) (e - guardBits) true
      else if 6 ≤ top then roundTo f rm n (2 ^ guardBits - 1) (-guardBits) true
      else
        -- e^(2x) = 2^k * e^r, then tanh = 1 - 2 / (e^(2x) + 1)
        let y := 2 * toFix m e
        let k := y / ln2Fix
        let ex := expFix (y - k * ln2Fix) * 2 ^ k
        roundTo f rm n (fixOne - 2 * fixOne * fixOne / (ex + fixOne)) (-fixBits) true

end Sys2Proof.Machine
end

