-- ==== Sys2Proof/Machine/Lanes.lean ====
section
/-!
DEFINITION. Vector elements: the lanes of a 128-bit register, the lane-wise functions of Table 25.3 and the forms that work
across lanes (R505-R517).  Everything here is a function of the operands, FMT.RM and FMT.SATEN.
-/

namespace Sys2Proof.Machine

/-- Bytes of an element of a type code (R505). -/
def elemBytes (t : Nat) : Nat :=
  match t with
  | 0 | 4 => 1
  | 1 | 5 | 9 | 10 => 2
  | 2 | 6 | 8 => 4
  | _ => 8

/-- Element `i` of a register with elements of `w` bytes (R505). -/
def lane (w : Nat) (v : Vec) (i : Nat) : Nat := v.toNat / 2 ^ (8 * w * i) % 2 ^ (8 * w)

/-- A number whose base-2^bits digits are the given ones, the first lowest. -/
def packNat (bits : Nat) : List Nat → Nat
  | [] => 0
  | x :: t => x % 2 ^ bits + 2 ^ bits * packNat bits t

/-- A register from its elements. -/
def packLanes (w : Nat) (l : List Nat) : Vec := BitVec.ofNat 128 (packNat (8 * w) l)

/-- Whether element `i` of width `w` is active under a mask (R505). -/
def active (w : Nat) (k : BitVec 16) (i : Nat) : Bool := k.getLsbD (w * i)

/-- The mask bits of element `i`. -/
def laneMask (w i : Nat) : BitVec 16 := BitVec.ofNat 16 ((2 ^ w - 1) * 2 ^ (w * i))

/-- A vector result: the register's new value, the raised set and whether an element clamped. -/
structure VecOut where
  val : Vec
  flags : Flags := 0
  sat : Bool := false
  deriving DecidableEq, Repr

/-- The union of the flags of the results of the elements. -/
def unionFlags (l : List FpOut) : Flags := l.foldl (fun a o => a ||| o.flags) 0

/-- A lane-wise form: `f i` at the active elements, the old value elsewhere (R505). -/
def mapLanes (w : Nat) (k : BitVec 16) (old : Vec) (f : Nat → FpOut) : VecOut :=
  let outs := (List.range (16 / w)).map (fun i => if active w k i then f i else { bits := lane w old i })
  { val := packLanes w (outs.map (·.bits)), flags := unionFlags outs, sat := outs.any (·.sat) }

/-- The rounding mode and SATEN of the issuing strand's FMT. -/
structure FpCtl where
  rm : Rm
  saten : Bool
  deriving DecidableEq, Repr

/-- A lane function: type code, then the elements of va, vb and vd. -/
abbrev LaneFn := FpCtl → Nat → Nat → Nat → Nat → FpOut

/-- An integer result modulo 2^(8w) (R507). -/
def intOut (t : Nat) (v : Int) : FpOut := { bits := intBits (intTy t).bits v }

/-- VADD (Table 25.3). -/
def laneAdd : LaneFn := fun c t a b _ =>
  if t < 8 then intOut t (a + b) else fpAdd (fmt4 t) c.rm (fpOf (fmt4 t) a) (fpOf (fmt4 t) b)
/-- VSUB (Table 25.3). -/
def laneSub : LaneFn := fun c t a b _ =>
  if t < 8 then intOut t ((a : Int) - b) else fpSub (fmt4 t) c.rm (fpOf (fmt4 t) a) (fpOf (fmt4 t) b)
/-- VADDS: `Sat(a + b, type)` (R116). -/
def laneAdds : LaneFn := fun _ t a b _ =>
  let (v, s) := satInt (intTy t) (intOf (intTy t) a + intOf (intTy t) b)
  { bits := v, sat := s }
/-- VSUBS: `Sat(a - b, type)` (R116). -/
def laneSubs : LaneFn := fun _ t a b _ =>
  let (v, s) := satInt (intTy t) (intOf (intTy t) a - intOf (intTy t) b)
  { bits := v, sat := s }
/-- VMUL (Table 25.3). -/
def laneMul : LaneFn := fun c t a b _ =>
  if t < 8 then intOut t (a * b) else fpMul (fmt4 t) c.rm (fpOf (fmt4 t) a) (fpOf (fmt4 t) b)
/-- VMULH: bits [16w - 1 : 8w] of the exact product (Table 25.3). -/
def laneMulh : LaneFn := fun _ t a b _ =>
  intOut t ((intOf (intTy t) a * intOf (intTy t) b) / 2 ^ (intTy t).bits)
/-- VFMA: `a * b + d` (Table 25.3). -/
def laneFma : LaneFn := fun c t a b d =>
  if t < 8 then intOut t (a * b + d)
  else fpFma (fmt4 t) c.rm (fpOf (fmt4 t) a) (fpOf (fmt4 t) b) (fpOf (fmt4 t) d)
/-- The lesser or greater element (Table 25.3, R122). -/
def laneMinMax (isMax : Bool) : LaneFn := fun _ t a b _ =>
  if t < 8 then
    { bits := if decide (intOf (intTy t) a < intOf (intTy t) b) != isMax then a else b }
  else fpMinMax (fmt4 t) isMax a b
/-- A float sign operation: a NaN gives the canonical NaN, NV for a signalling one (R507). -/
def laneSign (t a : Nat) (g : Bool → Bool) : FpOut :=
  let f := fmt4 t
  match fpOf f a with
  | .nan s => fpNaNOut f (if s then flNV else 0)
  | _ => { bits := a % 2 ^ (f.exp + f.frac) + fpSign f (g (a / 2 ^ (f.exp + f.frac) % 2 == 1)) }
/-- VABS (Table 25.3). -/
def laneAbs : LaneFn := fun _ t a _ _ =>
  if t < 8 then intOut t (intOf (intTy t) a).natAbs else laneSign t a (fun _ => false)
/-- VNEG (Table 25.3). -/
def laneNeg : LaneFn := fun _ t a _ _ => if t < 8 then intOut t (-(a : Int)) else laneSign t a (fun s => !s)
/-- VAND. -/
def laneAnd : LaneFn := fun _ _ a b _ => { bits := a &&& b }
/-- VOR. -/
def laneOr : LaneFn := fun _ _ a b _ => { bits := a ||| b }
/-- VXOR. -/
def laneXor : LaneFn := fun _ _ a b _ => { bits := a ^^^ b }
/-- VNOT. -/
def laneNot : LaneFn := fun _ t a _ _ => { bits := 2 ^ (intTy t).bits - 1 - a % 2 ^ (intTy t).bits }
/-- VSHL: by `b mod 8w` (Table 25.3). -/
def laneShl : LaneFn := fun _ t a b _ => intOut t (a * 2 ^ (b % (intTy t).bits))
/-- VSHR: zeros shifted in. -/
def laneShr : LaneFn := fun _ t a b _ => { bits := a / 2 ^ (b % (intTy t).bits) }
/-- VSRA: copies of the top bit shifted in. -/
def laneSra : LaneFn := fun _ t a b _ =>
  intOut t (intOf ⟨(intTy t).bits, true⟩ a / 2 ^ (b % (intTy t).bits))
/-- VCLASS (R508). -/
def laneClass : LaneFn := fun _ t a _ _ => { bits := fpClass (fmt4 t) a }
/-- VRCP (R512). -/
def laneRcp : LaneFn := fun c t a _ _ => fpDiv (fmt4 t) c.rm fpOne (fpOf (fmt4 t) a)
/-- VRSQ (R512). -/
def laneRsq : LaneFn := fun c t a _ _ => fpRsq (fmt4 t) c.rm (fpOf (fmt4 t) a)
/-- VEXP2 (R512). -/
def laneExp2 : LaneFn := fun c t a _ _ => fpExp2 (fmt4 t) c.rm (fpOf (fmt4 t) a)
/-- VLOG2 (R512). -/
def laneLog2 : LaneFn := fun c t a _ _ => fpLog2 (fmt4 t) c.rm (fpOf (fmt4 t) a)
/-- VTANH (R512). -/
def laneTanh : LaneFn := fun c t a _ _ => fpTanh (fmt4 t) c.rm (fpOf (fmt4 t) a)
/-- VDIV (R512). -/
def laneDiv : LaneFn := fun c t a b _ => fpDiv (fmt4 t) c.rm (fpOf (fmt4 t) a) (fpOf (fmt4 t) b)

/-- A lane-wise form over three registers (R505). -/
def vec3 (g : LaneFn) (c : FpCtl) (t : Nat) (k : BitVec 16) (a b d : Vec) : VecOut :=
  let w := elemBytes t
  mapLanes w k d (fun i => g c t (lane w a i) (lane w b i) (lane w d i))

/-- VSEL: every element is written, a where active and b elsewhere (Table 25.3). -/
def vecSel (t : Nat) (k : BitVec 16) (a b : Vec) : VecOut :=
  let w := elemBytes t
  { val := packLanes w ((List.range (16 / w)).map (fun i => if active w k i then lane w a i else lane w b i)) }

/-- VSHUF: element `b mod N` of va (Table 25.3). -/
def vecShuf (t : Nat) (k : BitVec 16) (a b d : Vec) : VecOut :=
  let w := elemBytes t
  mapLanes w k d (fun i => { bits := lane w a (lane w b i % (16 / w)) })

/-- VBCAST (Table 25.3). -/
def vecBcast (t : Nat) (k : BitVec 16) (x : Word) (d : Vec) : VecOut :=
  let w := elemBytes t
  mapLanes w k d (fun _ => { bits := x.toNat % 2 ^ (8 * w) })

/-- VINS: only element `l` is written (Table 25.3). -/
def vecIns (t l : Nat) (x : Word) (d : Vec) : Vec :=
  let w := elemBytes t
  packLanes w ((List.range (16 / w)).map (fun i => if i = l then x.toNat else lane w d i))

/-- VMOVS of a lane: sign-extended for .iN, zero-extended otherwise (R516). -/
def vecLane (t l : Nat) (a : Vec) : Word :=
  let v := lane (elemBytes t) a l
  if t < 4 then BitVec.ofInt 64 (intOf (intTy t) v) else BitVec.ofNat 64 v

/-- A comparison of two elements (R509). -/
def laneCmp (p : Pred) (t a b : Nat) : Bool × Flags :=
  if t < 8 then
    let x := intOf (intTy t) a
    let y := intOf (intTy t) b
    (match p with
      | .eq => decide (x = y)
      | .ne => decide (x ≠ y)
      | .lt => decide (x < y)
      | .le => decide (x ≤ y)
      | .gt => decide (y < x)
      | .ge => decide (y ≤ x)
      | .un => false, 0)
  else fpCmp p (fpOf (fmt4 t) a) (fpOf (fmt4 t) b)

/-- VCMP: the mask bits of each active element where the predicate holds (R509). -/
def vecCmp (p : Pred) (t : Nat) (k : BitVec 16) (a b : Vec) : BitVec 16 × Flags :=
  let w := elemBytes t
  (List.range (16 / w)).foldl (fun (acc : BitVec 16 × Flags) i =>
    if active w k i then
      let (h, fl) := laneCmp p t (lane w a i) (lane w b i)
      (if h then acc.1 ||| laneMask w i else acc.1, acc.2 ||| fl)
    else acc) (0, 0)

/-- One element of VCVT (R511, R123, R124). -/
def laneCvt (c : FpCtl) (dst src a : Nat) : FpOut :=
  if src < 8 then
    let v := intOf (intTy src) a
    if dst < 8 then
      if c.saten && decide (elemBytes dst < elemBytes src) then
        let (x, s) := satInt (intTy dst) v
        { bits := x, sat := s }
      else intOut dst v
    else intToFp (fmt4 dst) c.rm v
  else if dst < 8 then fpToInt (fmt4 src) (intTy dst) c.rm c.saten a
  else fpConvert (fmt4 src) (fmt4 dst) c.rm a

/-- VCVT (R511): bytes of vd past the last element are zeroed. -/
def vecCvt (c : FpCtl) (dst src : Nat) (k : BitVec 16) (a d : Vec) : VecOut :=
  let wd := elemBytes dst
  let ws := elemBytes src
  let outs := (List.range (16 / max ws wd)).map (fun i =>
    if active wd k i then laneCvt c dst src (lane ws a i) else { bits := lane wd d i })
  { val := packLanes wd (outs.map (·.bits)), flags := unionFlags outs, sat := outs.any (·.sat) }

/-- One combination of VRED and VSCAN: add, min, max, and, or, xor (R517). -/
def redOp (c : FpCtl) (t op a b : Nat) : FpOut :=
  match op with
  | 0 => laneAdd c t a b 0
  | 1 => laneMinMax false c t a b 0
  | 2 => laneMinMax true c t a b 0
  | 3 => { bits := a &&& b }
  | 4 => { bits := a ||| b }
  | _ => { bits := a ^^^ b }

/-- VRED's value with no active element (Table 25.4). -/
def redEmpty (t op : Nat) : Nat :=
  if t < 8 then
    match op with
    | 1 => intBits (intTy t).bits (intMax (intTy t))
    | 2 => intBits (intTy t).bits (intMin (intTy t))
    | 3 => 2 ^ (intTy t).bits - 1
    | _ => 0
  else
    match op with
    | 1 => fpInf (fmt4 t)
    | 2 => fpSign (fmt4 t) true + fpInf (fmt4 t)
    | _ => 0

/-- The running reduction of the active elements from element `i` on: after each element, the value so far. The first is taken unchanged
(R126); a signalling NaN that is the only one raises nothing, the model's choice (log 98). -/
def scanFrom (c : FpCtl) (t op : Nat) (k : BitVec 16) (a : Vec) : List Nat → Option FpOut → List (Option FpOut)
  | [], _ => []
  | i :: r, acc =>
    let w := elemBytes t
    let acc' :=
      if active w k i then
        match acc with
        | none => some { bits := lane w a i }
        | some x => let y := redOp c t op x.bits (lane w a i)
                    some { y with flags := x.flags ||| y.flags }
      else acc
    acc' :: scanFrom c t op k a r acc'

/-- VRED (R517). -/
def vecRed (c : FpCtl) (t op : Nat) (k : BitVec 16) (a : Vec) : VecOut :=
  let w := elemBytes t
  match (scanFrom c t op k a (List.range (16 / w)) none).getLast? with
  | some (some x) => { val := packLanes w [x.bits], flags := x.flags }
  | _ => { val := packLanes w [redEmpty t op] }

/-- VSCAN (R517). -/
def vecScan (c : FpCtl) (t op : Nat) (k : BitVec 16) (a d : Vec) : VecOut :=
  let w := elemBytes t
  let s := scanFrom c t op k a (List.range (16 / w)) none
  mapLanes w k d (fun i => ((s.getD i none).getD { bits := 0 }))

/-- VDOT (R513). -/
def vecDot (c : FpCtl) (t : Nat) (k : BitVec 16) (a b d : Vec) : VecOut :=
  let w := elemBytes t
  let n := 4 / w
  mapLanes 4 k d (fun j =>
    let es := (List.range n).map (fun x => (lane w a (j * n + x), lane w b (j * n + x)))
    if t < 8 then
      { bits := intBits 32 ((lane 4 d j : Int) + (es.map (fun p => intOf (intTy t) p.1 * intOf (intTy t) p.2)).sum) }
    else fpSum f32 c.rm (fpOf f32 (lane 4 d j) :: es.map (fun p => fpMulExact (fpOf (fmt4 t) p.1) (fpOf (fmt4 t) p.2))))

/-- VMATCH's combination: add, signed min, signed max, or (R515). -/
def matchOp (w op a b : Nat) : Nat :=
  let ty : IntTy := ⟨8 * w, true⟩
  match op with
  | 0 => (a + b) % 2 ^ (8 * w)
  | 1 => if intOf ty a ≤ intOf ty b then a else b
  | 2 => if intOf ty a ≤ intOf ty b then b else a
  | _ => a ||| b

/-- VMATCH: the combined values of equal keys at their leaders, and the leaders' mask (R515). -/
def vecMatch (w op : Nat) (k : BitVec 16) (a b : Vec) : Vec × BitVec 16 :=
  let n := 16 / w
  let leader (i : Nat) : Bool := active w k i && (List.range i).all (fun j => !(active w k j && lane w a j == lane w a i))
  let value (i : Nat) : Nat :=
    (List.range n).foldl (fun t j => if decide (i < j) && active w k j && lane w a j == lane w a i then matchOp w op t (lane w b j) else t)
      (lane w b i)
  (packLanes w ((List.range n).map (fun i => if leader i then value i else 0)),
    (List.range n).foldl (fun m i => if leader i then m ||| laneMask w i else m) 0)

/-- The magnitude by which VCOMPRESS ranks: exact for integers, NaN above every number (R224). -/
def rankMag (t a : Nat) : Nat :=
  if t < 8 then (intOf (intTy t) a).natAbs
  else
    match fpOf (fmt4 t) a with
    | .nan _ => 2 ^ 16
    | _ => a % 2 ^ 15

/-- The N2 and M2 of e0 (R510); M2 is 0 for the code 3. -/
def sparse2 (e0 : Nat) : Nat × Nat :=
  (e0 / 2 ^ 16 % 16 + 1, match e0 / 2 ^ 20 % 4 with | 0 => 4 | 1 => 8 | 2 => 16 | _ => 0)

/-- Whether VCOMPRESS and VEXPAND accept e0 for `n` elements (R510). -/
def sparseOk (e0 n : Nat) : Bool :=
  let (n2, m2) := sparse2 e0
  decide (m2 ≠ 0) && decide (n2 < m2) && decide (m2 ≤ n)

/-- The indices that a group keeps, ascending (R510). -/
def keptOf (t : Nat) (k : BitVec 16) (a : Vec) (n2 m2 g : Nat) : List Nat :=
  let w := elemBytes t
  let idx := (List.range m2).filter (fun e => active w k (g * m2 + e))
  idx.filter (fun e =>
    let me := rankMag t (lane w a (g * m2 + e))
    decide ((idx.filter (fun j =>
      let mj := rankMag t (lane w a (g * m2 + j))
      decide (me < mj) || (decide (mj = me) && decide (j < e)))).length < n2))

/-- A list padded with zeros to a length. -/
def padTo (n : Nat) (l : List Nat) : List Nat := l ++ List.replicate (n - l.length) 0

/-- VCOMPRESS: the kept values and their records (R510). -/
def vecCompress (t e0 : Nat) (k : BitVec 16) (a : Vec) : Vec × Vec :=
  let w := elemBytes t
  let (n2, m2) := sparse2 e0
  let groups := (List.range (16 / w / m2)).map (fun g => (g, keptOf t k a n2 m2 g))
  (packLanes w (groups.flatMap (fun p => padTo n2 (p.2.map (fun e => lane w a (p.1 * m2 + e))))),
    BitVec.ofNat 128 (packNat 4 (groups.flatMap (fun p => p.2.length :: padTo n2 p.2))))

/-- Whether indices ascend from a lower bound and stay below `m`. -/
def ascendsBelow (m : Nat) : List Nat → Option Nat → Bool
  | [], _ => true
  | x :: r, last =>
    decide (x < m) && (match last with | none => true | some l => decide (l < x)) && ascendsBelow m r (some x)

/-- A record whose count nibble is `nib 0`: its indices, or which way it is malformed (R222). -/
def readRecord (nib : Nat → Nat) (n m : Nat) : Except Bool (List Nat) :=
  let c := nib 0
  if n < c then .error false
  else
    let l := (List.range c).map (fun j => nib (j + 1))
    if ascendsBelow m l none then .ok l else .error true

/-- TVAL of METABAD (Table 10.4). -/
def metaBad (order level2 : Bool) (line nibble : Nat) : Nat :=
  (if order then 2 ^ 15 else 0) + (if level2 then 2 ^ 14 else 0) + line * 2 ^ 8 + nibble

/-- The records of VEXPAND, or the TVAL of the first malformed one (R514). -/
def expandRecords (n2 m2 : Nat) (b : Vec) : List Nat → Except Nat (List (List Nat))
  | [] => .ok []
  | g :: r =>
    match readRecord (fun q => b.toNat / 2 ^ (4 * (g * (1 + n2) + q)) % 16) n2 m2 with
    | .error o => .error (metaBad o true 0 (g * (1 + n2)))
    | .ok l => (expandRecords n2 m2 b r).map (l :: ·)

/-- VEXPAND (R514). -/
def vecExpand (t e0 : Nat) (k : BitVec 16) (a b d : Vec) : Except Nat Vec :=
  let w := elemBytes t
  let (n2, m2) := sparse2 e0
  (expandRecords n2 m2 b (List.range (16 / w / m2))).map (fun recs =>
    (mapLanes w k d (fun i =>
      let l := recs.getD (i / m2) []
      { bits := match l.idxOf? (i % m2) with | some j => lane w a (i / m2 * n2 + j) | none => 0 })).val)

end Sys2Proof.Machine
end

