-- ==== Sys2Proof/Machine/Operands.lean ====
section
/-!
DEFINITION. Operand forms: immediates, the pointers of the load and store forms, the lanes of an access, branch targets and
the words that several forms read from a register.
-/

namespace Sys2Proof.Machine

open Sys2Proof

/-- An immediate sign-extended to a word. -/
def simmW {n : Nat} (i : BitVec n) : Word := BitVec.ofInt 64 i.toInt

/-- A compact 3-bit register field as the field of the 32-bit form (R90). -/
def wide (f : BitVec 3) : BitVec 5 := f.setWidth 5

/-- The pointer of an ME form: the base moved by the scaled signed offset (R88, R416). -/
def mePtr (base : Word) (off : BitVec 5) (scale : Nat) : Word := ptrAdd base (off.toInt * scale)

/-- The pointer of a compact load or store, whose offset is unsigned (R91). -/
def compactPtr (base : Word) (off : BitVec 4) (scale : Nat) : Word := ptrAdd base (off.toNat * scale)

/-- The target of a relative control transfer, in halfwords from the instruction (R88, R360). -/
def relTarget {n : Nat} (pc : BitVec 48) (off : BitVec n) : Nat := (pc + BitVec.ofInt 48 (off.toInt * 2)).toNat

/-- The bytes and signedness of a load type: i8, i16, i32, i64, n8, n16, n32 (R416). -/
def loadType (t : BitVec 3) : Nat × Bool :=
  match t.toNat with
  | 0 => (1, true) | 1 => (2, true) | 2 => (4, true) | 3 => (8, true) | 4 => (1, false) | 5 => (2, false) | _ => (4, false)

/-- The bytes of a store type (R479). -/
def storeBytes (t : BitVec 2) : Nat := 2 ^ t.toNat

/-- The one lane of a scalar load. -/
def loadLane (p : Word) (n : Nat) : List Lane := [{ lane := 0, ptr := p, n := n }]

/-- The one lane of a scalar store: the low bytes of a register. -/
def storeLane (p : Word) (n : Nat) (v : Word) : List Lane :=
  [{ lane := 0, ptr := p, n := n, data := v.toNat % 2 ^ (8 * n), en := 2 ^ n - 1 }]

/-- The unit of LDV, or nothing when no byte is active (R420). -/
def unitLane (p : Word) (k : BitVec 16) : List Lane := if k = 0 then [] else [{ lane := 0, ptr := p, n := 16 }]

/-- The unit of STV with its active bytes (R482). -/
def unitStore (p : Word) (k : BitVec 16) (v : Vec) : List Lane :=
  if k = 0 then [] else [{ lane := 0, ptr := p, n := 16, data := v.toNat, en := k.toNat }]

/-- The active lanes of LDG and STS: each pointer the base moved by a signed index element (R419, R481). -/
def gatherLanes (base : Word) (w : Nat) (k : BitVec 16) (index data : Vec) (store : Bool) : List Lane :=
  ((List.range (16 / w)).filter (fun i => active w k i)).map (fun i =>
    { lane := i, ptr := ptrAdd base (signExt (lane w index i) (8 * w)), n := w,
      data := if store then lane w data i else 0, en := if store then 2 ^ w - 1 else 0 })

/-- The scope of an access whose order field asks for one (Table 4.16). -/
def scopeOf (sc : BitVec 3) : Scope :=
  match sc.toNat with | 0 => .strand | 1 => .core | 2 => .cluster | 3 => .die | 4 => .device | _ => .system

/-- The scope of an acquire load, none for a plain one. -/
def acqScope (o : BitVec 2) (sc : BitVec 3) : Option Scope := if o = 1 then some (scopeOf sc) else none

/-- The target word of HTSET, HMASK and MIGRATE (R402, R434): core and channel. -/
def targetCore (w : Word) : Nat := bits w 12 0
/-- Its message channel. -/
def targetChan (w : Word) : Nat := bits w 18 13

/-- The registers s(b) to s(b + 7) as a payload (R335). -/
def payloadOf (t : Strand) (b : BitVec 5) : List Word := (List.range 8).map (fun i => t.s (b.toNat + i))

end Sys2Proof.Machine
end

