-- ==== Sys2Proof/Machine/LoadStore.lean ====
section
/-!
DEFINITION. Loads, stores, PREF and FENCE, and the steps of the memory system that serve them: banks, leases, replies,
acknowledgements, walks (R135-R167, R396, R416-R420, R449, R479-R482).
-/

namespace Sys2Proof.Machine

open Sys2Proof

/-! ## Loads -/

/-- The grant instants of the copies that served some pieces; the read instant of the load (R160). -/
def l1Instant (s : State) (ps : List Piece) : Nat :=
  ps.foldl (fun a p => if p.hit then
    (match l1Hit s s.cur.1 s.me.flr (p.key / 64) with | some x => Nat.max a x.grant | none => a) else a) 0

/-- A load of the running strand: lanes that a copy serves are done at once (`served`); a load all of whose lanes are done completes in its
issue, any other goes to the banks and its register is owed (R142, R144, R156). -/
def issueLoad (kind : OpKind) (regs : List Reg) (acq : Option Scope) (a : Acc) (lanes : List Lane) (s : State) : Res :=
  access a lanes (fun ps s =>
    let o := { myOp s kind with ctr := some .ld, regs := regs, acq := acq, pieces := ps, rd := l1Instant s ps }
    let hits := (ps.filter (·.done)).length
    let s := perf (perf s s.cur.1 0x11 hits) s.cur.1 0x12 ((ps.filter (fun p => !p.done && isHbm p.key)).length)
    let s := s.onCore s.cur.1 (fun k => (ps.filter (·.done)).foldl (fun k p => l1Use k (p.key / 64)) k)
    if ps.all (·.done) then watched 0 lanes (s.onMe (fun t => (loadInto o t).seen o))
    else watched 0 lanes (enqueue (startOp s o) o.id ps 0)) s

/-- A scalar load of `n` bytes from a pointer (R416, R417). -/
def loadScalar (d : BitVec 5) (p : Word) (n : Nat) (sg : Bool) (acq : Option Scope) (s : State) : Res :=
  issueLoad (.load n sg) [.s d.toNat] acq .ld (loadLane p n) s

/-- LD (R416-R418). -/
def execLd (d a : BitVec 5) (t : BitVec 3) (o : BitVec 2) (sc : BitVec 3) (i : BitVec 5) (s : State) :
    Host.Outcome State Fault Refusal :=
  finish 4 (guard [rdS s.me a false, wrS s.me d false] (fun s =>
    loadScalar d (mePtr (s.me.rs a false) i (loadType t).1) (loadType t).1 (loadType t).2 (acqScope o sc) s) s)

/-- Compact opcode 13: LD.i64 (R91). -/
def execCompactLd (d a : BitVec 3) (i : BitVec 4) (s : State) : Host.Outcome State Fault Refusal :=
  finish 2 (guard [rdS s.me (wide a) false, wrS s.me (wide d) false] (fun s =>
    loadScalar (wide d) (compactPtr (s.me.rs (wide a) false) i 8) 8 true none s) s)

/-- A vector load of the 16 bytes at a pointer under a mask (R420). -/
def loadUnit (d : BitVec 5) (k : BitVec 16) (p : Word) (acq : Option Scope) (s : State) : Res :=
  if k = 0 then .ok s else issueLoad (.loadVec k) [.v d.toNat] acq .load (unitLane p k) s

/-- LDV (R420): registers sa, km, vd are checked in that order. -/
def execLdv (d a : BitVec 5) (k : BitVec 3) (o : BitVec 2) (sc : BitVec 3) (i : BitVec 5) (s : State) :
    Host.Outcome State Fault Refusal :=
  finish 4 (guard [rdS s.me a false, rdK k, rwV d] (fun s =>
    loadUnit d (s.me.k k.toNat) (mePtr (s.me.rs a false) i 16) (acqScope o sc) s) s)

/-- Compact opcode 15: LDV under k0 (R91). -/
def execCompactLdv (d a : BitVec 3) (i : BitVec 4) (s : State) : Host.Outcome State Fault Refusal :=
  finish 2 (guard [rdS s.me (wide a) false, rwV (wide d)] (fun s =>
    loadUnit (wide d) 0xFFFF (compactPtr (s.me.rs (wide a) false) i 16) none s) s)

/-- LDG (R419): with no active element it makes no access. -/
def execLdg (d a : BitVec 5) (k : BitVec 3) (w : BitVec 2) (b : BitVec 5) (s : State) : Host.Outcome State Fault Refusal :=
  finish 4 (guard [rdS s.me a false, rdV b, rdK k, rwV d] (fun s =>
    let m := s.me.k k.toNat
    let lanes := gatherLanes (s.me.rs a false) (2 ^ w.toNat) m (s.me.v b.toNat) 0 false
    if lanes.isEmpty then .ok s else issueLoad (.gather (2 ^ w.toNat) m) [.v d.toNat] none .load lanes s) s)

/-! ## Releases and fences (R164) -/

/-- Whether a release at a scope may go on (Table 8.1). -/
def released (s : State) (sc : Scope) : Bool :=
  let acked := decide (s.me.cSt = 0) && !s.ops.any (fun o => o.task == s.me.task && isAtomic o.kind)
  match sc with
  | .strand => true
  | .core => acked
  | _ => acked && decide (s.me.hor ≤ s.devtime)

/-- A release at a scope, then what follows it: a short stall until its condition holds; at SYSTEM also a zero-length host read
that flushes the strand's posted host writes, whose failure is PAGE with TVAL 0 (R164, R396). -/
def release (sc : Scope) (k : State → Res) (s : State) : Res :=
  if !released s sc then .stall s .retry
  else if sc = .system ∧ s.me.hostWrites then
    awaiting (fun s => .stall (startOp s { myOp s .flush with pend := true }) (.op s.nextId))
      (fun _ _ s => k (s.onMe (fun t => { t with hostWrites := false }))) (fun s o => .stall s (.op o.id)) s
  else k s

/-- FENCE (R166, R396): the release, then the acquire, which waits for every earlier load and raises F at DEVICE and SYSTEM to
their greatest read instant. A fault of an access that it waits for is raised at it (R158). -/
def execFence (o : BitVec 2) (sc : BitVec 3) (s : State) : Host.Outcome State Fault Refusal :=
  let scope := scopeOf sc
  let rel := o.toNat / 2 % 2 == 1 && scope != .strand
  let acq := o.toNat % 2 == 1
  finish 4 (
    match oldestFault (s.me.faults.filter (fun d => (rel && (d.ctr == some .st || d.upd)) || (acq && d.ctr == some .ld))) with
    | some d => .trap s d.cause d.sub d.tval
    | none =>
      release (if o.toNat / 2 % 2 = 1 then scope else .strand) (fun s =>
        if acq then
          if s.ops.any (fun x => x.task == s.me.task && x.ctr == some .ld) then .stall s .retry
          else .ok (s.onMe (fun t => if raisesFloor (some scope) then { t with flr := Nat.max t.flr t.rdMax } else t))
        else .ok s) s)

/-! ## Stores -/

/-- A store of the running strand: after its checks the release that it asks for, then on its way to the banks (R479, R480). -/
def issueStore (lanes : List Lane) (rel : Option Scope) (s : State) : Res :=
  access .store lanes (fun ps s =>
    release (rel.getD .strand) (fun s =>
      let o := { myOp s .store with ctr := some .st, pieces := ps }
      let s := if ps.any (fun p => isHost p.key) then s.onMe (fun t => { t with hostWrites := true }) else s
      watched 1 lanes (enqueue (startOp s o) o.id ps 0)) s) s

/-- The scope of a store's release. -/
def relScope (o : BitVec 2) (sc : BitVec 3) : Option Scope := if o = 2 then some (scopeOf sc) else none

/-- ST (R479, R480). -/
def execSt (d a : BitVec 5) (t : BitVec 2) (o : BitVec 2) (sc : BitVec 3) (i : BitVec 5) (s : State) :
    Host.Outcome State Fault Refusal :=
  finish 4 (guard [rdS s.me a false, rdS s.me d false] (fun s =>
    issueStore (storeLane (mePtr (s.me.rs a false) i (storeBytes t)) (storeBytes t) (s.me.rs d false)) (relScope o sc) s) s)

/-- Compact opcode 14: ST of 64 bits (R91). -/
def execCompactSt (d a : BitVec 3) (i : BitVec 4) (s : State) : Host.Outcome State Fault Refusal :=
  finish 2 (guard [rdS s.me (wide a) false, rdS s.me (wide d) false] (fun s =>
    issueStore (storeLane (compactPtr (s.me.rs (wide a) false) i 8) 8 (s.me.rs (wide d) false)) none s) s)

/-- A vector store of the active bytes of a unit (R482). -/
def storeUnit (d : BitVec 5) (k : BitVec 16) (p : Word) (rel : Option Scope) (s : State) : Res :=
  if k = 0 then .ok s else issueStore (unitStore p k (s.me.v d.toNat)) rel s

/-- STV (R482). -/
def execStv (d a : BitVec 5) (k : BitVec 3) (o : BitVec 2) (sc : BitVec 3) (i : BitVec 5) (s : State) :
    Host.Outcome State Fault Refusal :=
  finish 4 (guard [rdS s.me a false, rdK k, rdV d] (fun s =>
    storeUnit d (s.me.k k.toNat) (mePtr (s.me.rs a false) i 16) (relScope o sc) s) s)

/-- Compact opcode 16: STV under k0 (R91). -/
def execCompactStv (d a : BitVec 3) (i : BitVec 4) (s : State) : Host.Outcome State Fault Refusal :=
  finish 2 (guard [rdS s.me (wide a) false, rdV (wide d)] (fun s =>
    storeUnit (wide d) 0xFFFF (compactPtr (s.me.rs (wide a) false) i 16) none s) s)

/-- STS (R481). -/
def execSts (d a : BitVec 5) (k : BitVec 3) (w : BitVec 2) (b : BitVec 5) (s : State) : Host.Outcome State Fault Refusal :=
  finish 4 (guard [rdS s.me a false, rdV b, rdK k, rdV d] (fun s =>
    let lanes := gatherLanes (s.me.rs a false) (2 ^ w.toNat) (s.me.k k.toNat) (s.me.v b.toNat) (s.me.v d.toNat) true
    if lanes.isEmpty then .ok s else issueStore lanes none s) s)

/-! ## PREF -/

/-- PREF (R147, R449): it never traps; a pointer that a load would refuse makes it do nothing; it waits for its translation, and as a
remote request for its place among the 64 of its core (R156). PREF.l1 asks for a lease, PREF.home for the line. -/
def execPref (a : BitVec 5) (l : BitVec 1) (i : BitVec 5) (s : State) : Host.Outcome State Fault Refusal :=
  finish 4 (guard [rdS s.me a false] (fun s =>
    let p := mePtr (s.me.rs a false) i 64
    match locate s .pref p 1 with
    | .trap _ _ => .ok s
    | .walk x y z => startWalk s x y z
    | .key k =>
      if onLostDie s k then .ok s
      else if acquiring s then .stall s .retry
      else if l = 0 ∧ (l1Hit s s.cur.1 s.me.flr (k / 64)).isSome then .ok s
      else if 64 ≤ remoteCount s s.cur.1 then .stall s .retry
      else if l = 1 then .ok { perf s s.cur.1 0x13 1 with fills := s.fills ++ [(k / 64, s.cur.1, s.me.ctx)] }
      else .ok (startOp s { myOp s (.pref false) with pieces := [{ key := k / 64 * 64, n := 64, ptr := p }] })) s)

/-! ## Steps of the memory system -/

/-- LEASE_GRANT: the home bank serves piece `b` of load `a`; for spaces 0x0 and 0x4 it grants a lease and the issuing core's L1
takes the copy (R144, R160, R449). -/
def execLeaseGrant (s : State) : Host.Outcome State Fault Refusal :=
  match homePiece s s.subj.a s.subj.b (fun k => match k with | .load _ _ | .loadVec _ | .gather _ _ | .pref _ => true | _ => false) with
  | none => event s
  | some (o, p) =>
    let s := applyHome s { o with kind := match o.kind with | .pref _ => .load 8 false | k => k } s.subj.b p
    let failed := poisoned s (p.key / 64 * 64) 64
    let s := if !(tagOf p.ptr == 0 || tagOf p.ptr == 4) || failed || p.fault.isSome then s
      else
        let (s, e) := grantLease s o.asid (p.key / 64)
        s.onCore o.core (fun k => l1Put k { line := p.key / 64, bytes := readBytes s (p.key / 64 * 64) 64, leaseEnd := e,
                                            grant := s.devtime, no := s.tick })
    event (match o.kind with | .pref _ => dropOp s o.id | _ => s)

/-- LEASE_END: the recorded lease of line `a` has ended (R144, R146). -/
def execLeaseEnd (s : State) : Host.Outcome State Fault Refusal :=
  if mapGet 0 s.leases s.subj.a ≤ s.devtime then event { s with leases := mapDel s.leases s.subj.a } else event s

/-- HBM_LINE_FILL: line `a` has come into its home bank, where there is a way for it (R146, R147, R527). -/
def execHbmLineFill (s : State) : Host.Outcome State Fault Refusal :=
  match s.fills.find? (fun x => x.1 == s.subj.a) with
  | some x =>
    if homeRoom s x.1 then event { homeTake (touchKey s x.2.2 (x.1 * 64)) x.1 with fills := s.fills.erase x } else event s
  | none => event s

/-- STORE_APPLY: the home bank applies piece `b` of store `a` (R145). -/
def execStoreApply (s : State) : Host.Outcome State Fault Refusal :=
  match homePiece s s.subj.a s.subj.b (fun k => k == .store) with
  | none => event s
  | some (o, p) => event (applyHome s o s.subj.b p)

/-- The head of a bank's queue. -/
def bankHead (s : State) (core bank : Nat) : Option (Nat × Nat) := (mapGet [] (s.core core).bankq bank).head?

/-- The oldest request of a bank's queue performed and gone from it. -/
def bankServe (s : State) (core bank : Nat) : State :=
  match bankHead s core bank with
  | none => s
  | some (id, i) =>
    let s' := s.onCore core (fun k =>
      let l := (mapGet [] k.bankq bank).tail
      { k with bankq := if l.isEmpty then mapDel k.bankq bank else mapSet k.bankq bank l })
    match findOp s id with
    | none => s'
    | some o =>
      match o.pieces[i]? with
      | none => s'
      | some p =>
        if p.done then s' else peerOver (applyPiece s' o i p) o.id

/-- A request of an operation that waits for a place in a bank's queue enters it, where it may (R140). -/
def bankArrive (s : State) (core bank : Nat) (o : Op) : State :=
  match (List.range o.pieces.length).find? (fun i => ((o.pieces[i]?).map (entersBank core bank)).getD false) with
  | none => s
  | some i =>
    match o.pieces[i]? with
    | some p => if mayEnter s o i p then enterBank s o i p else s
    | none => s

/-- SCRATCHPAD_BANK_ACCESS: bank `b` of core `a` performs the oldest request of its queue; or, with `c` an operation, a request of that
operation arrives at the bank and enters the queue (R139, R140). -/
def execScratchpadBankAccess (s : State) : Host.Outcome State Fault Refusal :=
  if s.subj.c = 0 then event (bankServe s s.subj.a s.subj.b)
  else match findOp s s.subj.c with | some o => event (bankArrive s s.subj.a s.subj.b o) | none => event s

/-- Whether a host read of an operation has not run into its 50 ms (R305). -/
def hostInTime (s : State) (o : Op) : Bool :=
  writes o.kind && o.kind != .flush || !(o.kind == .flush || o.pieces.any (fun p => !p.done && isHost p.key)) ||
    decide (s.devtime < o.since + 50000000)

/-- Whether a load's or an atomic's reply can come: every bank has served it (R77), a host read in time (R305). -/
def replyReady (s : State) (o : Op) : Bool :=
  (o.ctr == some .ld && !o.pend && repliable s o && hostInTime s o &&
      (!o.pieces.isEmpty || o.answer.isSome || o.fault.isSome)) ||
    (o.kind == .flush && o.pend && o.answer.isNone && hostInTime s o) ||
    (o.ctr.isNone && isQueue o.kind && !o.pend && (o.answer.isSome || o.fault.isSome))

/-- LOAD_REPLY: the reply of operation `a` reaches its strand (R156, R158). The flushing read of a release answers its
instruction. -/
def execLoadReply (s : State) : Host.Outcome State Fault Refusal :=
  match findOp s s.subj.a with
  | none => event s
  | some o =>
    if !replyReady s o || !reachable s o then event s
    else if o.kind = .flush then event (answerOp s o.id [])
    else event (completeOp s o)

/-- Whether a store's acknowledgement can come (R162). -/
def ackReady (s : State) (o : Op) : Bool :=
  o.ctr == some .st && !o.pend && repliable s o && (!o.pieces.isEmpty || o.answer.isSome || o.fault.isSome)

/-- STORE_ACK: the acknowledgement of operation `a` reaches its strand with t_c (R145, R162). -/
def execStoreAck (s : State) : Host.Outcome State Fault Refusal :=
  match findOp s s.subj.a with
  | none => event s
  | some o => if ackReady s o && reachable s o then event (completeOp s o) else event s

/-- The fault with which another device refuses a piece of an operation by a cause code: PAGE, PROT, STALEXLAT, of what is not a store
POISON, and REMOTE for an update function that it lacks (R158, R480, R500). -/
def peerFault (code : Nat) (p : Piece) (o : Op) : Option (Cause × Nat × Word) :=
  match code with
  | 0x07 => some (.page, 0, p.ptr)
  | 0x08 => some (.prot, 0, p.ptr)
  | 0x09 => if o.kind = .store then none else some (.poison, 0, p.ptr)
  | 0x1C => some (.stalexlat, 0, p.ptr)
  | 0x18 => (match o.kind with | .ufn _ _ _ => some (.remote, 0, regIndex o) | _ => none)
  | _ => none

/-- The first piece of an operation that meets a condition, refused: it applies nothing; the others go on, and with the last the access
completes for its counter and the fault of its lowest lane waits to be raised (R158, R481). -/
def refusePiece (s : State) (o : Op) (p : Piece → Bool) (f : Piece → Option (Cause × Nat × Word)) : State :=
  match o.pieces.findIdx? p with
  | none => s
  | some i =>
    match (o.pieces[i]?).bind f with
    | some x => donePiece s o.id i 0 s.devtime (some x)
    | none => s

/-- DEFERRED_FAULT_ARRIVAL: another device refuses an access of operation `a`, which could reach it, with the cause of code `b`; a stale
translation leaves the gateway's cache (R157, R158). -/
def execDeferredFaultArrival (s : State) : Host.Outcome State Fault Refusal :=
  let other := fun (s : State) (p : Piece) => !p.done && isPeer p.key && !isSelfPeer s p.key
  match findOp s s.subj.a with
  | none => event s
  | some o =>
    if o.ctr.isNone || !reachable s o then event s
    else
      let s := if s.subj.b = causeCode .stalexlat then
          (match o.pieces.find? (other s) with | some p => gatewayDrop s (gatewayOf o.core) p.key | none => s) else s
      event (refusePiece s o (other s) (fun p => peerFault s.subj.b p o))

/-- HOST_READ_TIMEOUT: the host read of operation `a` completes with an error status, `b` = 1, or has not completed in 50 ms: PAGE subcode
0 with the host pointer, or with TVAL 0 at the release that it flushes (R305, R396). -/
def execHostReadTimeout (s : State) : Host.Outcome State Fault Refusal :=
  match findOp s s.subj.a with
  | none => event s
  | some o =>
    if s.subj.b ≠ 1 ∧ s.devtime < o.since + 50000000 then event s
    else if o.kind = .flush ∧ o.pend then event (onOp s o.id (fun o => { o with fault := some (.page, 0, 0) }))
    else if writes o.kind then event s
    else event (refusePiece s o (fun p => !p.done && isHost p.key) (fun p => some (.page, 0, p.ptr)))

/-- A translation put into a core's TLB, which holds 64 (R154). -/
def tlbPut (k : Core) (x : Xlat) : Core := { k with tlb := (x :: k.tlb.filter (fun y => y != x)).take 64 }

/-- Misses of a die's second-level cache that wait before a step: a die runs 512 walks at once, and the others wait in the order in
which they arrived (R154). -/
def walksBefore (s : State) (die n : Nat) : Nat :=
  ((s.cores.flatMap (fun p => p.2.slots.toList)).filter (fun t => match t.walk with
    | some (a, sp, va) => xlatDie s a va == die && decide (t.walkAt < n) && (xlatGet s a sp va).isNone
    | none => false)).length

/-- TRANSLATION_WALK: the second-level cache, or a walk, answers the miss of the strand in slot `b` of core `a`: the translation
goes into the core's TLB, or the instruction will find that there is none (R151, R153, R154). -/
def execTranslationWalk (s : State) : Host.Outcome State Fault Refusal :=
  let c := s.subj.a
  let i := s.subj.b
  let t := s.slot c i
  match t.walk with
  | none => event s
  | some (asid, space, va) =>
    if (xlatGet s asid space va).isNone ∧
        (512 ≤ walksBefore s (xlatDie s asid va) t.walkAt ∨ !(walkReads s asid space va).all (fun k => homeRoom s (k / 64))) then event s
    else
      match answerWalk (perf s c 0x16 1) t.ctx asid space va with
      | (s, .ok x) => event ((s.onCore c (fun k => tlbPut k x)).setSlot c i { t with walk := none })
      | (s, .error sub) => event (s.setSlot c i { t with walk := none, walkFail := some (asid, space, va, sub) })

/-- FORWARDING_ENTRY_EXPIRY: the `b`-th forwarding entry of core `a` has stood for 4 us and is free again (R45). -/
def execForwardingEntryExpiry (s : State) : Host.Outcome State Fault Refusal :=
  let k := s.core s.subj.a
  match k.fwd[s.subj.b]? with
  | none => event s
  | some e => if e.till ≤ s.devtime then event (s.onCore s.subj.a (fun k => { k with fwd := k.fwd.eraseIdx s.subj.b })) else event s

end Sys2Proof.Machine
end

