-- ==== Sys2Proof/Machine/Range.lean ====
section
/-!
DEFINITION. Ranges of memory that an engine or the hardware moves: their checks and translation, piece by piece (R97, R141, R151,
R209), and their bytes.
-/

namespace Sys2Proof.Machine

open Sys2Proof

/-- Who an engine or the hardware acts for: a core, its context and ASID, and whether it is privileged. -/
structure Actor where
  core : Nat
  ctx : Nat
  asid : Nat
  priv : Bool
  deriving DecidableEq, Repr

/-- The running strand as an actor. -/
def State.actor (s : State) : Actor := ⟨s.cur.1, s.me.ctx, s.me.asid, s.me.priv⟩

/-- The strand that issued an operation, or an entry of a tile queue, as an actor. -/
def Op.actor (o : Op) : Actor := ⟨o.core, o.ctx, o.asid, o.priv⟩
def TileOp.actor (e : TileOp) : Actor := ⟨e.core, e.ctx, e.asid, e.priv⟩

/-- A fault with its subcode and TVAL. -/
abbrev Flt := Cause × Nat × Word

/-- The translation of an address for an actor as it stands: its core's TLB, the second-level cache, or the tables (R154). -/
def actorXlat (s : State) (a : Actor) (space va : Nat) : Except Nat Xlat :=
  match (s.core a.core).tlb.find? (xlatHas a.asid space (va / 4096)) with
  | some x => .ok x
  | none => xlatNow s a.asid space va

/-- Where the piece at a pointer lies, by its translation at issue (log 9): PAGE or PROT with the pointer of the piece, DIELOST with the
mask of lost dies. -/
def engLocate (s : State) (a : Actor) (need : Nat) (p : Word) (n : Nat) : Except Flt Nat :=
  let onDie := fun (k : Nat) => if onLostDie s k then (.error (.dielost, 0, word (lostMask s)) : Except Flt Nat) else .ok k
  match tagOf p with
  | 5 => .ok (peerKey p)
  | 6 => .ok (hostKey (bits p 47 0))
  | 0 | 4 =>
    match actorXlat s a (tagOf p) (bits p 47 0) with
    | .error sub => .error ((walkTrap sub).1, (walkTrap sub).2, if sub = 3 then word (lostMask s) else p)
    | .ok x => if xlatPerm x need a.priv then onDie (xlatAddr x (bits p 47 0)) else .error (.prot, 0, p)
  | _ =>
    let c := spCore a.core p
    if regionOk s c a.ctx a.asid a.priv (bits p 17 0) n then onDie (spKey c (bits p 17 0)) else .error (.prot, 0, p)

/-- Bytes from a pointer to the end of the piece that holds it: a page of 4 KiB, or a KiB of a scratchpad. -/
def pieceLeft (p : Word) : Nat :=
  match tagOf p with
  | 1 | 2 | 3 => 1024 - p.toNat % 1024
  | _ => 4096 - p.toNat % 4096

/-- The pieces of `len` bytes from an offset of a range on, in ascending order, each pointer checked; at most `fuel` of them. -/
def segsFrom (s : State) (a : Actor) (need : Nat) (base : Word) (off len : Nat) : Nat → Except Flt (List Seg)
  | 0 => .ok []
  | fuel + 1 =>
    if len = 0 then .ok []
    else
      let p := ptrAdd base off
      let n := Nat.min len (pieceLeft p)
      match ptrCheck .engine p with
      | some c => .error (c, 0, p)
      | none =>
        match engLocate s a need p n with
        | .error f => .error f
        | .ok k =>
          match segsFrom s a need base (off + n) (len - n) fuel with
          | .error f => .error f
          | .ok l => .ok ({ off := off, len := n, key := k } :: l)

/-- The pieces of a range, checked at issue: SPACE and BOUND, then every piece. -/
def rangeSegs (s : State) (a : Actor) (need : Nat) (base : Word) (len : Nat) : Except Flt (List Seg) :=
  match ptrCheck .engine base with
  | some c => .error (c, 0, base)
  | none => segsFrom s a need base 0 len (len / 1024 + 3)

/-- The pieces of the rows of a range with a stride, their offsets counted over the rows' bytes. -/
def rowSegs (s : State) (a : Actor) (need : Nat) (base : Word) (stride rowLen : Nat) : List Nat → Except Flt (List Seg)
  | [] => .ok []
  | i :: t =>
    match rangeSegs s a need (ptrAdd base (stride * i)) rowLen with
    | .error f => .error f
    | .ok l =>
      match rowSegs s a need base stride rowLen t with
      | .error f => .error f
      | .ok m => .ok (l.map (fun g => { g with off := g.off + i * rowLen }) ++ m)

/-- The key of the byte at an offset of a range. -/
def segKey (l : List Seg) (off : Nat) : Option Nat :=
  (l.find? (fun g => decide (g.off ≤ off) && decide (off < g.off + g.len))).map (fun g => g.key + (off - g.off))

/-- Bytes of a range that lie in one piece from an offset on. -/
def segRun (l : List Seg) (off : Nat) : Nat :=
  match l.find? (fun g => decide (g.off ≤ off) && decide (off < g.off + g.len)) with
  | some g => g.off + g.len - off
  | none => 0

/-! ## Translation at issue (R154, R372) -/

/-- The pages of a range that are translated: their spaces and addresses, from its first byte on. -/
def rangePages (base : Word) (len : Nat) : List (Nat × Nat) :=
  if tagOf base = 0 ∨ tagOf base = 4 then
    (tagOf base, bits base 47 0) ::
      (List.range ((bits base 47 0 % 4096 + len - 1) / 4096)).map (fun i => (tagOf base, (bits base 47 0 / 4096 + i + 1) * 4096 % 2 ^ 48))
  else []

/-- The pages of the rows of a range. -/
def rowPages (base : Word) (stride rowLen rows : Nat) : List (Nat × Nat) :=
  (List.range rows).flatMap (fun i => rangePages (ptrAdd base (stride * i)) rowLen)

/-- The first page from a number on for which the running strand has neither a translation nor a walk that found none. -/
def firstMissing (s : State) : Nat → List (Nat × Nat) → Option (Nat × Nat × Nat)
  | _, [] => none
  | n, (space, va) :: t =>
    match translate s space 1 va with
    | .walk _ _ _ => some (n, space, va)
    | _ => firstMissing s (n + 1) t

/-- The page for whose translation the running strand's engine command waits. -/
def pageMissing (s : State) (l : List (Nat × Nat)) : Option (Nat × Nat × Nat) := firstMissing s s.me.walked (l.drop s.me.walked)

/-- The pages of an engine command's ranges translated one after the other, each through its core's TLB, in a short stall (R154, R372); then
`k`. -/
def translated (l : List (Nat × Nat)) (k : State → Res) (s : State) : Res :=
  match pageMissing s l with
  | none => k s
  | some (n, space, va) => startWalk (s.onMe (fun t => { t with walked := n })) s.me.asid space va

/-- The pieces of a range for what the hardware itself moves, with the walks that its pages need (R154, R292). -/
def hardSegs (s : State) (a : Actor) (need : Nat) (base : Word) (len : Nat) : State × Except Flt (List Seg) :=
  let s := (rangePages base len).foldl (fun s x => (answerWalk s a.ctx a.asid x.1 x.2).1) s
  (s, rangeSegs s a need base len)

/-! ## Accesses of engines -/

/-- Whether the banks of some bytes can serve an engine at once: a scratchpad bank whose queue is empty, so that the access is the first to
arrive, a home bank that holds the line or has a way for it (R140, R146). A location of this device named as a peer's is that location. -/
def bankFree (s : State) (k n : Nat) : Bool :=
  let k := locOf s { key := k, n := n }
  if isHbm k then (List.range ((k % 64 + n + 63) / 64)).all (fun i => homeRoom s (k / 64 + i))
  else if isScratch k then (List.range ((k % 16 + n + 15) / 16)).all (fun i =>
    (mapGet [] (s.core (keyCore k)).bankq (spBank (keyOff k + 16 * i))).isEmpty)
  else true

/-- Whether the banks of the pieces of a range can serve an engine at once. -/
def segsFree (s : State) (l : List Seg) : Bool := l.all (fun g => bankFree s g.key g.len)

/-- Whether the banks of a range that can be reached can serve an engine at once. -/
def rangeFree (s : State) (a : Actor) (need : Nat) (base : Word) (len : Nat) : Bool :=
  match rangeSegs s a need base len with | .ok l => segsFree s l | .error _ => true

/-- REMOTE of an engine whose peer has no READY port (R303, R374). -/
def engRemote : Flt := (.remote, 0, BitVec.allOnes 64)

/-- What a peer that refuses an engine's read, or with `need` 2 its write, answers (R158, R374, R480; log 12). -/
def engRefused (s : State) (need : Nat) (p : Word) : Flt :=
  match (Config.peerAnswer s.tick).toNat % (if need = 2 then 3 else 4) with
  | 0 => (.page, 0, p)
  | 1 => (.prot, 0, p)
  | 2 => (.stalexlat, 0, p)
  | _ => (.poison, 0, p)

/-- An engine command's next access to some pieces, where their banks can serve it and its peer locations have ports; where one has no port
the command waits for up to 1 ms, and then makes the access, which is refused (R140, R146, R303). -/
def portWait (s : State) (id core : Nat) (l : List Seg) (k : State → State) : State :=
  let go := fun (s : State) => k { s with portWaits := mapDel s.portWaits id }
  if !segsFree s l then s
  else if l.all (fun g => keyReady s core g.key) then go s
  else
    match mapGet? s.portWaits id with
    | none => { s with portWaits := mapSet s.portWaits id s.devtime }
    | some t => if t + 1000000 ≤ s.devtime then go s else s

/-- An engine's access to a peer location: without a port REMOTE; at the own device, as a peer, it goes on at the location named (R136);
at another, whose answer is free, `other` (R157, log 12). -/
def engPeer {α : Type} (s : State) (a : Actor) (need k n : Nat) (p : Word) (own : State → Nat → State × Except Flt α)
    (other : State → α) : State × Except Flt α :=
  if !keyReady s a.core k then (s, .error engRemote)
  else if isSelfPeer s k then
    match selfTarget s (gatewayOf a.core) need { key := k, n := n, ptr := p } with
    | (s, .error f) => (s, .error f)
    | (s, .ok k) => if onLostDie s k then (s, .error (.dielost, 0, word (lostMask s))) else own s k
  else if (Config.peerAnswer s.tick).toNat < 128 then (gatewayPut s (gatewayOf a.core) k, .ok (other s))
  else
    let f := engRefused s need p
    (if f.1 = .stalexlat then gatewayDrop s (gatewayOf a.core) k else s, .error f)

/-- The bank of a location about to serve a context: a home bank holds the line from then on (R146, R292). -/
def atBank (s : State) (ctx k : Nat) : State :=
  let s := touchKey s ctx k
  if isHbm k then homeTake s (k / 64) else s

/-- Bytes read at a bank for a context. -/
def bankRead (s : State) (ctx k n : Nat) (p : Word) : State × Except Flt (List Byte) :=
  match applyRead (atBank s ctx k) k n with
  | (s, some v) => (s, .ok (leBytes n v))
  | (s, none) => (s, .error (.poison, 0, p))

/-- What an engine reads at a location: bytes, or the fault of the unit; a peer or the host answers freely. -/
def engRead (s : State) (a : Actor) (k n : Nat) (p : Word) : State × Except Flt (List Byte) :=
  if onLostDie s k then (s, .error (.dielost, 0, word (lostMask s)))
  else if isHost k then
    (s, if Config.hostFails s.tick then .error (.page, 0, p) else .ok (leBytes n (freeNat Config.hostByte s.tick k n)))
  else if isPeer k then
    engPeer s a 1 k n p (fun s k => bankRead s a.ctx k n p) (fun s => leBytes n (freeNat Config.peerByte s.tick k n))
  else bankRead s a.ctx k n p

/-- Bytes written at a bank for a context, with the completion time. -/
def bankWrite (s : State) (ctx k : Nat) (l : List Byte) : State × Except Flt Nat :=
  let s := applyBytes (atBank s ctx k) k l
  (s, .ok (tcOf s k))

/-- What an engine writes at a location: the module after it, the completion time, or the fault that a peer answers. -/
def engWrite (s : State) (a : Actor) (k : Nat) (l : List Byte) (p : Word) : State × Except Flt Nat :=
  if onLostDie s k then (s, .error (.dielost, 0, word (lostMask s)))
  else if isHost k then (s, .ok s.devtime)
  else if isPeer k then
    engPeer s a 2 k l.length p (fun s k => bankWrite s a.ctx k l) (fun s => s.devtime)
  else bankWrite s a.ctx k l

/-- A unit of this device poisoned by an engine that copies poison; the poison that reaches the host or another device is theirs (R291). -/
def engPoison (s : State) (a : Actor) (k n : Nat) (p : Word) : State × Except Flt Nat :=
  if isHost k then (s, .ok s.devtime)
  else if isPeer k then engPeer s a 2 k n p (fun s k => (setBad s (unitOf k) true, .ok s.devtime)) (fun s => s.devtime)
  else (setBad s (unitOf k) true, .ok s.devtime)

/-- Bytes from a key to the end of its unit: 16 bytes in a scratchpad, a peer's too, a line elsewhere (R169). -/
def unitRest (k : Nat) : Nat :=
  if isScratch k || (isPeer k && nbits (k - 2 ^ 60) 47 44 == 3) then 16 - k % 16 else 64 - k % 64

/-- Bytes of a run of locations, unit by unit in ascending order; the fault of the first unit that fails. -/
def readRun (s : State) (a : Actor) (k : Nat) (p : Word) (len : Nat) : Nat → State × Except Flt (List Byte)
  | 0 => (s, .ok [])
  | fuel + 1 =>
    if len = 0 then (s, .ok [])
    else
      let n := Nat.min len (unitRest k)
      match engRead s a k n p with
      | (s, .error f) => (s, .error f)
      | (s, .ok l) =>
        match readRun s a (k + n) (ptrAdd p n) (len - n) fuel with
        | (s, .error f) => (s, .error f)
        | (s, .ok m) => (s, .ok (l ++ m))

/-- The bytes of a whole range; the fault of the first unit that fails. -/
def readSegs (s : State) (a : Actor) (base : Word) : List Seg → State × Except Flt (List Byte)
  | [] => (s, .ok [])
  | g :: t =>
    match readRun s a g.key (ptrAdd base g.off) g.len (g.len / 16 + 2) with
    | (s, .error f) => (s, .error f)
    | (s, .ok l) =>
      match readSegs s a base t with
      | (s, .error f) => (s, .error f)
      | (s, .ok m) => (s, .ok (l ++ m))

/-- Numbers of `w` bytes. -/
def unpack (w : Nat) : Nat → List Byte → List Nat
  | 0, _ => []
  | n + 1, l => leNat (l.take w) :: unpack w n (l.drop w)

/-- Bytes that the hardware itself writes to a run of locations, unit by unit. -/
def putRun (s : State) (k : Nat) (l : List Byte) : Nat → State
  | 0 => s
  | fuel + 1 =>
    if l.isEmpty then s
    else
      let n := Nat.min l.length (unitRest k)
      putRun (applyBytes s k (l.take n)) (k + n) (l.drop n) fuel

/-- Bytes written to a run of locations, unit by unit in ascending order: the latest completion time, or the fault of the first
unit that fails, with the units before it written. -/
def writeRun (s : State) (a : Actor) (k : Nat) (p : Word) (l : List Byte) : Nat → State × Except Flt Nat
  | 0 => (s, .ok 0)
  | fuel + 1 =>
    if l.isEmpty then (s, .ok 0)
    else
      let n := Nat.min l.length (unitRest k)
      match engWrite s a k (l.take n) p with
      | (s, .error f) => (s, .error f)
      | (s, .ok tc) =>
        match writeRun s a (k + n) (ptrAdd p n) (l.drop n) fuel with
        | (s, .error f) => (s, .error f)
        | (s, .ok tc') => (s, .ok (Nat.max tc tc'))

/-- The bytes of a whole range written: the latest completion time, or the fault of the first unit that fails. -/
def writeRange (s : State) (a : Actor) (base : Word) (l : List Byte) : List Seg → State × Except Flt Nat
  | [] => (s, .ok 0)
  | g :: t =>
    match writeRun s a g.key (ptrAdd base g.off) ((l.drop g.off).take g.len) (g.len / 16 + 2) with
    | (s, .error f) => (s, .error f)
    | (s, .ok tc) =>
      match writeRange s a base l t with
      | (s, .error f) => (s, .error f)
      | (s, .ok tc') => (s, .ok (Nat.max tc tc'))

/-- The module with a range of the device written. -/
def writeSegs (s : State) (a : Actor) (base : Word) (l : List Byte) (g : List Seg) : State := (writeRange s a base l g).1

/-- The pieces of a row of a range, their offsets counted from the row's start. -/
def rowOf (l : List Seg) (rowLen i : Nat) : List Seg :=
  (l.filter (fun g => decide (i * rowLen ≤ g.off) && decide (g.off < (i + 1) * rowLen))).map
    (fun g => { g with off := g.off - i * rowLen })

/-- The units in which a row begins and ends, by its pieces. -/
def rowEnds (l : List Seg) : Option (Nat × Nat) :=
  match l.head?, l.getLast? with
  | some a, some b => some (unitOf a.key, unitOf (b.key + b.len - 1))
  | _, _ => none

/-- Whether a row ends in the unit in which the next one begins, so that an engine writes both at once (R171). -/
def rowsMeet (l : List Seg) (rowLen i : Nat) : Bool :=
  match rowEnds (rowOf l rowLen i), rowEnds (rowOf l rowLen (i + 1)) with
  | some (_, b), some (a, _) => b == a
  | _, _ => false

/-- Rows written from a number on, up to one that ends with its unit: the latest completion time and the next row; the fault of the first
that fails (R171). -/
def writeRows (write : State → Nat → State × Except Flt Nat) (meets : Nat → Bool) : Nat → State → Nat → Nat → State × Except Flt (Nat × Nat)
  | 0, s, i, tc => (s, .ok (tc, i))
  | fuel + 1, s, i, tc =>
    match write s i with
    | (s, .error f) => (s, .error f)
    | (s, .ok t) =>
      if meets i then writeRows write meets fuel s (i + 1) (Nat.max tc t) else (s, .ok (Nat.max tc t, i + 1))

/-- The rows that such a step writes from a number on. -/
def rowsFrom (meets : Nat → Bool) : Nat → Nat → List Nat
  | 0, _ => []
  | fuel + 1, i => i :: (if meets i then rowsFrom meets fuel (i + 1) else [])

/-- Whether every piece of some ranges lies in a scratchpad of a cluster: the default scope is CORE, else DEVICE (R169, R212). -/
def nearCluster (g : Nat) (l : List Seg) : Bool := l.all (fun x => isScratch x.key && clusterOf (keyCore x.key) == g)

/-- Whether the release at the fork of an engine command has been made for its task: the stores and atomics that the task issued before it
are acknowledged; `wide`, at CLUSTER scope or wider, their completion times have passed (R164, R169, Table 8.1). -/
def forked (s : State) (task id hor : Nat) (wide : Bool) : Bool :=
  !s.ops.any (fun o => task != 0 && o.task == task && decide (o.id < id) && (o.ctr == some .st || isAtomic o.kind)) &&
    (!wide || decide (hor ≤ s.devtime))

end Sys2Proof.Machine
end

