-- ==== Sys2Proof/Machine/Atomic.lean ====
section
/-!
DEFINITION. Atomics, update functions, reduction lines, monitors and barriers (major 0x0C): R177-R190, R352-R353, R356-R359,
R368, R461, R500-R501, R519-R520, and the bank steps that perform them.
-/

namespace Sys2Proof.Machine

open Sys2Proof

/-! ## AMO, CAS, UFN and RED -/

/-- An update of the `w` bytes at a pointer, its old value owed to a register (R178, R353). -/
def issueUpdate (kind : OpKind) (w : Nat) (p : Word) (rd : Nat) (s : State) : Res :=
  access .amo (loadLane p w) (fun ps s =>
    let o := { myOp s kind with ctr := some .ld, regs := [.s rd], pieces := ps }
    watched 2 (loadLane p w) (enqueue (startOp s o) o.id ps 0)) s

/-- AMO of an operation (R352, R353). -/
def amoForm (op : AmoOp) (d a b : BitVec 5) (x y : Bool) (z : BitVec 2) (s : State) : Host.Outcome State Fault Refusal :=
  finish 4 (guard [rdS s.me a y, rdS s.me b false, wrS s.me d x] (fun s =>
    issueUpdate (.amo op (2 ^ z.toNat) (s.me.rs b false)) (2 ^ z.toNat) (s.me.rs a y) (s.me.reg d.toNat x) s) s)

/-- AMO.add (R352). -/
def execAmoAdd (d a b : BitVec 5) (x y : Bool) (z : BitVec 2) (s : State) : Host.Outcome State Fault Refusal :=
  amoForm .add d a b x y z s
/-- AMO.and (R352). -/
def execAmoAnd (d a b : BitVec 5) (x y : Bool) (z : BitVec 2) (s : State) : Host.Outcome State Fault Refusal :=
  amoForm .and d a b x y z s
/-- AMO.or (R352). -/
def execAmoOr (d a b : BitVec 5) (x y : Bool) (z : BitVec 2) (s : State) : Host.Outcome State Fault Refusal :=
  amoForm .or d a b x y z s
/-- AMO.xor (R352). -/
def execAmoXor (d a b : BitVec 5) (x y : Bool) (z : BitVec 2) (s : State) : Host.Outcome State Fault Refusal :=
  amoForm .xor d a b x y z s
/-- AMO.min (R352). -/
def execAmoMin (d a b : BitVec 5) (x y : Bool) (z : BitVec 2) (s : State) : Host.Outcome State Fault Refusal :=
  amoForm .min d a b x y z s
/-- AMO.max (R352). -/
def execAmoMax (d a b : BitVec 5) (x y : Bool) (z : BitVec 2) (s : State) : Host.Outcome State Fault Refusal :=
  amoForm .max d a b x y z s
/-- AMO.swap (R352). -/
def execAmoSwap (d a b : BitVec 5) (x y : Bool) (z : BitVec 2) (s : State) : Host.Outcome State Fault Refusal :=
  amoForm .swap d a b x y z s

/-- CAS (R368): sd holds the expected value and receives the old one. -/
def execCas (d a b : BitVec 5) (x y : Bool) (z : BitVec 2) (s : State) : Host.Outcome State Fault Refusal :=
  finish 4 (guard [rdS s.me a y, rdS s.me b false, rwS s.me d x] (fun s =>
    issueUpdate (.cas (2 ^ z.toNat) (s.me.rs d x) (s.me.rs b false)) (2 ^ z.toNat) (s.me.rs a y) (s.me.reg d.toNat x) s) s)

/-- UFN (R500): ILLOP when e0[3:0] names no installed function. -/
def execUfn (d a b : BitVec 5) (x y : Bool) (s : State) : Host.Outcome State Fault Refusal :=
  finish 4 (guard [rdS s.me a y, rdS s.me b false, rwS s.me d x] (fun s =>
    let f := (s.me.e 0).toNat % 16
    match functionAt s (2 ^ 20 + s.cur.1) f with
    | (s, none) => .trap s .illop 0 (instrWord (.ufn d a b x y))
    | (s, some g) =>
      issueUpdate (.ufn f (s.me.rs b false) (s.me.rs d x)) (if g.wide then 8 else 4) (s.me.rs a y) (s.me.reg d.toNat x) s) s)

/-- Whether a micro-operation may be installed at a width (R180, Table 9.2). -/
def microOk (wideF : Bool) (i : BitVec 32) : Bool :=
  let op := nbits i.toNat 31 27
  decide (op ≤ 17) && (op == 0 || nbits i.toNat 26 24 != 0) && !(wideF && (op == 16 || op == 17)) &&
    nbits i.toNat 17 17 == 0 && (op == 15 || nbits i.toNat 16 0 == 0)

/-- UFNCFG acknowledged by every unit and every core: its function is theirs all, and no earlier install of its number goes on (R501). -/
def ufnInstalled (s : State) (o : Op) : State :=
  match o.kind with
  | .ufncfg f wide body =>
    { s with
      ufns := mapSet s.ufns f ⟨wide, body⟩
      ops := s.ops.filter (fun x => !((match x.kind with | .ufncfg g _ _ => g == f | _ => false) && decide (x.id ≤ o.id))) }
  | _ => dropOp s o.id

/-- UFNCFG (R180, R501): the body is read, behind the strand's own accesses to it (R161), and checked, and the install goes to every unit
and core; it is a short stall until they have acknowledged, by which time it is issued again. -/
def execUfncfg (a b : BitVec 5) (y : Bool) (s : State) : Host.Outcome State Fault Refusal :=
  finish 4 (privOnly (.ufncfg a b y) (fun s => guard [rdS s.me a y, rdS s.me b false] (fun s =>
    let p := s.me.rs a y
    let v := s.me.rs b false
    match pending s with
    | some o => .ok (ufnInstalled s o)
    | none =>
      if tagOf p ≠ 4 then .trap s .space 0 p
      else
        access .load [{ lane := 0, ptr := p, n := 64 }] (fun ps s =>
          match ps with
          | q :: _ =>
            if !settled s q.key 64 then .stall s .retry
            else
            match applyRead (touchKey s s.me.ctx q.key) q.key 64 with
            | (s, none) => .trap s .poison 0 p
            | (s, some _) =>
              let body := (List.range 16).map (fun i => BitVec.ofNat 32 (readNat s (q.key + 4 * i) 4))
              if bits v 63 5 ≠ 0 ∨ !body.all (microOk (bits v 4 4 == 1)) then .trap s .bound 0 p
              else .stall (startOp s { myOp s (.ufncfg (bits v 3 0) (bits v 4 4 == 1) body) with pend := true }) .retry
          | [] => .ok s) s) s) s)

/-- RED (R461). -/
def execRed (a b : BitVec 5) (y : Bool) (z : BitVec 2) (s : State) : Host.Outcome State Fault Refusal :=
  finish 4 (guard [rdS s.me a y, rdS s.me b false] (fun s =>
    let w := if z = 1 then 8 else 4
    let lanes := loadLane (s.me.rs a y) w
    access .red lanes (fun ps s =>
      let o := { myOp s (.red (z == 1) (s.me.rs b false)) with ctr := some .st, pieces := ps, ptr := s.me.rs a y }
      watched 2 lanes (startOp s o)) s) s)

/-- ATOMIC_APPLY: the home bank performs piece `b` of the AMO or CAS `a` (R178, R179). -/
def execAtomicApply (s : State) : Host.Outcome State Fault Refusal :=
  match homePiece s s.subj.a s.subj.b (fun k => match k with | .amo _ _ _ | .cas _ _ _ => true | _ => false) with
  | none => event s
  | some (o, p) => event (applyHome s o s.subj.b p)

/-- UFN_APPLY: the home bank performs piece `b` of the UFN `a` (R181). -/
def execUfnApply (s : State) : Host.Outcome State Fault Refusal :=
  match homePiece s s.subj.a s.subj.b (fun k => match k with | .ufn _ _ _ => true | _ => false) with
  | none => event s
  | some (o, p) => event (applyHome s o s.subj.b p)

/-- Whether a RED has waited its 10 us for a slot (R184). -/
def redWaited (s : State) (o : Op) : Bool := o.phase == 2 && decide (o.since + 10000 ≤ s.devtime)

/-- RED_APPLY: the home bank applies piece `b` of the RED `a` into the issuing core's slot; one that needs a slot where none is
free waits from then on, and is applied once one is free, but no more after 10 us (R182, R184). -/
def execRedApply (s : State) : Host.Outcome State Fault Refusal :=
  match homePiece s s.subj.a s.subj.b (fun k => match k with | .red _ _ => true | _ => false) with
  | none => event s
  | some (o, p) =>
    match o.kind with
    | .red i64 _ =>
      if redWaited s o then event s
      else if !redFull s o p i64 then event (applyHome s o s.subj.b p)
      else if o.phase = 2 then event s
      else event (onOp s o.id (fun o => { o with phase := 2, since := s.devtime }))
    | _ => event s

/-- Whether a RED is to be refused: it has waited its time for a slot and is not applied (R184). -/
def redRefused (s : State) (o : Op) : Bool :=
  (match o.kind with | .red _ _ => true | _ => false) && redWaited s o && o.pieces.any (fun p => !p.done)

/-- RED_SLOT_TIMEOUT: RED `a` has waited 10 us at its bank for a slot and is refused with RTFULL, not applied (R184). -/
def execRedSlotTimeout (s : State) : Host.Outcome State Fault Refusal :=
  match findOp s s.subj.a with
  | none => event s
  | some o => if redRefused s o then event (donePiece s o.id 0 0 s.devtime (some (.rtfull, 0, o.ptr))) else event s

/-! ## WAITC -/

/-- WAITC (R519): its registration is on its way, a short stall; the bank that finds the condition unmet blocks it (`monitorPiece`)
until an application meets the condition; then sd is written, and it acts as an acquire at DEVICE scope. Its faults are raised at it. -/
def execWaitc (d a b : BitVec 5) (x y : Bool) (c : BitVec 2) (s : State) : Host.Outcome State Fault Refusal :=
  finish 4 (guard [rdS s.me a y, rdS s.me b false, wrS s.me d x] (fun s =>
    let lanes := loadLane (s.me.rs a y) 8
    match pending s with
    | none =>
      access .waitc lanes (fun ps s =>
        let o := { myOp s (.waitc c.toNat (s.me.rs b false) false 0) with pend := true, pieces := ps }
        .stall (enqueue (startOp s o) o.id ps 0) (.op o.id)) s
    | some o =>
      match opFault o with
      | some (cause, sub, tval) => .trap (dropOp s o.id) cause sub tval
      | none =>
        match o.answer with
        | some l =>
          watched 0 lanes ((dropOp s o.id).onMe (fun t =>
            { t.ws d x (word (l.headD 0)) with flr := Nat.max t.flr o.rd, rdMax := Nat.max t.rdMax o.rd }))
        | none => if o.pieces.all (·.done) then .block s (.op o.id) else .stall s (.op o.id)) s)

/-- MONITOR_REGISTRATION: the home bank reads the word of WAITC `a` and registers its monitor in one cycle (R174, R185). -/
def execMonitorRegistration (s : State) : Host.Outcome State Fault Refusal :=
  match homePiece s s.subj.a 0 (fun k => match k with | .waitc _ _ _ _ => true | _ => false) with
  | none => event s
  | some (o, p) => event (applyHome s o 0 p)

/-- WAITC_RETRY: WAITC `a`, which found the table full, reads again after 1 us (R186). -/
def execWaitcRetry (s : State) : Host.Outcome State Fault Refusal :=
  match findOp s s.subj.a with
  | none => event s
  | some o =>
    match o.kind, o.pieces.head? with
    | .waitc _ _ false t, some p =>
      if p.done ∧ o.answer = none ∧ opFault o = none ∧ t ≤ s.devtime ∧ bankFree s p.key 8 then
        event (if isHbm p.key then applyHome s o 0 p else applyPiece s o 0 p)
      else event s
    | _, _ => event s

/-! ## Barriers (R187-R190) -/

/-- A barrier of a cluster. -/
def barrier (s : State) (g b : Nat) : Barrier := mapGet {} (s.cluster g).bars b

/-- COUNT as a signed number of 48 bits (R359). -/
def count48 (z : Int) : Int := (z + 2 ^ 47) % (2 ^ 48 : Int) - 2 ^ 47

/-- The completion check made after each update: the phase completes when NEED arrivals and zero COUNT hold (R190). -/
def checkPhase (now : Nat) (b : Barrier) : Barrier :=
  if b.need ≠ 0 ∧ b.arr = b.need ∧ b.count = 0 then { b with phase := b.phase + 1, arr := 0, ended := now } else b

/-- A barrier of a cluster updated and checked. -/
def onBarrier (s : State) (g b : Nat) (f : Barrier → Barrier) : State :=
  s.onCluster g (fun c => { c with bars := mapSet c.bars b (checkPhase s.devtime (f (mapGet {} c.bars b))) })

/-- The strand's arrival record of a barrier. -/
def Strand.arrival (t : Strand) (b : Nat) : Option (BitVec 16) := (t.arrRec[b]?).getD none

/-- The strand with an arrival record set. -/
def Strand.setArrival (t : Strand) (b : Nat) (r : Option (BitVec 16)) : Strand :=
  { t with arrRec := t.arrRec.setIfInBounds b r }

/-- BARA (R357): BOUND when the strand has arrived in the current phase. -/
def execBara (b : BitVec 5) (s : State) : Host.Outcome State Fault Refusal :=
  finish 4 (
    let ph := (barrier s s.myCluster b.toNat).phase
    if s.me.arrival b.toNat = some ph then .trap s .bound 0 (b.setWidth 64)
    else
      .ok (onBarrier (s.onMe (fun t => t.setArrival b.toNat (some ph))) s.myCluster b.toNat (fun x =>
        { x with arr := (x.arr + 1) % 128 })))

/-- BARW (R358): completes when the record is none or of another phase, clears it, and acquires at DEVICE scope with F raised to
the instant at which the phase completed. -/
def execBarw (b : BitVec 5) (s : State) : Host.Outcome State Fault Refusal :=
  finish 4 (
    let x := barrier s s.myCluster b.toNat
    if s.me.arrival b.toNat = some x.phase then .block s (.barrier b.toNat x.phase.toNat)
    else .ok (s.onMe (fun t => { t.setArrival b.toNat none with flr := Nat.max t.flr x.ended })))

/-- BARX (R359): COUNT rises by the declaration, NEED is set where one is given, sd receives PHASE. -/
def execBarx (d a b : BitVec 5) (x y : Bool) (s : State) : Host.Outcome State Fault Refusal :=
  finish 4 (guard [rdS s.me a y, wrS s.me d x] (fun s =>
    let v := s.me.rs a y
    if bits v 46 40 > 64 ∨ bits v 63 47 ≠ 0 then .trap s .bound 0 v
    else
      let ph := (barrier s s.myCluster b.toNat).phase
      .ok (onBarrier (s.onMe (fun t => t.ws d x (ph.setWidth 64))) s.myCluster b.toNat (fun q =>
        { q with count := count48 (q.count + bits v 39 0), need := if bits v 46 40 = 0 then q.need else bits v 46 40 }))) s)

/-- BARRIER_CREDIT: cluster `a` credits its oldest delivery, of those that no release holds back, to its barrier (R170, R189). -/
def execBarrierCredit (s : State) : Host.Outcome State Fault Refusal :=
  match (s.cluster s.subj.a).credits.find? (fun x => decide (x.2.2 ≤ s.devtime)) with
  | none => event s
  | some x =>
    event (onBarrier (s.onCluster s.subj.a (fun c => { c with credits := c.credits.erase x })) s.subj.a x.1 (fun q =>
      { q with count := count48 (q.count - x.2.1) }))

end Sys2Proof.Machine
end

