-- ==== Sys2Proof/Machine/Flags.lean ====
section
/-!
DEFINITION. FMT (Table 4.6): its fields, the flags that an operation raises and the FPX trap (R58, R81, R121, R133, R473).
-/

namespace Sys2Proof.Machine

open Sys2Proof

/-- FMT.RM. -/
def fmtRm (f : BitVec 27) : Rm := rmOf (f.extractLsb' 0 2)

/-- FMT.NXA. -/
def fmtNxa (f : BitVec 27) : Nat := (f.extractLsb' 4 2).toNat

/-- FMT.NXB. -/
def fmtNxb (f : BitVec 27) : Nat := (f.extractLsb' 6 2).toNat

/-- FMT.SATEN. -/
def fmtSaten (f : BitVec 27) : Bool := f.getLsbD 8

/-- FMT.XEN in the same order. -/
def fmtXen (f : BitVec 27) : Flags := f.extractLsb' 22 5

/-- The bits of FMT that are not reserved (Table 4.6). -/
def fmtBits : BitVec 27 := 0x7FF01F3

/-- The bits of the sticky flags SAT and FLG. -/
def fmtSticky : BitVec 27 := 0x3F0000

/-- Raised flags and a clamp ORed into FMT (R121, R116). -/
def fmtRaise (f : BitVec 27) (fl : Flags) (sat : Bool) : BitVec 27 :=
  f ||| (fl.setWidth 27 <<< 16) ||| (if sat then 0x200000 else 0)

/-- The rounding control of a strand. -/
def fpCtl (t : Strand) : FpCtl := ⟨fmtRm t.fmt, fmtSaten t.fmt⟩

/-- A strand with the flags of a completed operation in its FMT. -/
def Strand.raise (t : Strand) (fl : Flags) (sat : Bool) : Strand := { t with fmt := fmtRaise t.fmt fl sat }

/-- The end of an operation that raises flags: FPX where an enabled flag is raised, with nothing written and TVAL the flags
that trapped; otherwise the effect and the flags (R121). -/
def raising (fl : Flags) (sat : Bool) (k : State → State) (s : State) : Res :=
  if fl &&& fmtXen s.me.fmt ≠ 0 then .trap s .fpx 0 ((fl &&& fmtXen s.me.fmt).setWidth 64)
  else .ok ((k s).onMe (fun t => t.raise fl sat))

/-- The effect of SETFMT on FMT: the written value, reserved bits reading zero (R81, R473). -/
def setFmt (v : Word) : BitVec 27 := (v.setWidth 27) &&& fmtBits

/-- CSRW of FMT: the RW fields take the written value, SAT and FLG are only cleared (R4, R379). -/
def csrwFmt (f : BitVec 27) (v : Word) : BitVec 27 :=
  (setFmt v &&& ~~~fmtSticky) ||| (f &&& setFmt v &&& fmtSticky)

/-- Whether NXA or NXB of a value for FMT is 3 (R81). -/
def fmtBad (v : Word) : Bool := bits v 5 4 == 3 || bits v 7 6 == 3

/-- The control fields of one FMT with the sticky flags of another (R58). -/
def carryFmt (control sticky : BitVec 27) : BitVec 27 := (control &&& ~~~fmtSticky) ||| (sticky &&& fmtSticky)

end Sys2Proof.Machine
end

