-- ==== Sys2Proof/Machine/Clock.lean ====
section
/-!
DEFINITION. Cluster clocks: lock domains, targets, changes of clock, the governor and PWRREQ (R56, R309-R312).
-/

namespace Sys2Proof.Machine

open Sys2Proof

/-! ## Lock domains (R56) -/

/-- The member clusters of a channel: its publisher's and those of its ports (R52). -/
def chanClusters (x : IChan) : List Nat :=
  ((match x.pub with | some (k, _, _) => [clusterOf k] | none => []) ++ x.ports.map (fun p => clusterOf p.core)).eraseDups

/-- The channels that hold a lock: PUBLISHED or ENDING. -/
def liveChans (s : State) : AMap IChan := s.chans.filter (fun p => p.2.st == .published || p.2.st == .ending)

/-- Clusters joined through channels that they share, in so many rounds. -/
def growDomain (l : AMap IChan) (gs : List Nat) : Nat → List Nat
  | 0 => gs
  | n + 1 =>
    growDomain l ((gs ++ (l.filter (fun p => (chanClusters p.2).any gs.contains)).flatMap (fun p => chanClusters p.2)).eraseDups) n

/-- The lock domain of a cluster. -/
def domain (s : State) (g : Nat) : List Nat := growDomain (liveChans s) [g] (liveChans s).length

/-- Whether a cluster is locked. -/
def locked (s : State) (g : Nat) : Bool := (liveChans s).any (fun p => (chanClusters p.2).contains g)

/-- The deciding cluster of a domain: the publisher's of its lowest-numbered PUBLISHED channel. -/
def decider (s : State) (g : Nat) : Option Nat :=
  ((liveChans s).find? (fun p => p.2.st == .published && (chanClusters p.2).any (domain s g).contains)).bind (fun p =>
    p.2.pub.map (fun q => clusterOf q.1))

/-! ## Targets and changes (R310, R311) -/

/-- A clock within 9 to 31. -/
def clampClock (f : Nat) : Nat := Nat.max 9 (Nat.min 31 f)

/-- The supply of a clock in half millivolts (R309). -/
def supplyOf (f : Nat) : Nat := if f ≤ 27 then 1120 + 10 * (f - 9) else 1300 + 65 * (f - 27)

/-- The supply of a cluster: that of its clock, or of the higher clock to which it is changing (R311). -/
def supply (c : Cluster) : Nat := supplyOf (Nat.max c.freq (Nat.max (c.change.getD 0) (c.lockSwitch.getD 0)))

/-- What a cluster chooses for itself: its pin, or its governor's choice, which may lie below 9 or above 31 (R310). -/
def choice (c : Cluster) : Nat := match c.pin with | some (f, _) => f | none => c.gov.toNat

/-- The clock that a cluster should have: 9 while it, or any of its domain, is tripped; its choice or its floor, the higher; in a
domain the deciding cluster's choice and the highest floor (R56, R310, R313). -/
def target (s : State) (g : Nat) : Nat :=
  let c := s.cluster g
  if locked s g then
    let d := domain s g
    if d.any (fun h => (s.cluster h).tripped) then 9
    else
      match decider s g with
      | some h => clampClock ((d.map (fun h => (s.cluster h).floor)).foldl Nat.max (choice (s.cluster h)))
      | none => c.freq
  else if c.tripped then 9
  else clampClock (Nat.max (choice c) c.floor)

/-- A cluster set on its way to a clock: a lowering at once, a raise once its regulator has settled (R311). -/
def changeTo (f : Nat) (c : Cluster) : Cluster :=
  if f < c.freq then { c with freq := f, change := none }
  else if f = c.freq then { c with change := none }
  else { c with change := some f }

/-- The clusters whose clock is one with a cluster's. -/
def together (s : State) (g : Nat) : List Nat := if locked s g then domain s g else [g]

/-- The clocks of a cluster and its domain follow their target. -/
def retarget (s : State) (g : Nat) : State :=
  let f := target s g
  (together s g).foldl (fun s h => s.onCluster h (changeTo f)) s

/-- REGULATOR_SETTLED: the regulators of cluster `a`, or of every member of its domain, have settled, and the clock rises (R311). -/
def execRegulatorSettled (s : State) : Host.Outcome State Fault Refusal :=
  event ((together s s.subj.a).foldl (fun s h => s.onCluster h (fun c =>
    match c.change with | some f => { c with freq := f, change := none } | none => c)) s)

/-- The governor's choice from a window's stall cycles and its READY and STALLED cycles (R310). -/
def govern (g : Int) (stalls cycles : Nat) : Int :=
  if cycles = 0 then 9
  else if cycles ≤ 2 * stalls then g - 1
  else if 8 * stalls ≤ cycles then g + 1
  else g

/-- Whether a cluster's governor is to sample a window of 10 us, which ends now (R310): no passage of time steps over the end of one
(log 2). A cluster that nothing has touched in its window has counted no cycle. -/
def sampleDue (now : Nat) (c : Cluster) : Bool := decide (now % 10000 = 0) && decide (c.sampled < now / 10000)

/-- GOVERNOR_SAMPLE: the governor of cluster `a` samples the window of 10 us that has ended: its choice from the cycles counted, and a
new count (R310). -/
def execGovernorSample (s : State) : Host.Outcome State Fault Refusal :=
  let g := s.subj.a
  if !sampleDue s.devtime (s.cluster g) then event s
  else
    event (retarget (s.onCluster g (fun c => { c with
      gov := govern c.gov c.stalls c.busy, stalls := 0, busy := 0, sampled := s.devtime / 10000 })) g)

/-- The clusters of a channel, and those joined with them through the channels that they share, switched to their common clock (R56):
each starts its switch. -/
def startLocks (s : State) (c : Nat) : State :=
  match (chanClusters (s.chan c)).head? with
  | none => s
  | some g => (domain s g).foldl (fun s h => s.onCluster h (fun x => { x with lockSwitch := some (target s g), change := none })) s

/-! ## PWRREQ (R312, R453) -/

/-- Why a request for a pin is denied: the code. -/
def pwrDenied (s : State) (g f : Nat) : Option Nat :=
  if locked s g ∧ decider s g ≠ some g then some 4
  else if f < 9 then some 2
  else if f < (s.cluster g).floor then some 3
  else none

/-- Whether a change of a cluster's clock is under way: by its regulator, or to a group frequency (R56, R311). -/
def changing (c : Cluster) : Bool := c.change.isSome || c.lockSwitch.isSome

/-- PWRREQ: a release of the pin is code 5; a grant is code 1 once the change of clock has completed. -/
def execPwrreq (d a : BitVec 5) (y : Bool) (s : State) : Host.Outcome State Fault Refusal :=
  finish 4 (guard [rdS s.me a y, wrS s.me d false] (fun s =>
    let v := s.me.rs a y
    let g := s.myCluster
    let out := fun (n : Nat) (s : State) => Res.ok (s.onMe (fun t => t.ws d false (word n)))
    match pending s with
    | some o =>
      if !changing (s.cluster g) then out 1 { s with ops := s.ops.filter (fun x => x.id != o.id) } else .stall s .retry
    | none =>
      if bits v 63 6 ≠ 0 then .trap s .bound 0 v
      else if bits v 5 5 = 1 then out 5 (retarget (s.onCluster g (fun c => { c with pin := none })) g)
      else
        match pwrDenied s g (bits v 4 0) with
        | some n => out n s
        | none =>
          let s := retarget (s.onCluster g (fun c => { c with pin := some (bits v 4 0, s.me.ctx) })) g
          if !changing (s.cluster g) then out 1 s
          else
            let o : Op := { id := s.nextId, kind := .pwr v, core := s.cur.1, slot := s.cur.2, task := s.me.task, ctx := s.me.ctx,
                            asid := s.me.asid, priv := s.me.priv, pc := s.me.pc.toNat, since := s.devtime, pend := true }
            .stall { s.fresh with ops := s.ops ++ [o] } .retry) s)

end Sys2Proof.Machine
end

