-- ==== Sys2Proof/Machine/Message.lean ====
section
/-!
DEFINITION. Buffered sends, launches as they are issued, the handler table, groups, multicast, migration and the arrival of
messages (major 0x0F and part of 0x10): R29-R33, R37, R43-R44, R172-R173, R335, R343, R400, R402-R404, R412-R415, R431-R436,
R471-R472, R486.
-/

namespace Sys2Proof.Machine

open Sys2Proof

/-! ## Send queues (R37) -/

/-- Entries of a strand's send queue that hold a committed message of its slot or are reserved (R37, R526). -/
def sendUsed (s : State) (core i net : Nat) : Nat :=
  (s.net.filter (fun p => p.holds == some i && p.src == core && p.net == net)).length +
    (let t := s.slot core i; if t.entering then 0 else (t.sends.filter (fun x => x.net == net)).length)

/-- A send buffered in its queue, or SQFULL with the network's number (R37). -/
def buffer (x : Send) (s : State) : Res :=
  if sendUsed s s.cur.1 s.cur.2 x.net < 32 then .ok (s.onMe (fun t => { t with sends := t.sends ++ [x] }))
  else .trap s .sqfull 0 (word x.net)

/-- The uses of a range of registers that a field starts; past the allotment REGBOUND names its last one. -/
def rangeUses (b : BitVec 5) (n : Nat) : List Use := ⟨0, ((b.toNat + n - 1 : Nat) : Int), true, false⟩ :: rdRange b.toNat n

/-- The destination word of a send is well formed (R471). -/
def destOk (w : Word) : Bool := bits w 63 32 == 0 && (bits w 19 19 == 1 || bits w 31 20 == 0)

/-- A send on a network (R335, R471, R472). -/
def sendForm (net : Nat) (i : Instr) (a b : BitVec 5) (y : Bool) (s : State) : Host.Outcome State Fault Refusal :=
  finish 4 (guard (rdS s.me a y :: rangeUses b 8) (fun s =>
    let w := s.me.rs a y
    if !destOk w then .trap s .bound 0 w
    else if net = 2 ∧ !s.me.fromTimed ∧ !s.me.priv then .trap s .priv 0 (instrWord i)
    else buffer { form := 0, net := net, dest := w.setWidth 32, data := payloadOf s.me b, pc := s.me.pc.toNat } s) s)

/-- SEND, on the request network (R471). -/
def execSend (a b : BitVec 5) (y : Bool) (s : State) : Host.Outcome State Fault Refusal := sendForm 0 (.send a b y) a b y s

/-- SENDR, on the reply network (R471). -/
def execSendr (a b : BitVec 5) (y : Bool) (s : State) : Host.Outcome State Fault Refusal := sendForm 1 (.sendr a b y) a b y s

/-- SENDT, on the timed network (R471). -/
def execSendt (a b : BitVec 5) (y : Bool) (s : State) : Host.Outcome State Fault Refusal := sendForm 2 (.sendt a b y) a b y s

/-- TASK (R486): a message to a channel of the issuing core. -/
def execTask (a b : BitVec 5) (y : Bool) (s : State) : Host.Outcome State Fault Refusal :=
  finish 4 (guard (rdS s.me a y :: rangeUses b 8) (fun s =>
    let w := s.me.rs a y
    if bits w 63 6 ≠ 0 then .trap s .bound 0 w
    else buffer { form := 1, net := 0, dest := BitVec.ofNat 32 (s.cur.1 + 2 ^ 13 * bits w 5 0), data := payloadOf s.me b,
                  pc := s.me.pc.toNat } s) s)

/-! ## LAUNCH (R255, R343, R412-R414) -/

/-- The core-set word of a launch is well formed (R343, R412, R413). -/
def coreSetOk (w : Word) : Bool :=
  let c0 := bits w 12 0
  let nc := bits w 26 13
  let timed := bits w 27 27 == 1
  let peer := bits w 28 28 == 1
  !(timed && peer) && bits w 63 41 == 0 && (peer || bits w 40 29 == 0) &&
    (if timed then c0 == 0 && nc == 0 else decide (1 ≤ nc) && decide (nc ≤ 8192) && decide (c0 + nc ≤ 8192))

/-- The tasks of a grid. -/
def gridCount (e0 e1 : BitVec 32) : Nat := nbits e0.toNat 15 0 * nbits e0.toNat 31 16 * nbits e1.toNat 15 0

/-- The lines of a record at a pointer. -/
def recordLanes (p : Word) (n : Nat) : List Lane := (List.range (n / 64)).map (fun i => { lane := i, ptr := ptrAdd p (64 * i), n := 64 })

/-- The send that a LAUNCH buffers (Table 14.8, FORM 4). -/
def launchSend (s : State) (sd sa : Word) (b : BitVec 5) : Send :=
  { form := 4, net := 0, dest := 0,
    data := [sd, sa, word ((s.me.e 0).toNat + nbits (s.me.e 1).toNat 15 0 * 2 ^ 32)] ++
      (List.range 5).map (fun i => s.me.s (b.toNat + i)),
    pc := s.me.pc.toNat }

/-- LAUNCH (R343, R412-R414): the core-set word, the grid or the record, then its place in the send queue. -/
def execLaunch (d a b : BitVec 5) (x y : Bool) (s : State) : Host.Outcome State Fault Refusal :=
  finish 4 (guard [rdS s.me a y] (fun s =>
    let sd := s.me.rs d x
    let sa := s.me.rs a y
    let timed := bits sa 27 27 == 1
    guard ((if timed then [] else rangeUses b 5) ++ [rdS s.me d x]) (fun s =>
      if !coreSetOk sa then .trap s .bound 0 sa
      else if !timed ∧ sd = 0 then
        if gridCount (s.me.e 0) (s.me.e 1) > 2 ^ 24 then .trap s .bound 0 ((s.me.e 0).setWidth 64)
        else buffer (launchSend s sd sa b) s
      else access .pref (recordLanes sd (if timed then 128 else 64)) (fun _ s => buffer (launchSend s sd sa b) s) s) s) s)

/-! ## The handler table (R29-R31, R402-R404) -/

/-- The bits of an entry that HTSET writes; on a TIMED entry not PRIO (R404). -/
def entryMask (timed : Bool) : Nat :=
  (2 ^ 32 - 1) * 2 ^ 96 + (2 ^ 7 - 1) * 2 ^ 84 + (2 ^ 13 - 1) * 2 ^ 64 + (if timed then 0 else 7 * 2 ^ 61) +
    (2 ^ 47 - 1) * 2 + 1

/-- An entry with its writable fields written (R404). -/
def entryWrite (e v : BitVec 128) : BitVec 128 :=
  let m := BitVec.ofNat 128 (entryMask (entBits e 91 91 == 1))
  (e &&& ~~~m) ||| (v &&& m)

/-- An entry with its MASK bit set to a value (R403). -/
def entryMaskBit (e : BitVec 128) (b : Bool) : BitVec 128 :=
  let m := BitVec.ofNat 128 (2 ^ 89)
  if b then e ||| m else e &&& ~~~m

/-- Whether an unprivileged write of an entry traps with PRIV (R30). -/
def entryPriv (ctx : Nat) (e v : BitVec 128) : Bool :=
  (entBits e 0 0 == 1 && entBits e 76 64 != ctx) || entBits v 76 64 != entBits e 76 64 ||
    (entBits v 63 61 == 7 && entBits e 91 91 == 0) || (entBits v 127 96 == 2 ^ 32 - 1 && entBits e 91 91 == 1)

/-- A handler table entry changed. -/
def onEntry (s : State) (core ch : Nat) (f : BitVec 128 → BitVec 128) : State :=
  s.onCore core (fun k => { k with handlers := mapSet k.handlers ch (f (k.entry ch)) })

/-- What a write of the handler table does at its target. -/
def applyHandler (s : State) (core ch : Nat) (mask : Bool) (data : BitVec 128) : State :=
  onEntry s core ch (fun e => if mask then entryMaskBit e (data.getLsbD 0) else entryWrite e data)

/-- A write of an entry: at once on the own core; otherwise a remote request and a short stall until it is applied (R402). -/
def handlerWrite (w : Word) (mask : Bool) (data : BitVec 128) (s : State) : Res :=
  if targetCore w = s.cur.1 then .ok (applyHandler s (targetCore w) (targetChan w) mask data)
  else if (s.die (dieOf (targetCore w))).lost then .trap s .dielost 0 (word (lostMask s))
  else if 64 ≤ remoteCount s s.cur.1 then .stall s .retry
  else
    let o := { myOp s (.handler mask data) with pend := true, ptr := w }
    .stall (startOp s o) (.op o.id)

/-- HMASK (R402, R403). -/
def execHmask (a b : BitVec 5) (y : Bool) (s : State) : Host.Outcome State Fault Refusal :=
  finish 4 (guard [rdS s.me a y, rdS s.me b false] (awaiting (fun s =>
    let w := s.me.rs a y
    let v := s.me.rs b false
    let e := (s.core (targetCore w)).entry (targetChan w)
    if bits w 63 19 ≠ 0 then .trap s .bound 0 w
    else if bits v 63 1 ≠ 0 then .trap s .bound 0 v
    else if !s.me.priv ∧ entBits e 0 0 = 1 ∧ entBits e 76 64 ≠ s.me.ctx then .trap s .priv 0 (instrWord (.hmask a b y))
    else handlerWrite w true (v.setWidth 128) s) (fun _ _ s => .ok s) (fun s o => .stall s (.op o.id))) s)

/-- HTSET (R402, R404). -/
def execHtset (a b : BitVec 5) (y : Bool) (s : State) : Host.Outcome State Fault Refusal :=
  finish 4 (guard (rdS s.me a y :: rangeUses b 2) (awaiting (fun s =>
    let w := s.me.rs a y
    let v : BitVec 128 := (s.me.s (b.toNat + 1)).append (s.me.s b.toNat)
    let e := (s.core (targetCore w)).entry (targetChan w)
    if bits w 63 19 ≠ 0 then .trap s .bound 0 w
    else if !s.me.priv ∧ entryPriv s.me.ctx e v then .trap s .priv 0 (instrWord (.htset a b y))
    else handlerWrite w false v s) (fun _ _ s => .ok s) (fun s o => .stall s (.op o.id))) s)

/-- HANDLER_TABLE_ENTRY_WRITE: the target core applies HTSET or HMASK `a` (R402). -/
def execHandlerTableEntryWrite (s : State) : Host.Outcome State Fault Refusal :=
  match findOp s s.subj.a with
  | none => event s
  | some o =>
    match o.kind, o.answer with
    | .handler mask data, none => event (answerOp (applyHandler s (targetCore o.ptr) (targetChan o.ptr) mask data) o.id [])
    | _, _ => event s

/-! ## Groups (R43, R400) -/

/-- The key of a group of a context. -/
def groupKey (ctx g : Nat) : Nat := ctx * 4096 + g

/-- The cluster of a group's root router (R43, log 13). -/
def groupRoot (key : Nat) : Nat := Config.groupHash (key / 4096) (key % 4096) % 512

/-- Whether the die of a group's root router is lost (R400): some die is, and the root lies on it. -/
def rootLost (s : State) (key : Nat) : Bool := lostMask s != 0 && (s.die (groupRoot key / 128)).lost

/-- The members of a group. -/
def members (s : State) (key : Nat) : List Nat := mapGet [] s.groups key

/-- A core put into a list of members in ascending order. -/
def insertMember (c : Nat) : List Nat → List Nat
  | [] => [c]
  | x :: t => if c < x then c :: x :: t else if c = x then x :: t else x :: insertMember c t

/-- The group records at a root router. -/
def recordsAt (s : State) (root : Nat) : Nat := (s.groups.filter (fun p => groupRoot p.1 == root && !p.2.isEmpty)).length

/-- A request to a group's root, a remote request (R156): a short stall until the root answers; DIELOST where the root lies on a lost die
(R400). -/
def groupRequest (kind : OpKind) (g : Nat) (done : List Nat → State → Res) (s : State) : Res :=
  awaiting (fun s =>
    if rootLost s (groupKey s.me.ctx g) then .trap s .dielost 0 (word (lostMask s))
    else if 64 ≤ remoteCount s s.cur.1 then .stall s .retry
    else
      let o := { myOp s kind with pend := true, ptr := word g }
      .stall (startOp s o) (.op o.id)) (fun _ l s => done l s) (fun s o => .stall s (.op o.id)) s

/-- JOIN (R43, R400). -/
def execJoin (g : BitVec 12) (s : State) : Host.Outcome State Fault Refusal :=
  finish 4 (groupRequest .join g.toNat (fun _ s => .ok s) s)

/-- LEAVE (R43, R400). -/
def execLeave (g : BitVec 12) (s : State) : Host.Outcome State Fault Refusal :=
  finish 4 (groupRequest .leave g.toNat (fun _ s => .ok s) s)

/-- GSIZE (R43, R400). -/
def execGsize (d : BitVec 5) (g : BitVec 12) (s : State) : Host.Outcome State Fault Refusal :=
  finish 4 (guard [wrS s.me d false] (fun s =>
    groupRequest .gsize g.toNat (fun l s => .ok (s.onMe (fun t => t.ws d false (word (l.headD 0))))) s) s)

/-- GROUP_ROOT_UPDATE: the root serves JOIN, LEAVE or GSIZE `a` (R43, R400). -/
def execGroupRootUpdate (s : State) : Host.Outcome State Fault Refusal :=
  match findOp s s.subj.a with
  | none => event s
  | some o =>
    let key := groupKey o.ctx o.ptr.toNat
    let root := groupRoot key
    let l := members s key
    if o.answer.isSome || o.fault.isSome then event s
    else
      match o.kind with
      | .join =>
        if l.isEmpty && decide (256 ≤ recordsAt s root) then
          event (onOp (forget s o.id) o.id (fun o => { o with fault := some (.bound, 0, o.ptr) }))
        else
          event (answerOp (touchDie { s with groups := mapSet s.groups key (insertMember o.core l) } o.ctx (root / 128)) o.id [])
      | .leave =>
        let l := l.filter (· != o.core)
        event (answerOp { s with groups := if l.isEmpty then mapDel s.groups key else mapSet s.groups key l } o.id [])
      | .gsize => event (answerOp s o.id [l.length])
      | _ => event s

/-! ## Multicast (R172, R173, R431-R433) -/

/-- MCAST (R431, R432). -/
def execMcast (d a : BitVec 5) (x y : Bool) (z : BitVec 2) (s : State) : Host.Outcome State Fault Refusal :=
  finish 4 (guard [rdS s.me a y, rdS s.me d x] (fun s =>
    let n := 2 ^ z.toNat
    let w := s.me.rs a y
    if bits w 35 18 ≠ 0 ∨ bits w 63 48 ≠ 0 then .trap s .bound 0 w
    else if bits w 17 0 % n ≠ 0 then .trap s .align 0 w
    else if rootLost s (groupKey s.me.ctx (bits w 47 36)) then .trap s .dielost 0 (word (lostMask s))
    else if acquiring s ∨ 64 ≤ remoteCount s s.cur.1 then .stall s .retry
    else
      .ok (startOp s { myOp s (.mcast n ((s.me.rs d x).toNat % 2 ^ (8 * n))) with ctr := some .st, ptr := w })) s)

/-- The group that an operation's destination word names. -/
def opGroup (o : Op) : Nat := groupKey o.ctx (bits o.ptr 47 36)

/-- Whether an operation is a multicast to a group on its way to the root. -/
def isMcast (o : Op) : Bool := match o.kind with | .mcast _ _ | .copym => true | _ => false

/-- The fault that refusals make (R173). -/
def partFault (refused : List Nat) : Option (Cause × Nat × Word) :=
  if refused.isEmpty then none
  else some (.mcastpart, 0,
    word ((refused.foldl (fun m j => if j < 48 then m ||| 2 ^ j else m) 0) + refused.length % 2 ^ 13 * 2 ^ 48))

/-- MCAST_SERIALISE: the root takes multicast `a`, in program order of its strand, and fixes its members (R172, R433). -/
def execMcastSerialise (s : State) : Host.Outcome State Fault Refusal :=
  match findOp s s.subj.a with
  | none => event s
  | some o =>
    if isMcast o && o.phase == 0 && (match o.kind with | .mcast _ _ => true | _ => o.pos == 0 && !o.src.isEmpty) &&
        !s.ops.any (fun x => isMcast x && x.task == o.task && x.phase == 0 && decide (x.id < o.id) && opGroup x == opGroup o) then
      let l := members s (opGroup o)
      let s := touchDie s o.ctx (groupRoot (opGroup o) / 128)
      event (onOp s.fresh o.id (fun o => { o with
        phase := 3, members := l, todo := l, since := s.nextId
        tc := if l.isEmpty then Nat.max o.tc s.devtime else o.tc
        answer := if l.isEmpty then some [] else o.answer }))
    else event s

/-- Whether a member applies a multicast next: none to its group that the root took earlier is still to come there (R172). -/
def mcastNext (s : State) (o : Op) (core : Nat) : Bool :=
  o.phase == 3 && o.todo.contains core &&
    !s.ops.any (fun x => isMcast x && x.phase == 3 && opGroup x == opGroup o && x.todo.contains core && decide (x.since < o.since))

/-- MCAST_MEMBER_APPLY: member `b` applies the store of MCAST `a` at its scratchpad bank once the requests that arrived there before are
served (R140), or refuses it for its regions or a poisoned unit (R173, R432). -/
def execMcastMemberApply (s : State) : Host.Outcome State Fault Refusal :=
  match findOp s s.subj.a with
  | none => event s
  | some o =>
    match o.kind with
    | .mcast n data =>
      let core := s.subj.b
      let off := bits o.ptr 17 0
      let k := spKey core off
      if !mcastNext s o core || !bankFree s k n then event s
      else
        let bad := !regionOk s core o.ctx o.asid o.priv off n || poisoned s k n || onLostDie s k
        let rank := (o.members.idxOf? core).getD 0
        let s := if bad then s else applyWrite (touchKey s o.ctx k) k n data (2 ^ n - 1)
        let todo := o.todo.filter (· != core)
        let refused := if bad then o.refused ++ [rank] else o.refused
        event (onOp s o.id (fun o => { o with
          todo := todo, refused := refused
          tc := Nat.max o.tc s.devtime
          answer := if todo.isEmpty then some [] else none
          fault := if todo.isEmpty then partFault refused else none }))
    | _ => event s

/-! ## Migration (R44, R45, R434, R435) -/

/-- The lowest stream register bound with KIND 2 or 3. -/
def boundStream (t : Strand) : Option Nat := (List.range 8).find? (fun n => (t.q n).kind == 2 || (t.q n).kind == 3)

/-- Whether the conditions for which MIGRATE waits hold (R44); results of the SFU are waited for as well. -/
def migrateReady (s : State) : Bool :=
  s.me.cSt == 0 && decide (s.myCore.fwd.length < 16) &&
    !s.ops.any (fun o => o.task == s.me.task && (o.kind == .sfu || o.pieces.any (fun p => isHost p.key || isPeer p.key || tagOf p.ptr == 5)))

/-- The operations counted in cp and tl that a task leaves running belong to no task any more (R281). -/
def orphan (s : State) (task : Nat) : State :=
  { s with
    ops := s.ops.map (fun o => if o.task = task ∧ o.ctr = some .cp then { o with task := 0 } else o)
    clusters := s.clusters.map (fun p => (p.1, { p.2 with
      tileq := p.2.tileq.map (fun e => if e.task = task then { e with task := 0 } else e) })) }

/-- The task as its migration message carries it: without watches, arrival records, engine counters, faults of engine commands and timing
(R44, R85, R281, R435); the freshness floor rises on arrival (R176). -/
def carriedTask (t : Strand) : Strand :=
  { t with
    st := .free, faults := t.faults.filter (fun d => !lateFault d), watch := Vector.replicate 2 0, arrRec := Vector.replicate 32 none, cCp := 0, cTl := 0, timing := none,
    timed := false, wait := .nothing, walk := none, walkFail := none, pc := t.pc + 4, rdMax := 0, repCp := 0, repTl := 0 }

/-- MIGRATE (R434, R435): the task leaves in one message on the request network that holds no send queue entry; the old core
retires the original message and keeps a forwarding entry for 4 us. Late faults that no WAIT raised are reported, and a timed task
lapses (R271, R281). -/
def execMigrate (a : BitVec 5) (y : Bool) (s : State) : Host.Outcome State Fault Refusal :=
  finish 4 (guard [rdS s.me a y] (fun s =>
    let w := s.me.rs a y
    let e := (s.core (targetCore w)).entry (targetChan w)
    let t := s.me
    if bits w 63 19 ≠ 0 then .trap s .bound 0 w
    else if t.pub || t.sub || t.uns then subTrap s t.ichan 4
    else
      match boundStream t with
      | some n => .trap s .bound 0 (word n)
      | none =>
        if entBits e 0 0 = 1 ∧ entBits e 76 64 ≠ t.ctx then .trap s .priv 0 (instrWord (.migrate a y))
        else if !migrateReady s then .stall s .retry
        else
          let s := countLapse (lateFaults s s.cur.1 s.cur.2 t) s.cur.1 t
          let s := sendPacket (orphan s t.task) s.cur.1 (targetCore w) 0 none (.migration (targetChan w) { carriedTask t with migWord := instrWord (.migrate a y) } s.devtime)
          let s := s.onCore s.cur.1 (fun k => { k with
            rx := k.rx.filter (fun m => !(m.chan == t.chan && m.seq == t.seq))
            fwd := k.fwd ++ [{ task := t.task, core := targetCore w, chan := targetChan w, till := s.devtime + 4000 }] })
          .gone (freeSlot s s.cur.1 s.cur.2)) s)

/-! ## Arrival (R33, R268, R269, R401) -/

/-- Whether the entry reserved for a channel holds a message (R33). -/
def rxReserved (k : Core) (ch : Nat) : Bool := k.rx.any (fun m => m.chan == ch && !m.shared)

/-- Whether a core's receive store has an entry for a message of a channel: its reserved one, or one of the 192 shared ones (R33). -/
def rxRoom (k : Core) (ch : Nat) : Bool := !rxReserved k ch || decide ((k.rx.filter (·.shared)).length < 192)

/-- A message put into a receive store with the next arrival number, in its channel's reserved entry if that is free (R33). -/
def rxPut (s : State) (core : Nat) (m : Msg) : State :=
  s.onCore core (fun k => { k with rx := k.rx ++ [{ m with seq := k.nextSeq, shared := rxReserved k m.chan }], nextSeq := k.nextSeq + 1 })

/-- The reservation whose tasks a channel of a core runs: one that has written the channel's entry (R267). -/
def resvOf (s : State) (core ch : Nat) : Option Resv :=
  s.resvs.find? (fun r => (r.st != 0 || r.step == 4) && r.chan == ch && decide (r.first ≤ core) && decide (core < r.first + r.ncores))

/-- The reservation's tasks per core and release: 0 acts as 16 (Table 13.2). -/
def resvTasks (r : Resv) : Nat := if r.tasks = 0 then 16 else r.tasks

/-- An arrival on a TIMED entry that the launch unit did not post: of class T2, held for the next frame, or, past TASKS in its
frame, demoted and counted; of another class, demoted (R269). -/
def timedArrival (s : State) (core : Nat) (m : Msg) : State × Msg :=
  let e := (s.core core).entry m.chan
  if entBits e 91 91 = 0 ∨ m.timing.isSome then (s, m)
  else if entBits e 93 92 ≠ 2 then (s, { m with demoted := true })
  else
    match resvOf s core m.chan with
    | none => (s, { m with demoted := true })
    | some r =>
      let frame := s.devtime / 10000
      let till := (frame + 1) * 10000
      let earlier := ((s.core core).rx.filter (fun x => x.chan == m.chan && x.heldTill == till && x.timing.isSome)).length
      if resvTasks r ≤ earlier then (perf s core 0x0C 1, { m with demoted := true })
      else (s, { m with
        heldTill := till
        timing := some { rid := r.rid, frameEnd := till + 10000, deadline := s.devtime + r.deadline, wait := r.wait, used := 0,
                         lapsed := false } })

/-- The message that a packet leaves in the receive store of its target. -/
def arrivedMsg (k : Core) (p : Packet) : Option Msg :=
  match p.body with
  | .message ch pay host dev core report timing till =>
    some { chan := ch, seq := 0, pay := pay, msgid := msgidOf dev (if host then 0 else core) ch host k.nextSeq,
           report := report, timing := timing, heldTill := till, flr := p.acq }
  | .migration ch t left =>
    some { chan := ch, seq := 0, pay := t.win, msgid := t.msgid, task := t.task,
           mig := some { t with flr := Nat.max t.flr (left + 2) } }
  | _ => none

/-- The packets that reach a core as messages. -/
def isMessage (p : Packet) : Bool := match p.body with | .message _ _ _ _ _ _ _ _ | .migration _ _ _ => true | _ => false

/-- Whether a packet is the next of its source, target and network (R33). -/
def firstOfFlow (s : State) (p : Packet) : Bool :=
  match s.net.find? (fun x => x.src == p.src && x.dst == p.dst && x.net == p.net) with
  | some x => x.pid == p.pid
  | none => false

/-- Whether the input of a core for a packet's virtual network is open to it: no other packet waits there and holds it (R33, R248). Requests
to its scratchpad, whose network the rule does not name, pass: the model's choice (log 98). -/
def inputOpen (s : State) (p : Packet) : Bool :=
  match mapGet? (s.core p.dst).held p.net with
  | some n => n == p.pid || !s.net.any (fun x => x.pid == n)
  | none => true

/-- A packet that finds no free entry waits in the network and holds its network's input at the core (R33, R248). -/
def holdInput (s : State) (p : Packet) : State := s.onCore p.dst (fun k => { k with held := mapSet k.held p.net p.pid })

/-- The module without a packet. -/
def dropPacket (s : State) (pid : Nat) : State := { s with net := s.net.filter (fun x => x.pid != pid) }

/-- A message without the timing of a reservation that has ended meanwhile (R269, R272). -/
def stillTimed (s : State) (m : Msg) : Msg :=
  if m.timing.any (fun x => !s.resvs.any (fun r => r.rid == x.rid)) then { m with timing := none } else m

/-- A message taken into a receive store. -/
def takeMessage (s : State) (core : Nat) (m : Msg) (host : Bool) : State :=
  let m := stillTimed s m
  let (s, m) := if m.mig.isSome then (s, m) else timedArrival s core m
  let s := rxPut s core m
  if host ∧ m.chan = 0 then s.onCore core (fun k => { k with halted := false }) else s

/-- MESSAGE_ARRIVAL: packet `a` arrives at its core and takes a receive store entry, or waits in the network while none is free
(R33); a host message on channel 0 ends HALT (R401). -/
def execMessageArrival (s : State) : Host.Outcome State Fault Refusal :=
  match s.net.find? (fun p => p.pid == s.subj.a && isMessage p) with
  | none => event s
  | some p =>
    match arrivedMsg (s.core p.dst) p with
    | none => event s
    | some m =>
      if !firstOfFlow s p || !inputOpen s p then event s
      else if !rxRoom (s.core p.dst) m.chan then event (holdInput s p)
      else event (takeMessage (dropPacket s p.pid) p.dst m (match p.body with | .message _ _ h _ _ _ _ _ => h | _ => false))

end Sys2Proof.Machine
end

