-- ==== Sys2Proof/Machine/Queue.lean ====
section
/-!
DEFINITION. Queue objects, their homes, permits, Glover stages and stream registers (major 0x0E and the stream engine):
R148-R149, R191-R201, R362-R364, R444-R445, R450, R454-R459, R502.
-/

namespace Sys2Proof.Machine

open Sys2Proof

/-! ## The route of a packet (R12, R13, R15, R525) -/

/-- Column and row of a cluster in its die. -/
def clusterXY (g : Nat) : Nat × Nat := (g % 8, g % 128 / 8)

/-- Mesh hops between two clusters of one die (R12). -/
def hops (a b : Nat) : Nat :=
  let (x, y) := clusterXY a
  let (u, v) := clusterXY b
  (max x u - min x u) + (max y v - min y v)

/-- The crossing cluster of a die: raw (7, 15) (R525). -/
def crossing (d : Nat) : Nat := rawCluster d 7 15

/-- Whether a cluster of a die lies on a shortest way between two clusters of that die. -/
def between (a b g : Nat) : Bool := g / 128 == a / 128 && hops a g + hops g b == hops a b

/-- The crossing routers of a route between two dies: of both, and of the die that it passes through (R525). -/
def crossings (s : State) (d e : Nat) : List Nat :=
  if d = e then [] else
    [crossing d, crossing e] ++ (if e = (d + 2) % 4 then [crossing (passDie s d)] else [])

/-- Whether a cluster's router lies on a route from one cluster to another. -/
def onRoute (s : State) (a b g : Nat) : Bool :=
  if a / 128 = b / 128 then between a b g
  else between a (crossing (a / 128)) g || between (crossing (b / 128)) b g || (crossings s (a / 128) (b / 128)).contains g

/-- Whether every route from one cluster to another passes a cluster's router: that of either end, or of a crossing (R199, R525). -/
def everyRoute (s : State) (a b g : Nat) : Bool := g == a || g == b || (crossings s (a / 128) (b / 128)).contains g

/-- The cluster whose router the home bank of a line is attached to (R15, R16). -/
def homeCluster (pa : Nat) : Nat := stackOf pa / 4 * 128 + 2 * bankOf pa

/-! ## The descriptor line (Table 9.5) -/

/-- The fields of a descriptor. -/
structure Desc where
  valid : Bool
  kind : Nat
  esize : Nat
  cap : Nat
  lease : Nat
  head : Nat
  count : Nat
  granted : Nat
  deriving DecidableEq, Repr

/-- A descriptor from the bits of its line. -/
def descOf (n : Nat) : Desc :=
  { valid := nbits n 0 0 == 1, kind := nbits n 2 1, esize := nbits n 4 3, cap := nbits n 47 24, lease := nbits n 63 48,
    head := nbits n 95 64, count := nbits n 127 96, granted := nbits n 159 128 }

/-- Bytes of an element of a size code. -/
def bytesOfCode (code : Nat) : Nat := match code with | 0 => 8 | 1 => 16 | _ => 64

/-- The size code of a size in bytes. -/
def codeOf (size : Nat) : Nat := match size with | 8 => 0 | 16 => 1 | _ => 2

/-- Whether the home refuses an operation on a descriptor (R192); the size code is absent for the forms without one. -/
def descBad (d : Desc) (code : Option Nat) : Bool :=
  !d.valid || d.kind == 3 || d.esize == 3 || d.cap == 0 || decide (d.cap ≤ d.head) || decide (d.cap < d.count + d.granted) ||
    (match code with | some c => c != d.esize | none => false)

/-- HEAD, COUNT and GRANTED written by the home. -/
def putDesc (s : State) (line head count granted : Nat) : State :=
  applyWrite s (line + 8) 12 (head % 2 ^ 32 + count % 2 ^ 32 * 2 ^ 32 + granted % 2 ^ 32 * 2 ^ 64) (2 ^ 12 - 1)

/-- The descriptor in a line as the home reads it. -/
def descAt (s : State) (line : Nat) : Desc := descOf (readNat s line 64)

/-- Permit records of an object that have expired leave the table, their counts subtracted from GRANTED (R194). -/
def expirePermits (s : State) (line : Nat) : State :=
  let lapsed := fun (r : PermRec) => r.line == line && (match r.expiry with | some e => decide (e ≤ s.devtime) | none => false)
  let n := ((s.permRecs.filter lapsed).map (·.count)).sum
  let s' := { s with permRecs := s.permRecs.filter (fun r => !lapsed r) }
  let d := descAt s line
  if n = 0 then s' else putDesc s' line d.head d.count (d.granted - n)

/-! ## Issue -/

/-- The line of an access to a handle's descriptor. -/
def handleLane (h : Word) : List Lane := [{ lane := 0, ptr := h, n := 64 }]

/-- The checks that every form makes on a handle at issue, then its operation (R444). -/
def onHandle (a : Acc) (h : Word) (k : List Piece → State → Res) (s : State) : Res := access a (handleLane h) k s

/-- The cached kind of a handle (R198). -/
def cachedKind (s : State) (h : Word) : Option Nat :=
  (s.myCore.kinds.find? (fun e => e.1 == s.me.ctx && e.2.1 == h.toNat)).map (·.2.2)

/-- The use of a cached kind makes it the most recently used. -/
def kindUse (s : State) (h : Word) : State :=
  match cachedKind s h with
  | some k => s.onCore s.cur.1 (fun c => kindPut c s.me.ctx h.toNat k)
  | none => s

/-- The configuration word of QINIT is well formed (R192). -/
def qinitOk (v : Word) : Bool :=
  bits v 1 0 != 3 && bits v 3 2 != 3 && bits v 7 4 == 0 && bits v 31 8 != 0 && bits v 63 48 == 0

/-- QINIT (R192, R455): a short stall until the home has written the descriptor; the handle is the pointer with tag 0x7, and
the write's completion time raises H. -/
def execQinit (d a b : BitVec 5) (x y : Bool) (s : State) : Host.Outcome State Fault Refusal :=
  finish 4 (guard [rdS s.me a y, rdS s.me b false, wrS s.me d x] (fun s =>
    let p := s.me.rs a y
    let v := s.me.rs b false
    match pending s with
    | none =>
      match ptrCheck .region p with
      | some c => .trap s c 0 p
      | none =>
        if p.toNat % 64 ≠ 0 then .trap s .align 0 p
        else if !qinitOk v then .trap s .bound 0 v
        else
          access .region (handleLane p) (fun ps s =>
            let o := { myOp s (.qinit v) with pend := true, pieces := ps, ptr := word (bits p 59 0 + 7 * 2 ^ 60) }
            .stall (startOp s o) (.op o.id)) s
    | some o =>
      match opFault o with
      | some (c, sub, tval) => .trap (dropOp s o.id) c sub tval
      | none =>
        if o.answer.isSome then
          .ok ((queueReply (dropOp s o.id) o).onMe (fun t => { t.ws d x o.ptr with hor := Nat.max t.hor o.tc }))
        else .stall s (.op o.id)) s)

/-- The permit cache entry of a context and handle. -/
def permitEntry (k : Core) (ctx handle : Nat) : Option PermitEntry := k.permits.find? (fun e => e.ctx == ctx && e.handle == handle)

/-- Whether a permit cache entry is free (R194). -/
def permitFree (now : Nat) (e : PermitEntry) : Bool :=
  e.busy == 0 && e.reserved.isNone && (e.count == 0 || decide (e.expiry ≤ now))

/-- QPUSH (R195, R458). -/
def execQpush (d a b : BitVec 5) (x y : Bool) (z : BitVec 2) (s : State) : Host.Outcome State Fault Refusal :=
  let size := bytesOfCode z.toNat
  let n := size / 8
  finish 4 (guard ([rdS s.me a y, ⟨0, ((b.toNat + n - 1 : Nat) : Int), true, false⟩] ++ rdRange b.toNat n ++ [wrS s.me d x])
    (fun s =>
      let h := s.me.rs a y
      onHandle .queue h (fun ps s =>
        match permitEntry s.myCore s.me.ctx h.toNat with
        | none => .trap s .permit 0 h
        | some e =>
          if e.count = 0 ∨ (e.reserved.isNone ∧ e.expiry ≤ s.devtime + 2) then .trap s .permit 0 h
          else
            let data := (List.range n).map (fun i => s.me.s (b.toNat + i))
            let o := { myOp s (.qpush size data ((cachedKind s h).getD 0) e.reserved) with
                       ctr := some .st, regs := [.s (s.me.reg d.toNat x)], pieces := ps, ptr := h }
            let s := kindUse s h
            let s := s.onCore s.cur.1 (fun k => onPermit k s.me.ctx h.toNat (fun e =>
              { e with count := e.count - 1, busy := e.busy + 1 }))
            .ok (startOp s o)) s) s)

/-- The option word of QPOP and QSTEAL is well formed (R196). -/
def popOk (v : Word) : Bool := bits v 12 11 != 3 && bits v 63 13 == 0

/-- The pairing window of a pop in mesh cycles (R196). -/
def popWindow (v : Word) : Nat := if bits v 10 10 = 1 then bits v 9 0 else 64

/-- The registers of a pop's element and status, past the register of its last one (R196, R456). -/
def popUses (t : Strand) (d : BitVec 5) (x : Bool) (v : Word) : List Use :=
  if bits v 12 11 = 3 then [wrS t d x]
  else
    let n := bytesOfCode (bits v 12 11) / 8
    ⟨0, t.idx d.toNat x + n, false, true⟩ :: wrRange t d x (n + 1)

/-- The destination registers of a pop. -/
def popRegs (t : Strand) (d : BitVec 5) (x : Bool) (size : Nat) : List Reg :=
  (List.range (size / 8 + 1)).map (fun i => .s (t.reg d.toNat x + i))

/-- Whether a held pop leaves its stage unmatched: its window in mesh cycles of half a nanosecond has passed, or its strand
begins to save (R197, R200). -/
def windowOver (s : State) (o : Op) : Bool :=
  match o.kind with
  | .qpop _ _ w _ => decide (w ≤ 2 * (s.devtime - o.since)) ||
      (match s.taskSlot o.task with | some (c, i) => (s.slot c i).st == .saving | none => false)
  | _ => false

/-- Entries of a cluster's stage that are taken: a pop whose window is over holds none (R198, R200). -/
def stageUsed (s : State) (g : Nat) : Nat :=
  ((s.cluster g).glover.filter (fun i => (findOp s i).any (fun o => !windowOver s o))).length

/-- A pop on its way: held in its cluster's Glover stage where its handle's cached kind is STACK or BAG, its window is not 0 and
the stage has a free entry; otherwise to the home (R198). -/
def sendPop (s : State) (o : Op) (window : Nat) : State :=
  let g := s.myCluster
  let held := (cachedKind s o.ptr == some 1 || cachedKind s o.ptr == some 2) && window != 0 &&
    decide (stageUsed s g < 32)
  let s := kindUse s o.ptr
  if held then
    (startOp s { o with phase := 1 }).onCluster g (fun c => { c with glover := c.glover ++ [o.id] })
  else startOp s o

/-- QPOP (R196, R456). -/
def execQpop (d a b : BitVec 5) (x y : Bool) (s : State) : Host.Outcome State Fault Refusal :=
  finish 4 (guard [rdS s.me a y, rdS s.me b false] (fun s =>
    let h := s.me.rs a y
    let v := s.me.rs b false
    guard (popUses s.me d x v) (onHandle .queue h (fun ps s =>
      if !popOk v then .trap s .bound 0 v
      else
        let size := bytesOfCode (bits v 12 11)
        let o := { myOp s (.qpop size false (popWindow v) 0) with
                   ctr := some .ld, regs := popRegs s.me d x size, pieces := ps, ptr := h }
        .ok (sendPop s o (popWindow v)))) s) s)

/-- The strand of an answered QPOP.w as it completes: its registers and its read instant. -/
def Strand.popInto (t : Strand) (o : Op) (vals : List Nat) : Strand :=
  { t.setRegs (o.members.map Reg.s) vals with rdMax := Nat.max t.rdMax o.rd }

/-- What an answered QPOP.w does as it completes: its registers, its read instant, its core's kind cache. -/
def popDone (s : State) (o : Op) (vals : List Nat) : State :=
  (queueReply (dropOp s o.id) o).onMe (fun t => t.popInto o vals)

/-- What a refused QPOP.w does as it completes: the fault is deferred, as that of every form on a handle (R158, R444, log 27). -/
def popRefused (s : State) (o : Op) (f : Cause × Nat × Word) : State :=
  (queueReply (dropOp s o.id) o).onMe (fun t => { t with
    faults := t.faults ++ [{ op := o.id, regs := o.members.map Reg.s, ctr := some .ld, upd := false, cause := f.1, sub := f.2.1,
                             tval := f.2.2, pc := o.pc }] })

/-- QPOP.w (R196, R456): it blocks until the pop is answered, by a pairing or at the home; a refusal there is an answer too (R444). -/
def execQpopW (d a b : BitVec 5) (x y : Bool) (s : State) : Host.Outcome State Fault Refusal :=
  finish 4 (guard [rdS s.me a y, rdS s.me b false] (fun s =>
    let h := s.me.rs a y
    let v := s.me.rs b false
    guard (popUses s.me d x v) (fun s =>
      match pending s with
      | none =>
        onHandle .queue h (fun ps s =>
          if !popOk v then .trap s .bound 0 v
          else
            let size := bytesOfCode (bits v 12 11)
            let o := { myOp s (.qpop size true (popWindow v) 0) with
                       pend := true, pieces := ps, ptr := h
                       members := (List.range (size / 8 + 1)).map (fun i => s.me.reg d.toNat x + i) }
            .block (sendPop s o (popWindow v)) (.op o.id)) s
      | some o =>
        match opFault o with
        | some f => .ok (popRefused s o f)
        | none =>
          match o.answer with
          | some l => .ok (popDone s o l)
          | none => .block s (.op o.id)) s) s)

/-- QSTEAL (R196, R459). -/
def execQsteal (d a b : BitVec 5) (x y : Bool) (s : State) : Host.Outcome State Fault Refusal :=
  finish 4 (guard [rdS s.me a y, rdS s.me b false] (fun s =>
    let h := s.me.rs a y
    let v := s.me.rs b false
    guard (popUses s.me d x v) (onHandle .queue h (fun ps s =>
      if !popOk v then .trap s .bound 0 v
      else
        let size := bytesOfCode (bits v 12 11)
        .ok (startOp s { myOp s (.qsteal size) with
                         ctr := some .ld, regs := popRegs s.me d x size, pieces := ps, ptr := h }))) s) s)

/-- QAVAIL (R454). -/
def execQavail (d a : BitVec 5) (x y : Bool) (s : State) : Host.Outcome State Fault Refusal :=
  finish 4 (guard [rdS s.me a y, wrS s.me d x] (fun s =>
    let h := s.me.rs a y
    onHandle .avail h (fun ps s =>
      .ok (startOp s { myOp s .qavail with ctr := some .ld, regs := [.s (s.me.reg d.toNat x)], pieces := ps, ptr := h })) s) s)

/-- The cache with an entry for a context and handle: its own, or the lowest-numbered free one (R194). -/
def permitClaim (now : Nat) (k : Core) (ctx handle : Nat) : Option Core :=
  let fresh : PermitEntry := { ctx := ctx, handle := handle, count := 0, expiry := 0, busy := 0, reserved := none }
  if (permitEntry k ctx handle).isSome then some k
  else
    match k.permits.findIdx? (permitFree now) with
    | some i => some { k with permits := k.permits.set i fresh }
    | none => if k.permits.length < 16 then some { k with permits := k.permits ++ [fresh] } else none

/-- PERMIT (R194, R445): 0 without asking where the cache has no room or the entry is reserved (R268). -/
def execPermit (d a b : BitVec 5) (x y : Bool) (s : State) : Host.Outcome State Fault Refusal :=
  finish 4 (guard [rdS s.me a y, rdS s.me b false, wrS s.me d x] (fun s =>
    let h := s.me.rs a y
    let v := s.me.rs b false
    onHandle .queue h (fun ps s =>
      if bits v 63 32 ≠ 0 then .trap s .bound 0 v
      else
        match permitClaim s.devtime s.myCore s.me.ctx h.toNat with
        | none => .ok (s.onMe (fun t => t.ws d x 0))
        | some k =>
          if ((permitEntry k s.me.ctx h.toNat).bind (·.reserved)).isSome then .ok (s.onMe (fun t => t.ws d x 0))
          else
            let s := s.setCore s.cur.1 (onPermit k s.me.ctx h.toNat (fun e => { e with busy := e.busy + 1 }))
            .ok (startOp s { myOp s (.permit (bits v 31 0)) with
                             ctr := some .ld, regs := [.s (s.me.reg d.toNat x)], pieces := ps, ptr := h })) s) s)

/-- PRET (R194, R450): nothing is sent where nothing is to be returned; a reserved entry is not drawn on (R268). -/
def execPret (a b : BitVec 5) (y : Bool) (s : State) : Host.Outcome State Fault Refusal :=
  finish 4 (guard [rdS s.me a y, rdS s.me b false] (fun s =>
    let h := s.me.rs a y
    onHandle .queue h (fun ps s =>
      match permitEntry s.myCore s.me.ctx h.toNat with
      | none => .ok s
      | some e =>
        let m := if e.reserved.isSome then 0 else Nat.min (s.me.rs b false).toNat e.count
        if m = 0 then .ok s
        else
          let s := s.onCore s.cur.1 (fun k => onPermit k s.me.ctx h.toNat (fun e =>
            { e with count := e.count - m, busy := e.busy + 1 }))
          .ok (startOp s { myOp s (.pret m) with ctr := some .st, pieces := ps, ptr := h })) s) s)

/-! ## The home (R193) -/

/-- The operation of an event at a home: of a kind, in a phase. -/
def homeOp (s : State) (id phase : Nat) (ok : OpKind → Bool) : Option (Op × Nat) :=
  match findOp s id with
  | none => none
  | some o => if ok o.kind && o.phase == phase then o.pieces.head?.map (fun p => (o, p.key)) else none

/-- The module without a QINIT for which no instruction waits: a save has overtaken it (R39). -/
def leftInit (s : State) (o : Op) : State := match o.kind with | .qinit _ => forget s o.id | _ => s

/-- An operation refused at its home, with a fault that its issuer takes (R192, R444). -/
def homeFail (s : State) (o : Op) (f : Cause × Nat × Word) : State :=
  onOp (donePiece (leftInit s o) o.id 0 0 s.devtime (some f)) o.id (fun o => { o with phase := 4 })

/-- An operation answered by its home: values for its registers, the object's KIND and a permit's expiry. -/
def homeAnswer (s : State) (o : Op) (vals : List Nat) (extra : List Word) (tc : Nat) : State :=
  onOp (donePiece (leftInit s o) o.id 0 0 tc none) o.id (fun o => { o with phase := 4, answer := some vals, args := extra })

/-- The home serves an operation: expired permits leave, the descriptor is read and checked; then `k` (R192-R194). -/
def homeServe (s : State) (o : Op) (line : Nat) (code : Option Nat) (k : State → Desc → State) : State :=
  let s := homeTake (expirePermits (touchKey s o.ctx line) line) (line / 64)
  match applyRead s line 64 with
  | (s, none) => homeFail s o (.poison, 0, o.ptr)
  | (s, some n) => if descBad (descOf n) code then homeFail s o (.bound, 0, o.ptr) else k s (descOf n)

/-- The pointer of an element (R192). -/
def elementPtr (h : Word) (size i : Nat) : Word := word (4 * 2 ^ 60 + (bits h 47 0 + 64 + i * size) % 2 ^ 48)

/-- Where an element lies, by the issuer's map as the home finds it in the second-level cache or the tables; its faults carry the element's
address (R154, R444). -/
def elementKey (s : State) (o : Op) (need : Nat) (p : Word) : Except (Cause × Nat × Word) Nat :=
  match xlatNow s o.asid 4 (bits p 47 0) with
  | .error sub => .error ((walkTrap sub).1, (walkTrap sub).2, if sub = 3 then word (lostMask s) else p)
  | .ok x =>
    if !xlatPerm x need o.priv then .error (.prot, 0, p)
    else
      let k := xlatAddr x (bits p 47 0)
      if onLostDie s k then .error (.dielost, 0, word (lostMask s)) else .ok k

/-- The words of an element read from memory. -/
def wordsOf (size n : Nat) : List Nat := (List.range (size / 8)).map (fun i => n / 2 ^ (64 * i) % 2 ^ 64)

/-- The number that an element's words make. -/
def elementNat : List Word → Nat
  | [] => 0
  | w :: t => w.toNat + 2 ^ 64 * elementNat t

/-- The operation that has waited longest. -/
def oldestOp : List Op → Option Op
  | [] => none
  | o :: t => match oldestOp t with | none => some o | some p => if p.since < o.since then some p else some o

/-- The QPOP.w waiting longest at the home of an object (R196). -/
def waitingPop (s : State) (line : Nat) : Option Op :=
  oldestOp (s.ops.filter (fun o =>
    (match o.kind with | .qpop _ true _ _ => true | _ => false) && o.phase == 2 && o.pieces.any (fun p => p.key == line)))

/-- A record that covers a push: live permits of its core and context, or of its reservation (R195, R268). -/
def coversPush (o : Op) (rid : Option Nat) (line : Nat) (r : PermRec) : Bool :=
  r.line == line && decide (0 < r.count) && r.rid == rid && (rid.isSome || (r.core == o.core && r.ctx == o.ctx))

/-- The permit records with one permit of the first covering record used. -/
def usePermit (o : Op) (rid : Option Nat) (line : Nat) : List PermRec → List PermRec
  | [] => []
  | r :: t => if coversPush o rid line r then { r with count := r.count - 1 } :: t else r :: usePermit o rid line t

/-- A push at the home: it uses its permit, or finds room without one; it answers the oldest waiting QPOP.w before it is stored;
otherwise its element is applied, once its bank has a way for the line (R146, R195, R196, R457). -/
def servePush (s₀ : State) (o : Op) (line size : Nat) (data : List Word) (rid : Option Nat) : State :=
  homeServe s₀ o line (some (codeOf size)) (fun s d =>
    let live := s.permRecs.any (coversPush o rid line)
    if !live && decide (d.cap ≤ d.count + d.granted) then homeAnswer s o [0] [word d.kind] s.devtime
    else
      let granted := if live then d.granted - 1 else d.granted
      let used := fun (s : State) => { s with permRecs := usePermit o rid line s.permRecs }
      match waitingPop s line with
      | some w =>
        let s := putDesc (used s) line d.head d.count granted
        homeAnswer (homeAnswer s w (data.map (·.toNat) ++ [1]) [word d.kind] s.devtime) o [1] [word d.kind] s.devtime
      | none =>
        let p := elementPtr o.ptr size ((d.head + d.count) % d.cap)
        let s := touchPtr s o.ctx p
        match elementKey s o 2 p with
        | .error f => homeFail s o f
        | .ok k =>
          if !homeRoom s (k / 64) then s₀
          else
          let s := applyWrite (atBank (used s) o.ctx k) k size (elementNat data) (2 ^ size - 1)
          let s := putDesc s line d.head (d.count + 1) granted
          homeAnswer s o [1] [word d.kind] (Nat.max (tcOf s k) (tcOf s line)))

/-- The index from which an operation takes, and the new HEAD (Table 9.6). -/
def takeFrom (d : Desc) (steal : Bool) : Nat × Nat :=
  let far := d.kind = 0 ∨ (d.kind = 1 ∧ steal)
  if far then (d.head, (d.head + 1) % d.cap) else ((d.head + d.count - 1) % d.cap, d.head)

/-- A pop or steal at the home: the element and 1, once its bank has a way for the line; EMPTY; or for QPOP.w a wait in a monitor entry,
or with none free another try in 1 us (R146, R196). -/
def serveTake (s₀ : State) (o : Op) (line size : Nat) (steal wait : Bool) (window : Nat) : State :=
  homeServe s₀ o line (some (codeOf size)) (fun s d =>
    if d.count = 0 then
      if wait then
        if monitorsAt s line < 1024 then onOp s o.id (fun o => { o with phase := 2, since := s.devtime })
        else onOp s o.id (fun o => { o with phase := 3, kind := .qpop size true window (s.devtime + 1000) })
      else homeAnswer s o (List.replicate (size / 8 + 1) 0) [word d.kind] s.devtime
    else
      let (i, head) := takeFrom d steal
      let p := elementPtr o.ptr size i
      let s := touchPtr s o.ctx p
      match elementKey s o 1 p with
      | .error f => homeFail s o f
      | .ok k =>
        if !homeRoom s (k / 64) then s₀
        else
        match applyRead (atBank s o.ctx k) k size with
        | (s, none) => homeFail s o (.poison, 0, p)
        | (s, some n) =>
          let s := putDesc s line head (d.count - 1) d.granted
          homeAnswer s o (wordsOf size n ++ [1]) [word d.kind] s.devtime)

/-- The cluster in whose stage a pop is held. -/
def stageOf (s : State) (id : Nat) : Option Nat := (s.clusters.find? (fun p => p.2.glover.contains id)).map (·.1)

/-- The size of a pop's element. -/
def popSize (o : Op) : Nat := match o.kind with | .qpop n _ _ _ => n | _ => 0

/-- The oldest pop that a stage still holds for an object and size: its window is not over (R200). -/
def stagePop (s : State) (g : Nat) (h : Word) (line size : Nat) : Option Nat :=
  (s.cluster g).glover.find? (fun i => match findOp s i with
    | some o => o.ptr == h && popSize o == size && o.pieces.any (fun p => p.key == line) && !windowOver s o
    | none => false)

/-- A pop out of its stage. -/
def leaveStage (s : State) (g id : Nat) : State := s.onCluster g (fun c => { c with glover := c.glover.filter (· != id) })

/-- The place of an operation's kind in the order in which a home serves those of one mesh cycle (R193). -/
def kindRank (k : OpKind) : Nat :=
  match k with
  | .qpush _ _ _ _ => 0 | .qpop _ _ _ _ => 1 | .qsteal _ => 2 | .qavail => 3 | .permit _ => 4 | _ => 5

/-- Whether a home serves one operation before another: by mesh cycle of arrival, kind and global core index; two of one core in the
order of their issue (R193). -/
def servedBefore (a b : Op) : Bool :=
  decide (a.pos < b.pos) || (a.pos == b.pos && (decide (kindRank a.kind < kindRank b.kind) || (kindRank a.kind == kindRank b.kind &&
    (decide (a.core < b.core) || (a.core == b.core && decide (a.id < b.id))))))

/-- Whether the home of an object may serve an operation that has arrived there: its mesh cycle is over, none that comes before it
waits, and the bank has a way for the descriptor line (R146, R193). -/
def homeTurn (s : State) (o : Op) (line : Nat) : Bool :=
  decide (o.pos < 2 * s.devtime) && homeRoom s (line / 64) &&
    !s.ops.any (fun x => x.phase == 5 && x.id != o.id && x.pieces.any (fun p => p.key == line) && servedBefore x o)

/-- Whether a push meets, on every route to its home, a stage that has held a matching pop since before it was issued: it pairs there and
does not come to the home (R199). -/
def mustPair (s : State) (o : Op) (line : Nat) : Bool :=
  match o.kind with
  | .qpush size _ kd _ => (kd == 1 || kd == 2) && s.clusters.any (fun p => everyRoute s (clusterOf o.core) (homeCluster line) p.1 &&
      (match stagePop s p.1 o.ptr line size with
       | some w => decide (w < o.id)
       | none => false))
  | _ => false

/-- The earlier queue operations of an operation's task on its object, in a phase (R161). -/
def earlierOnes (s : State) (o : Op) (line phase : Nat) : List Op :=
  s.ops.filter (fun x => x.task == o.task && decide (x.id < o.id) && isQueue x.kind && x.phase == phase &&
    x.pieces.any (fun p => p.key == line))

/-- Whether no earlier queue operation of an operation's task on its object is still on its way to the home (R161). -/
def inOrder (s : State) (o : Op) (line : Nat) : Bool := (earlierOnes s o line 0).isEmpty

/-- A queue operation arrives at its object's home, in one of the two mesh cycles of the nanosecond, after those of its task that came
before it (R161, R193). -/
def homeArrive (s : State) (o : Op) (line : Nat) : State :=
  let pos := (earlierOnes s o line 5).foldl (fun n x => Nat.max n (x.pos + 1)) (2 * s.devtime + Config.freeChoice s.tick % 2)
  onOp s o.id (fun o => { o with phase := 5, pos := pos })

/-- The step of an operation at the home: it arrives there, and in its turn it is served (R193). -/
def homeStep (ok : OpKind → Bool) (serve : State → Op → Nat → State) (s : State) : State :=
  match homeOp s s.subj.a 0 ok with
  | some (o, line) => if mustPair s o line || !inOrder s o line then s else homeArrive s o line
  | none =>
    match homeOp s s.subj.a 5 ok with
    | some (o, line) => if homeTurn s o line then serve s o line else s
    | none => s

/-- QUEUE_HOME_QINIT: the home writes the descriptor of QINIT `a` (R192, R455). -/
def execQueueHomeQinit (s : State) : Host.Outcome State Fault Refusal :=
  match homeOp s s.subj.a 0 (fun k => match k with | .qinit _ => true | _ => false) with
  | none => event s
  | some (o, line) =>
    match o.kind with
    | .qinit v =>
      let lease := if bits v 47 32 = 0 then 100 else bits v 47 32
      let n := 1 + bits v 1 0 * 2 + bits v 3 2 * 8 + bits v 31 8 * 2 ^ 24 + lease * 2 ^ 48
      if !homeRoom s (line / 64) then event s
      else
        let s := applyWrite (homeTake (touchKey s o.ctx line) (line / 64)) line 64 n (2 ^ 64 - 1)
        let s := { s with queueOwners := mapSet s.queueOwners line o.ctx }
        event (homeAnswer s o [] [word (bits v 1 0)] (tcOf s line))
    | _ => event s

/-- QUEUE_HOME_PUSH: the home takes in and serves QPUSH `a` (R193, R195). -/
def execQueueHomePush (s : State) : Host.Outcome State Fault Refusal :=
  event (homeStep (fun k => match k with | .qpush _ _ _ _ => true | _ => false) (fun s o line =>
    match o.kind with
    | .qpush size data _ rid => servePush s o line size data rid
    | _ => s) s)

/-- QUEUE_HOME_POP: the home takes in and serves QPOP or QPOP.w `a` (R193, R196). -/
def execQueueHomePop (s : State) : Host.Outcome State Fault Refusal :=
  event (homeStep (fun k => match k with | .qpop _ _ _ _ => true | _ => false) (fun s o line =>
    match o.kind with
    | .qpop size w window _ => serveTake s o line size false w window
    | _ => s) s)

/-- QUEUE_HOME_STEAL: the home takes in and serves QSTEAL `a` (R193, R196). -/
def execQueueHomeSteal (s : State) : Host.Outcome State Fault Refusal :=
  event (homeStep (fun k => match k with | .qsteal _ => true | _ => false) (fun s o line =>
    match o.kind with
    | .qsteal size => serveTake s o line size true false 0
    | _ => s) s)

/-- QUEUE_HOME_AVAIL: the home takes in and answers QAVAIL `a` with COUNT (R196). -/
def execQueueHomeAvail (s : State) : Host.Outcome State Fault Refusal :=
  event (homeStep (· == .qavail) (fun s o line =>
    homeServe s o line none (fun s d => homeAnswer s o [d.count] [word d.kind] s.devtime)) s)

/-- The permit records of the table that serves a line (R194). -/
def permitsAt (s : State) (line : Nat) : Nat :=
  (s.permRecs.filter (fun r => bankOf r.line == bankOf line && stackOf r.line / 4 == stackOf line / 4)).length

/-- The home grants what fits and renews the record's expiry; its answer tells the expiry, 0 for none, and whether the earlier permits of
the record still stood (R194, R445). -/
def servePermit (s : State) (o : Op) (line want : Nat) : State :=
  homeServe s o line none (fun s d =>
    let mine := fun (r : PermRec) => r.line == line && r.core == o.core && r.ctx == o.ctx && r.rid.isNone
    let expiry := s.devtime + d.lease * 1000
    if !s.permRecs.any mine && decide (256 ≤ permitsAt s line) then homeAnswer s o [0] [word d.kind, 0, 1] s.devtime
    else
      let g := Nat.min want (d.cap - d.count - d.granted)
      let recs := if s.permRecs.any mine then
          s.permRecs.map (fun r => if mine r then { r with count := r.count + g, expiry := some expiry } else r)
        else s.permRecs ++ [{ line := line, core := o.core, ctx := o.ctx, count := g, expiry := some expiry, rid := none }]
      let renewed : Word := if s.permRecs.any mine then 1 else 0
      let s := putDesc { s with permRecs := recs } line d.head d.count (d.granted + g)
      homeAnswer s o [g] [word d.kind, word expiry, renewed] s.devtime)

/-- The home takes permits back; a record that has expired changes nothing (R194, R450). -/
def servePret (s : State) (o : Op) (line n : Nat) : State :=
  homeServe s o line none (fun s d =>
    let mine := fun (r : PermRec) => r.line == line && r.core == o.core && r.ctx == o.ctx && r.rid.isNone
    match s.permRecs.find? mine with
    | none => homeAnswer s o [] [word d.kind] s.devtime
    | some r =>
      let m := Nat.min n r.count
      let s := putDesc { s with permRecs := s.permRecs.map (fun r => if mine r then { r with count := r.count - m } else r) }
        line d.head d.count (d.granted - m)
      homeAnswer s o [] [word d.kind] (tcOf s line))

/-- QUEUE_HOME_PERMIT: the home takes in and serves PERMIT `a` (R194, R445). -/
def execQueueHomePermit (s : State) : Host.Outcome State Fault Refusal :=
  event (homeStep (fun k => match k with | .permit _ => true | _ => false) (fun s o line =>
    match o.kind with
    | .permit want => servePermit s o line want
    | _ => s) s)

/-- QUEUE_HOME_PRET: the home takes in and serves PRET `a` (R194, R450). -/
def execQueueHomePret (s : State) : Host.Outcome State Fault Refusal :=
  event (homeStep (fun k => match k with | .pret _ => true | _ => false) (fun s o line =>
    match o.kind with
    | .pret n => servePret s o line n
    | _ => s) s)

/-- PERMIT_EXPIRY: the lease of permit record `a` has run out: GRANTED loses its count (R194). -/
def execPermitExpiry (s : State) : Host.Outcome State Fault Refusal :=
  match s.permRecs[s.subj.a]? with
  | none => event s
  | some r =>
    match r.expiry with
    | some e => if e ≤ s.devtime then event (expirePermits s r.line) else event s
    | none => event s

/-- QPOP_W_RETRY: QPOP.w `a`, which found no free monitor entry, is served again after 1 us (R186, R196). -/
def execQpopWRetry (s : State) : Host.Outcome State Fault Refusal :=
  match homeOp s s.subj.a 3 (fun k => match k with | .qpop _ true _ t => decide (t ≤ s.devtime) | _ => false) with
  | none => event s
  | some (o, line) =>
    match o.kind with
    | .qpop size w window _ => if homeRoom s (line / 64) then event (serveTake s o line size false w window) else event s
    | _ => event s

/-! ## Glover pairing (R198-R200) -/

/-- GLOVER_MATCH: push `a` passes the stage that holds pop `b`, the oldest there for its handle and size, and they pair: the
element and 1 to the pop, 1 to the push, whose permit returns; PAIRCNT of the pop's core rises (R199). -/
def execGloverMatch (s : State) : Host.Outcome State Fault Refusal :=
  match homeOp s s.subj.a 0 (fun k => match k with | .qpush _ _ kd _ => kd == 1 || kd == 2 | _ => false),
      stageOf s s.subj.b, findOp s s.subj.b with
  | some (o, line), some g, some w =>
    match o.kind with
    | .qpush size data _ _ =>
      if stagePop s g o.ptr line size = some w.id ∧ onRoute s (clusterOf o.core) (homeCluster line) g then
        let s := homeAnswer (leaveStage s g w.id) w (data.map (·.toNat) ++ [1]) [] s.devtime
        let s := homeAnswer s o [1] [] s.devtime
        let s := s.onCore o.core (fun k => onPermit k o.ctx o.ptr.toNat (fun e => { e with count := e.count + 1 }))
        event (perf (s.onCore w.core (fun k => { k with paircnt := k.paircnt + 1 })) w.core 0x15 1)
      else event s
    | _ => event s
  | _, _, _ => event s

/-- GLOVER_WINDOW_EXPIRY: pop `a` leaves its stage for the home (R200). -/
def execGloverWindowExpiry (s : State) : Host.Outcome State Fault Refusal :=
  match stageOf s s.subj.a, findOp s s.subj.a with
  | some g, some o =>
    if windowOver s o then event (onOp (leaveStage s g o.id) o.id (fun o => { o with phase := 0 })) else event s
  | _, _ => event s

/-! ## Stream registers (R148, R149, R362-R364, R502) -/

/-- The channels that a strand's stream registers bind with KIND 3. -/
def boundChannels (t : Strand) : List Nat := (t.strm.toList.filter (fun q => q.kind == 3)).map (·.source.toNat)

/-- Whether any strand of a core, in a slot or saved, has a channel bound to a stream register. -/
def channelBound (k : Core) (ch : Nat) : Bool :=
  k.slots.toList.any (fun t => t.st != .free && (boundChannels t).contains ch) ||
    k.rx.any (fun m => m.image.isSome && m.bound.contains ch)

/-- BIND (R362, R363): its checks in their order, then the register's state. -/
def execBind (r : BitVec 3) (a b : BitVec 5) (y : Bool) (s : State) : Host.Outcome State Fault Refusal :=
  finish 4 (guard [rdS s.me a y, rdS s.me b false] (fun s =>
    let n := r.toNat
    let src := s.me.rs a y
    let v := s.me.rs b false
    let kind := bits v 1 0
    let e := s.myCore.entry (bits src 5 0)
    if (s.me.q n).kind ≠ 0 then .trap s .bound 0 (word n)
    else if kind = 0 ∨ bits v 3 2 = 3 ∨ bits v 63 4 ≠ 0 ∨ (kind ≠ 1 ∧ bits v 3 2 ≠ 0) then .trap s .bound 0 v
    else if kind = 1 ∧ ptrCheck .queue src ≠ none then .trap s ((ptrCheck .queue src).getD .space) 0 src
    else if kind = 2 ∧ src ≠ 0 then .trap s .bound 0 src
    else if kind = 3 ∧ (bits src 5 0 = 0 ∨ bits src 63 6 ≠ 0) then .trap s .bound 0 src
    else if kind = 3 ∧ entBits e 0 0 = 1 ∧ entBits e 76 64 ≠ s.me.ctx then .trap s .priv 0 (instrWord (.bind r a b y))
    else if kind = 3 ∧ channelBound s.myCore (bits src 5 0) then .trap s .bound 0 src
    else .ok (s.onMe (fun t => t.setQ n { kind := kind, esize := if kind = 1 then bits v 3 2 else 0, source := src }))) s)

/-- UNBIND (R502): the register is freed, with no other check. -/
def execUnbind (r : BitVec 3) (s : State) : Host.Outcome State Fault Refusal :=
  let n := r.toNat
  finish 4 (.ok ((freeStream s.cur.1 s.me.task s (s.me.q n)).onMe (fun t => t.setQ n {})))

/-- Whether a stream register's read is blocked for more bytes than are staged, with nothing on its way (R149). -/
def streamWants (t : Strand) (n : Nat) : Bool :=
  let q := t.q n
  t.st == .blocked && q.pop.isNone &&
    (match t.wait with | .stream m need => m == n && decide (q.stage.length < need) | _ => false)

/-- The operation that pops a stream register's element (R364): a QPOP with window 0 of the strand, a remote request (R156, R274). -/
def streamOp (s : State) (n : Nat) (o : Op) : State :=
  { (perf s s.cur.1 0x13 (opRemote o)).fresh with ops := s.ops ++ [o] }.onMe (fun t => t.setQ n { t.q n with pop := some o.id })

/-- The pop of a stream register's element (R364), whose descriptor line the core translates as for a QPOP; it goes once the walk that it
needs is over, no acquire load holds it and the core has a remote request free (R154, R156, R164). A refusal is raised at the read. -/
def streamPop (s : State) (c i n : Nat) : State :=
  let s := { s with cur := (c, i) }
  let q := s.me.q n
  let o := { myOp s (.qpop (bytesOfCode q.esize) false 0 0) with ptr := q.source }
  match translate s 4 2 (bits q.source 47 0) with
  | .walk a sp va => if s.me.walk.isSome then s else s.onMe (fun t => { t with walk := some (a, sp, va), walkAt := s.tick })
  | .trap f sub => streamOp s n { o with fault := some (f, sub, q.source), phase := 4 }
  | .key k =>
    if acquiring s || decide (64 ≤ remoteCount s c) then s
    else streamOp s n { o with pieces := [{ key := k, n := 64, ptr := q.source }] }

/-- The oldest message of a channel that has not been routed and starts no task of its own (R364). -/
def nextRouted (k : Core) (ch : Nat) : Option Msg :=
  k.rx.find? (fun m => m.chan == ch && !m.running && m.image.isNone && m.mig.isNone)

/-- A message routed to a stream register: its 64 bytes are staged, and it stays in the receive store until they are consumed
(R149). -/
def streamMessage (s : State) (c i n : Nat) : State :=
  let q := (s.slot c i).q n
  match nextRouted (s.core c) q.source.toNat with
  | none => s
  | some m =>
    let s := s.onCore c (fun k => onMsg k m.chan m.seq (fun m => { m with running := true }))
    s.setSlot c i ((s.slot c i).setQ n { q with
      stage := q.stage ++ m.pay.toList.flatMap (fun w => leBytes 8 w.toNat), wptr := q.wptr + 64, msgs := q.msgs ++ [m.seq] })

/-- STREAM_ENGINE_POP: the stream engine brings the next element into stream register `c` of slot `b` of core `a`, for a read
that is blocked: a pop of its queue object, or a message of its channel (R149, R364). -/
def execStreamEnginePop (s : State) : Host.Outcome State Fault Refusal :=
  let t := s.slot s.subj.a s.subj.b
  let q := t.q s.subj.c
  if streamWants t s.subj.c then
    if q.kind = 1 ∧ q.retry = 0 then event (streamPop s s.subj.a s.subj.b s.subj.c)
    else if q.kind = 3 then event (streamMessage s s.subj.a s.subj.b s.subj.c)
    else event s
  else event s

/-- STREAM_POP_RETRY: 64 mesh cycles after an EMPTY answer the engine makes the pop again (R364). -/
def execStreamPopRetry (s : State) : Host.Outcome State Fault Refusal :=
  let t := s.slot s.subj.a s.subj.b
  let q := t.q s.subj.c
  if streamWants t s.subj.c && q.kind == 1 && decide (0 < q.retry) && decide (q.retry ≤ s.devtime) then
    event (streamPop s s.subj.a s.subj.b s.subj.c)
  else event s

end Sys2Proof.Machine
end

