-- ==== Sys2Proof/Machine/Tailor.lean ====
section
/-!
DEFINITION. The Tailor: timed launches, the admission test, run frames, deadlines and the end of a reservation (R258-R272, R531).
-/

namespace Sys2Proof.Machine

open Sys2Proof

/-! ## Reports and status words -/

/-- The report of a record that the launch unit or the Tailor cannot read (R531). -/
def recordReport (s : State) (host sup : Bool) (ctx core slot chan : Nat) (msgid : Word) (seq pc : Nat) (f : Flt) (p : Word) : State :=
  if host then ringReport s (reportWords 0 (causeWord true f.2.1 (causeCode f.1)) 0 p 0 s.devtime 0)
  else lateReport s sup ctx core slot chan msgid seq pc (f.1, f.2.1, p)

/-- The spaces in which a STATUS pointer may lie: 0x0, 0x4 and 0x6 by Table 13.2, for a dimension record by the model's choice (log 87). -/
def statusSpace (p : Word) : Bool := tagOf p == 0 || tagOf p == 4 || tagOf p == 6

/-- A status doubleword written by a release store; a fault on the pointer, its space and an alignment other than 8 among them, leaves
nothing written (R256, R263, log 87). It does not wait for a way of its home bank (log 7). -/
def storeStatus (s : State) (a : Actor) (p v : Word) : State :=
  if statusSpace p ∧ p.toNat % 8 = 0 then
    match hardSegs s a 2 p 8 with
    | (s, .ok [g]) => (engWrite s a g.key (leBytes 8 v.toNat) p).1
    | (s, _) => s
  else s

/-- The hardware acting for the context of a launch. -/
def launchActor (s : State) (core ctx asid : Nat) : Actor := ⟨core, ctx, asid, nbits (ctxRecord s ctx) 135 135 == 1⟩

/-- An untimed launch as it is committed: its core-set word, its record or 0, and its static grid (R255, R262, R412). -/
def launchOf (s : State) (a : Actor) (slot chan pc seq : Nat) (msgid : Word) (host sup : Bool) (record cset : Word) (grid : Nat)
    (args : List Word) : Launch :=
  { id := s.nextId, phase := if record = 0 then 2 else 0, core := a.core, slot := slot, chan := chan, ctx := a.ctx, asid := a.asid,
    pc := pc, host := host, msgid := msgid, seq := seq, c0 := bits cset 12 0, nc := bits cset 26 13,
    peer := if bits cset 28 28 = 1 then some (bits cset 40 29) else none, record := record, gx := nbits grid 15 0,
    gy := nbits grid 31 16, gz := nbits grid 47 32, next := 0, args := args, since := s.devtime, timeout := 0, fence := 0, target := 0,
    dims := 0, status := 0, maxTasks := 0, delivered := 0, sup := sup }

/-- A launch taken in by the launch unit of a die; a static grid that holds a zero posts nothing (R46, R262). -/
def addLaunch (s : State) (d : Nat) (l : Launch) : State :=
  if l.record = 0 ∧ (l.gx = 0 ∨ l.gy = 0 ∨ l.gz = 0) then s
  else s.fresh.onDie d (fun x => { x with launches := x.launches ++ [l] })

/-! ## The timed record (Table 13.2) and the admission test (R263-R265) -/

/-- The reservation that a record asks for, its frames and pool still to be set. -/
def resvOfRecord (j : TimedJob) (n rid : Nat) : Resv :=
  { rid := rid, st := 0, ctx := j.ctx, asid := j.asid, host := j.host, core := j.core, cls := nbits n 13 12, period := nbits n 20 14,
    tasks := nbits n 25 21, floor := nbits n 30 26, chan := nbits n 36 31, ncores := nbits n 50 37, first := nbits n 63 51,
    budget := nbits n 95 64, deadline := nbits n 127 96, permn := nbits n 159 152, permq := word (nbits n 383 320),
    wait := nbits n 191 160, release := nbits n 255 192, status := word (nbits n 319 256),
    args := (List.range 4).map (fun i => word (nbits n (575 + 64 * i) (512 + 64 * i))), frame := 0, nextFrame := 0, endFrame := 0,
    pool := 0 }

/-- The reserved bits of a record are clear (Table 13.2). -/
def recordReserved (n : Nat) : Bool :=
  nbits n 1023 768 == 0 && nbits n 511 384 == 0 && nbits n 151 144 == 0 && nbits n 10 0 == 0

/-- The smallest deadline of a class (Table 13.4). -/
def minDeadline (cls : Nat) : Nat := if cls = 0 then 10000 else 20000

/-- Whether an entry may take a timed class: VALID, of the context, not TIMED, nor about to be by a reservation that is PENDING, the model's
choice (R263, log 70). -/
def entryFree (s : State) (ctx ch c : Nat) : Bool :=
  let e := (s.core c).entry ch
  entBits e 0 0 == 1 && entBits e 76 64 == ctx && entBits e 91 91 == 0 &&
    !s.resvs.any (fun r => r.st == 0 && r.chan == ch && decide (r.first ≤ c) && decide (c < r.first + r.ncores))

/-- The cores of a reservation. -/
def resvCores (r : Resv) : List Nat := (List.range r.ncores).map (· + r.first)

/-- The last frame that the ring reaches from now (R264). -/
def lastFrame (s : State) : Nat := s.devtime / 10000 + 63

/-- The arrival or release from which a reservation's first frame and its deadlines count (Table 13.4): the commit of the launch for T1,
else RELEASE, 0 standing for the reading. -/
def arrivalOf (s : State) (j : TimedJob) (r : Resv) : Nat :=
  if r.cls = 1 then j.since else if r.cls = 2 ∨ r.release = 0 then s.devtime else r.release

/-- Whether a record with OP = 0 is valid: its fields within Table 13.2, PERMQ a handle or 0 among them (R263, R264). -/
def recordValid (s : State) (n : Nat) (r : Resv) : Bool :=
  recordReserved n && statusSpace r.status && (r.permq == 0 || (ptrCheck .queue r.permq).isNone) && decide (1 ≤ r.budget) && decide (r.budget ≤ 2 ^ 32 - 2) && decide (1 ≤ r.ncores) &&
    decide (r.ncores ≤ 8192) && decide (r.first + r.ncores ≤ 8192) && decide (9 ≤ r.floor) && decide (r.floor ≤ 31) &&
    decide (r.tasks ≤ 16) && (r.cls != 0 || [1, 2, 4, 8, 16, 32, 64].contains r.period) &&
    decide (minDeadline r.cls ≤ r.deadline) &&
    !((r.cls == 0 || r.cls == 3) && decide ((lastFrame s) * 10000 < r.release)) &&
    (resvCores r).all (entryFree s r.ctx r.chan)

/-- The time that a task occupies (R265). -/
def occupies (r : Resv) : Nat := (10 * (r.budget + 16) + r.floor - 1) / r.floor + r.wait

/-- The length of a reservation's chain in a frame. -/
def chainLen (r : Resv) : Nat := resvTasks r * occupies r

/-- Whether a reservation has a chain in a frame of the ring, which repeats every 64 frames: a T0 reservation stands in each of its slots,
before its first frame also (R265). -/
def inFrame (r : Resv) (k : Nat) : Bool :=
  match r.cls with
  | 0 => (k % 64 + 64 - r.frame % 64) % r.period == 0
  | 2 => true
  | _ => k == r.frame

/-- The chains on a core in a frame. -/
def chainsAt (rs : List Resv) (c k : Nat) : List Nat :=
  (rs.filter (fun r => decide (r.first ≤ c) && decide (c < r.first + r.ncores) && inFrame r k)).map chainLen

/-- Whether chains fit a frame with R_c slots (R265). -/
def frameFits (l : List Nat) (rc : Nat) : Bool :=
  let mx := l.foldl Nat.max 0
  if l.isEmpty then true else decide (1 ≤ rc) && decide (l.sum + (rc - 1) * mx ≤ rc * 9750) && decide (mx ≤ 9750)

/-- The smallest reserved slot count with which some frames of a core fit, at least a given one; slots that are retired are not
taken (R265, R289). -/
def slotsFor (s : State) (rs : List Resv) (c least : Nat) (frames : List Nat) : Option Nat :=
  (List.range 4).find? (fun rc => decide (least ≤ rc) && frames.all (fun k => frameFits (chainsAt rs c k) rc) &&
    decide (rc + (s.core c).retired.length ≤ 4))

/-- The frames of the ring. -/
def ringFrames (s : State) : List Nat := (List.range 64).map (· + (s.devtime / 10000 + 1))

/-- The frames in which a reservation must fit once its first frame is chosen. -/
def testFrames (s : State) (r : Resv) : List Nat := if r.cls = 0 ∨ r.cls = 2 then (ringFrames s).filter (inFrame r) else [r.frame]

/-- The other reservations: those that stand or are pending (R265, R266). -/
def otherResvs (s : State) (r : Resv) : List Resv := s.resvs.filter (fun x => x.rid != r.rid)

/-- Whether every core of a reservation fits with it (R265). -/
def admissible (s : State) (r : Resv) : Bool :=
  (resvCores r).all (fun c => (slotsFor s (r :: otherResvs s r) c (s.core c).rsv (testFrames s r)).isSome)

/-- Whether a frame may be the first of a reservation by its class and deadline (R264). -/
def frameAllowed (r : Resv) (k : Nat) : Bool :=
  match r.cls with
  | 0 => decide (r.from_ ≤ k * 10000)
  | 1 => decide (r.from_ < k * 10000) && decide ((k + 1) * 10000 ≤ r.from_ + r.deadline)
  | 2 => true
  | _ => decide (r.from_ ≤ k * 10000) && decide ((k + 1) * 10000 ≤ r.from_ + r.deadline)

/-- The first frame to come in which a reservation fits, up to a last one (R264, R265). -/
def chooseFrame (s : State) (r : Resv) (last : Nat) : Option Nat :=
  ((List.range 63).map (· + (s.devtime / 10000 + 1))).find? (fun k =>
    decide (k ≤ last) && frameAllowed r k && admissible s { r with frame := k })

/-! ## Floors, slots and permits (R267, R272) -/

/-- The floor of a cluster: the largest FLOOR of the reservations on its cores, 9 without one. -/
def floorOf (rs : List Resv) (g : Nat) : Nat :=
  ((rs.filter (fun r => decide (r.first < 16 * g + 16) && decide (16 * g < r.first + r.ncores))).map (·.floor)).foldl Nat.max 9

/-- The clusters of a reservation. -/
def resvClusters (r : Resv) : List Nat := ((resvCores r).map clusterOf).eraseDups

/-- Floors set by the reservations that stand; the clocks follow (R311). -/
def setFloors (s : State) (r : Resv) : State :=
  (resvClusters r).foldl retarget ((resvClusters r).foldl (fun s g =>
    s.onCluster g (fun c => { c with floor := floorOf s.resvs g })) s)

/-- Reserved slot counts of a reservation's cores: the smallest that fit; they do not fall while a reservation stands on the
core (R265, R272). -/
def setSlots (s : State) (r : Resv) : State :=
  (resvCores r).foldl (fun s c =>
    let on := s.resvs.any (fun x => decide (x.first ≤ c) && decide (c < x.first + x.ncores))
    let frames := (ringFrames s).filter (fun k => !(chainsAt s.resvs c k).isEmpty)
    let n := if on then (slotsFor s s.resvs c (s.core c).rsv frames).getD (s.core c).rsv else 0
    s.onCore c (fun k => { k with rsv := n, capFrame := if k.rsv = 0 then s.devtime / 10000 else k.capFrame })) s

/-- The descriptor line of a reservation's PERMQ, by the second-level cache or the tables (R154). -/
def permLine (s : State) (r : Resv) : Except Flt Nat :=
  match xlatNow s r.asid 4 (bits r.permq 47 0) with
  | .error sub => .error ((walkTrap sub).1, (walkTrap sub).2, r.permq)
  | .ok x => .ok (xlatAddr x (bits r.permq 47 0))

/-- Permits taken at the home for a reservation: as many of those wanted as fit, without a lease (R267, R268). -/
def takePermits (s : State) (r : Resv) (line want : Nat) : State × Nat :=
  let s := atBank (touchPtr s r.ctx r.permq) r.ctx line
  let d := descAt s line
  let g := Nat.min want (d.cap - d.count - d.granted)
  let mine := fun (x : PermRec) => x.rid == some r.rid
  let recs := if s.permRecs.any mine then s.permRecs.map (fun x => if mine x then { x with count := x.count + g } else x)
    else s.permRecs ++ [{ line := line, core := 0, ctx := r.ctx, count := g, expiry := none, rid := some r.rid }]
  (putDesc { s with permRecs := recs } line d.head d.count (d.granted + g), g)

/-- Whether a reservation uses permits. -/
def usesPermits (r : Resv) : Bool := r.permn != 0 && r.permq != 0

/-- An entry written for an admitted reservation (R267). -/
def timedEntry (r : Resv) (e : BitVec 128) : BitVec 128 :=
  let keep := e.toNat % 2 ^ 61 + nbits e.toNat 90 64 * 2 ^ 64
  BitVec.ofNat 128 (keep + 7 * 2 ^ 61 + 2 ^ 91 + r.cls * 2 ^ 92 + r.budget * 2 ^ 96)

/-- An entry as the end of a reservation leaves it: what the Tailor wrote, TIMED, TCLASS, PRIO and BUDGET, is clear (R30, R272). -/
def untimedEntry (e : BitVec 128) : BitVec 128 := BitVec.ofNat 128 (e.toNat % 2 ^ 61 + nbits e.toNat 90 64 * 2 ^ 64)

/-- Whether an untimed strand in a slot can be capped: it runs, or is about to (R260). -/
def cappable (t : Strand) : Bool :=
  (t.st == .starting || t.st == .ready || t.st == .stalled || t.st == .blocked) && !t.timed && t.capped.isNone

/-- A strand whose budget is capped at once (R42, R260). -/
def Strand.cap (t : Strand) : Strand := { t with capped := some t.budget, budget := 0 }

/-- Untimed strands in slots that have just become reserved are capped at once, each a cap expiry (R260, R267, R274). -/
def drainSlots (s : State) (c : Nat) : State :=
  let k := s.core c
  let hit := fun (i : Nat) => k.reservedSlot i && cappable (k.slot i)
  perf (s.onCore c (fun k => { k with slots := Vector.ofFn (fun i : Fin 4 =>
    if hit i.val then k.slots[i].cap else k.slots[i]) })) c 0x09 ((List.range 4).filter hit).length

/-- Whether a message is one of a reservation, of those that its channel's core still holds. -/
def ofResv (r : Resv) (m : Msg) : Bool := m.chan == r.chan && (m.timing.map (·.rid)) == some r.rid

/-- A reservation freed at the end of a frame (R272): held messages of later frames are discarded, others of it are timed no more (R257),
its entries lose TIMED and PRIO, its permits go back, reserved cache entries end, slots and floors are found again. -/
def freeResv (s : State) (r : Resv) (frame : Nat) : State :=
  let s := { s with resvs := s.resvs.filter (fun x => x.rid != r.rid) }
  let s := (resvCores r).foldl (fun s c =>
    let s := onEntry s c r.chan untimedEntry
    s.onCore c (fun k => { k with
      rx := (k.rx.filter (fun m => !(ofResv r m && !m.running && decide ((frame + 1) * 10000 ≤ m.heldTill)))).map (fun m =>
        if ofResv r m then { m with timing := none } else m)
      permits := k.permits.map (fun e => if e.reserved = some r.rid then { e with reserved := none, count := 0, expiry := 0 } else e)
      })) s
  let s := (s.permRecs.filter (fun x => x.rid == some r.rid)).foldl (fun s x =>
    let d := descAt s x.line
    putDesc s x.line d.head d.count (d.granted - x.count)) s
  setFloors (setSlots { s with permRecs := s.permRecs.filter (fun x => x.rid != some r.rid) } r) r

/-- The status word of Table 13.3. The frame of codes other than 1, and the RID of codes 2, 3 and 4 of an admission, of which the table says
nothing, are written 0: the model's choice (log 98). -/
def timedStatus (frame rid code : Nat) : Word := word (frame % 2 ^ 32 * 2 ^ 32 + rid % 2 ^ 16 * 2 ^ 16 + code)

/-- A reservation ended by the loss of a die or of its context, pending or active: STATUS code 6 on the record where it can still be
reached (R272). -/
def killResv (s : State) (r : Resv) : State :=
  let s := freeResv s r (s.devtime / 10000)
  storeStatus { s with timedJobs := s.timedJobs.filter (fun j => j.pending != some r.rid) } (launchActor s r.core r.ctx r.asid) r.status
    (timedStatus 0 r.rid 6)

/-- The dies of a core set. -/
def resvDies (r : Resv) : List Nat := ((resvCores r).map dieOf).eraseDups

/-- The lowest free reservation number of a die (Table 13.3). Where all 4,096 are in use, which the rule does not provide for, index 0 is
given again: the model's choice (log 98). -/
def freeRid (s : State) (die : Nat) : Nat :=
  ((List.range 4096).find? (fun i => !s.resvs.any (fun r => r.rid == die * 4096 + i))).getD 0 + die * 4096

/-! ## The steps -/

/-- What the Tailor reads of a timed record: nothing, its first line, which holds STATUS, or the whole; with the fault that met it. -/
inductive TimedRead where
  | none (f : Flt)
  | half (n : Nat)
  | whole (n : Nat)
  deriving DecidableEq, Repr

/-- A line of a timed record, or the fault that meets it: SPACE or ALIGN for a pointer outside spaces 0x0 and 0x4 or off a line, as at
LAUNCH (R263, R413). -/
def readLine (s : State) (j : TimedJob) (p : Word) : State × Except Flt Nat :=
  let a := launchActor s j.core j.ctx j.asid
  if tagOf p ≠ 0 ∧ tagOf p ≠ 4 then (s, .error (.space, 0, p))
  else if p.toNat % 64 ≠ 0 then (s, .error (.align, 0, p))
  else
    match hardSegs s a 1 p 64 with
    | (s, .error f) => (s, .error f)
    | (s, .ok segs) =>
      match readSegs s a p segs with
      | (s, .error f) => (s, .error f)
      | (s, .ok l) => (s, .ok (leNat l))

/-- Whether the banks can serve the lines of a timed record (R146). -/
def timedFree (s : State) (j : TimedJob) : Bool := rangeFree s (launchActor s j.core j.ctx j.asid) 1 j.record 128

/-- The bits of a timed record, as far as its lines can be read. -/
def readTimed (s : State) (j : TimedJob) : State × TimedRead :=
  match readLine s j j.record with
  | (s, .error f) => (s, .none f)
  | (s, .ok n) =>
    match readLine s j (ptrAdd j.record 64) with
    | (s, .error _) => (s, .half n)
    | (s, .ok m) => (s, .whole (n + m * 2 ^ 512))

/-- STATUS of a record's first line. -/
def statusOf (n : Nat) : Word := word (nbits n 319 256)

/-- The lowest die of the core set that an admission's record names, which orders admissions (R266). -/
def lowestDie (s : State) (j : TimedJob) : Option Nat :=
  match (readTimed s j).2 with
  | .whole n => if nbits n 11 11 = 0 then some (dieOf (nbits n 63 51)) else none
  | _ => none

/-- The jobs before one in the order in which the Tailors receive them. -/
def jobsBefore (l : List TimedJob) (id : Nat) : List TimedJob := l.takeWhile (fun j => j.id != id)

/-- Whether an admission's turn has come: no earlier one of the same lowest die is still to be tested (R266). -/
def inTurn (s : State) (j : TimedJob) : Bool :=
  (jobsBefore s.timedJobs j.id).all (fun x => x.pending.isSome || (lowestDie s x).isNone || lowestDie s x != lowestDie s j)

/-- The module without a timed job. -/
def dropJob (s : State) (id : Nat) : State := { s with timedJobs := s.timedJobs.filter (fun x => x.id != id) }

/-- The reservation of a number, changed. -/
def onResv (s : State) (rid : Nat) (f : Resv → Resv) : State := { s with resvs := s.resvs.map (fun r => if r.rid = rid then f r else r) }

/-- Step 1 of a reservation that is not yet active: the floors of its clusters raised (R267). -/
def pendResv (s : State) (r : Resv) : State :=
  let s := { s with resvs := s.resvs ++ [{ r with step := 1 }] }
  let s := (resvDies r).foldl (fun s d => touchDie s r.ctx d) s
  setFloors s r

/-- The permits that a reservation takes as it is admitted (R267 step 4); none where it uses none. -/
def firstPermits (s : State) (r : Resv) (line : Nat) : State × Nat :=
  if usesPermits r then takePermits s r line (r.permn * resvTasks r * r.ncores) else (s, 0)

/-- The descriptor line of a reservation that uses permits, where the object can be used; the fault of code 4 otherwise (R263). -/
def permitLine (s : State) (r : Resv) : Option Nat :=
  if !usesPermits r then some 0
  else match permLine s r with
    | .error _ => none
    | .ok line => if onLostDie s line || poisoned s line 64 || descBad (descAt s line) none then none else some line

/-- The first part of an admission: the record tested and refused, or the reservation PENDING with step 1 begun (R263-R267). -/
def beginAdmission (s : State) (j : TimedJob) (n : Nat) : State :=
  let r := resvOfRecord j n 0
  let r := { r with rid := freeRid s (dieOf r.first), from_ := arrivalOf s j r }
  let answer := fun (s : State) (code : Nat) => storeStatus (dropJob s j.id) (launchActor s j.core j.ctx j.asid) r.status (timedStatus 0 0 code)
  if !recordValid s n r then answer s 3
  else if (resvDies r).any (fun d => nbits (s.die d).tailorcfg.toNat 31 31 == 0) then answer s 2
  else
    match chooseFrame s r (lastFrame s), permitLine s r with
    | none, _ => answer s 2
    | some _, none => answer s 4
    | some k, some _ =>
      let s' := pendResv s { r with frame := k, nextFrame := k, endFrame := lastFrame s }
      { s' with timedJobs := s'.timedJobs.map (fun x => if x.id = j.id then { x with pending := some r.rid } else x) }

/-- Whether step 1 of a reservation is complete: its clusters run at their floors (R267). -/
def floorsDone (s : State) (r : Resv) : Bool :=
  (resvClusters r).all (fun g => !changing (s.cluster g) && (decide ((s.cluster g).floor ≤ (s.cluster g).freq) || (s.cluster g).tripped))

/-- Whether step 2 of a reservation is complete: its cores' reserved slots hold no untimed strand (R267). -/
def drainsDone (s : State) (r : Resv) : Bool :=
  (resvCores r).all (fun c => (List.range 4).all (fun i =>
    !(s.core c).reservedSlot i || ((s.core c).slot i).st == .free || ((s.core c).slot i).timed))

/-- The slots of a reservation's cores reserved, and those that have just become so drained (R265, R267). -/
def reserveSlots (s : State) (r : Resv) : State := (resvCores r).foldl drainSlots (setSlots s r)

/-- Steps 3 and 4 of a reservation: its entries written, its permits taken (R267). The object of its permits, which could be used as the
record was tested, may be so no more: then it has none, the model's choice (log 70). -/
def writeEntries (s : State) (r : Resv) : State :=
  let s := (resvCores r).foldl (fun s c => onEntry s c r.chan (timedEntry r)) s
  match permitLine s r with
  | none => s
  | some line =>
    let (s, g) := firstPermits s r line
    onResv s r.rid (fun x => { x with pool := g })

/-- The first run frame of a reservation whose steps are complete: the one chosen, where it is still to start; else the first that fits
now (R267 step 5). -/
def firstFrame (s : State) (r : Resv) : Option Nat :=
  if s.devtime < r.frame * 10000 then some r.frame else chooseFrame s r r.endFrame

/-- The last part of an admission: the reservation ACTIVE with its first run frame, R_c raised where that needs it, or refused and
undone; STATUS is written (R267 steps 5 and 6, Table 13.5). -/
def endAdmission (s : State) (j : TimedJob) (r : Resv) : State :=
  let a := launchActor s j.core j.ctx j.asid
  match firstFrame s r with
  | none => storeStatus (freeResv (dropJob s j.id) r (s.devtime / 10000)) a r.status (timedStatus 0 0 2)
  | some k =>
    let r' := { r with st := 1, frame := k, nextFrame := k, endFrame := 0, refill := s.devtime / 10000 + 1 }
    storeStatus (reserveSlots (onResv (dropJob s j.id) r.rid (fun _ => r')) r') a r.status (timedStatus k r.rid 1)

/-- The next step of a PENDING reservation, once the one before is complete (R267). -/
def nextStep (s : State) (j : TimedJob) (r : Resv) : State :=
  if r.step = 1 then (if floorsDone s r then reserveSlots (onResv s r.rid (fun x => { x with step := 2 })) r else s)
  else if r.step = 2 then (if drainsDone s r then writeEntries (onResv s r.rid (fun x => { x with step := 4 })) r else s)
  else endAdmission s j r

/-- TAILOR_ADMISSION: the Tailor takes timed record `a` with OP = 0 a part further: in its turn it reads and tests it, takes the steps of
R267 one after the other, and admits it, and writes STATUS (R263-R267). -/
def execTailorAdmission (s : State) : Host.Outcome State Fault Refusal :=
  match s.timedJobs.find? (fun j => j.id == s.subj.a) with
  | none => event s
  | some j =>
    match j.pending with
    | some rid =>
      (match s.resvs.find? (fun r => r.rid == rid) with
       | some r => event (nextStep s j r)
       | none => event (dropJob s j.id))
    | none =>
      if !timedFree s j then event s
      else
      match readTimed s j with
      | (s', .none f) =>
        event (recordReport (dropJob s' j.id) j.host j.sup j.ctx j.core j.slot j.chan j.msgid j.seq j.pc f j.record)
      | (s', .half n) =>
        event (storeStatus (dropJob s' j.id) (launchActor s' j.core j.ctx j.asid) (statusOf n) (timedStatus 0 0 4))
      | (s', .whole n) => if nbits n 11 11 = 1 ∨ !inTurn s j then event s else event (beginAdmission s' j n)

/-- TAILOR_CANCEL: timed record `a` with OP = 1 ends an ACTIVE reservation of its context at the end of the current frame: STATUS
code 5, or 3 where it names none or is malformed (R263, R272). -/
def execTailorCancel (s : State) : Host.Outcome State Fault Refusal :=
  match s.timedJobs.find? (fun j => j.id == s.subj.a && j.pending.isNone) with
  | none => event s
  | some j =>
    if !timedFree s j then event s
    else
    match readTimed s j with
    | (s', .whole n) =>
      if nbits n 11 11 = 0 then event s
      else
        let rid := nbits n 143 128
        let s' := dropJob s' j.id
        let a := launchActor s' j.core j.ctx j.asid
        if recordReserved n && statusSpace (statusOf n) && s'.resvs.any (fun r => r.rid == rid && r.st == 1 && r.ctx == j.ctx) then
          event (storeStatus (onResv s' rid (fun r => { r with st := 2, endFrame := s'.devtime / 10000 })) a (statusOf n)
            (timedStatus 0 rid 5))
        else event (storeStatus s' a (statusOf n) (timedStatus 0 rid 3))
    | _ => event s

/-- A timed task's message (R268). -/
def timedBody (s : State) (r : Resv) (i : Nat) : Body :=
  let start := r.nextFrame * 10000
  let due := (if r.cls = 0 then start else r.from_) + r.deadline
  .message r.chan (payload ([word i, word r.rid, word start, word due] ++ r.args)) r.host s.fabid.toNat (if r.host then 0 else r.core)
    false (some { rid := r.rid, frameEnd := start + 10000, deadline := due, wait := r.wait, used := 0, lapsed := false }) start

/-- Permits credited to a core for the tasks of a frame: its entry for PERMQ is reserved (R268). -/
def creditCore (s : State) (r : Resv) (c n : Nat) : State :=
  match permitClaim s.devtime (s.core c) r.ctx r.permq.toNat with
  | none => s
  | some k =>
    match s.resvs.find? (fun x => x.rid == r.rid) with
    | none => s
    | some x =>
      let g := Nat.min x.pool n
      { s.setCore c (onPermit k r.ctx r.permq.toNat (fun e => { e with count := e.count + g, reserved := some r.rid })) with
        resvs := s.resvs.map (fun y => if y.rid = r.rid then { y with pool := y.pool - g } else y) }

/-- Permits that a reservation holds outside its pool. -/
def permitsOut (s : State) (r : Resv) : Nat :=
  ((resvCores r).map (fun c => (((s.core c).permits.filter (fun e => e.reserved == some r.rid)).map (·.count)).sum)).sum

/-- Permits that pushes consumed taken back at the home (R268). -/
def refillPool (s : State) (r : Resv) : State :=
  match permitLine s r with
  | none => s
  | some line =>
    let held := r.pool + permitsOut s r
    let (s, g) := takePermits s r line (r.permn * resvTasks r * r.ncores - held)
    { s with resvs := s.resvs.map (fun y => if y.rid = r.rid then { y with pool := y.pool + g } else y) }

/-- The tasks of a frame on a core: the release's, or the T2 arrivals held for it. -/
def frameTasks (s : State) (r : Resv) (c : Nat) : Nat :=
  if r.cls = 2 then ((s.core c).rx.filter (fun m => m.chan == r.chan && m.heldTill == r.nextFrame * 10000 && m.timing.isSome)).length
  else resvTasks r

/-- Whether a run frame of a reservation is to start now (R268). -/
def runDue (s : State) (r : Resv) : Bool :=
  !(r.st == 0 || decide (s.devtime < r.nextFrame * 10000) || (r.st == 2 && decide (r.endFrame < r.nextFrame)) ||
    ((r.cls == 1 || r.cls == 3) && r.nextFrame != r.frame))

/-- Whether a frame has started at which permits that a reservation's pushes consumed are to be taken back (R268). -/
def refillDue (s : State) (r : Resv) : Bool := r.st != 0 && usesPermits r && decide (r.refill * 10000 ≤ s.devtime)

/-- The pool of a reservation filled again where a frame has started since it last was (R268). -/
def refillFrame (s : State) (r : Resv) : State :=
  if refillDue s r then onResv (refillPool s r) r.rid (fun y => { y with refill := s.devtime / 10000 + 1 }) else s

/-- RUN_FRAME_START: a frame starts, in which reservation `a` takes back the permits that its pushes consumed; where it is a run frame, its
permits are credited and, for T0, T1 and T3, its tasks posted on the timed network; T2 messages held for it are held no more (R268,
R269). -/
def execRunFrameStart (s : State) : Host.Outcome State Fault Refusal :=
  match s.resvs.find? (fun r => r.rid == s.subj.a && (runDue s r || refillDue s r)) with
  | none => event s
  | some r =>
    let s := refillFrame s r
    if !runDue s r then event s
    else
      let s := if usesPermits r then (resvCores r).foldl (fun s c => creditCore s r c (r.permn * frameTasks s r c)) s else s
      let s := if r.cls = 2 then s
        else (resvCores r).foldl (fun s c => (List.range (resvTasks r)).foldl (fun s i =>
          sendPacket s c c 2 none (timedBody s r i)) s) s
      event { s with resvs := s.resvs.map (fun y =>
        if y.rid = r.rid then { y with nextFrame := y.nextFrame + (if y.cls = 0 then y.period else 1) } else y) }

/-- The frame at whose end a reservation is freed: the run frame of a T1 or T3 one, the frame of an ENDING one (R272). -/
def endsWith (r : Resv) : Option Nat :=
  if r.st = 0 then none else if r.st = 2 then some r.endFrame else if r.cls = 1 ∨ r.cls = 3 then some r.frame else none

/-- Whether a reservation is to be freed now: that frame is over (R272). -/
def endDue (s : State) (r : Resv) : Bool := (endsWith r).any (fun k => decide ((k + 1) * 10000 ≤ s.devtime))

/-- RESERVATION_END: the run frame of T1 or T3 reservation `a`, or the frame of an ENDING one, is over, and it is freed (R272). -/
def execReservationEnd (s : State) : Host.Outcome State Fault Refusal :=
  match s.resvs.find? (fun r => r.rid == s.subj.a && endDue s r) with
  | none => event s
  | some r => event (freeResv s r ((endsWith r).getD 0))

/-- Whether a budget has run out: a capped task's, once it can be pre-empted, or another's that is spending it and has started (R42,
Table 2.1). -/
def budgetDue (t : Strand) : Bool :=
  if t.capped.isSome then t.st == .ready || t.st == .stalled || t.st == .blocked
  else (t.st == .ready || t.st == .stalled) && !t.unb && t.budget == 0

/-- A timed strand's blocked time up to the end of its run frame: what has passed since then does not count (R270). -/
def usedInFrame (now : Nat) (t : Strand) (x : Timing) : Nat := if t.st = .blocked then x.used - (now - x.frameEnd) else x.used

/-- Whether DEADLINE is to be raised for a strand: its timed task began in its run frame, has kept its provisos, and has not ended by the
frame's end; one whose budget has run out lapses by that (R270, R271). -/
def deadlineDue (now : Nat) (t : Strand) : Bool :=
  match t.timing with
  | none => false
  | some x =>
    t.st != .free && t.st != .trapping && t.st != .saving && !budgetDue t && !x.lapsed && decide (x.frameEnd ≤ now) && decide (t.started < x.frameEnd) &&
      decide (usedInFrame now t x ≤ x.wait)

/-- DEADLINE: the timed task in slot `b` of core `a` has kept its provisos and not ended by the end of its run frame: a report to its
context, with the deadline, and the task goes on (R270). -/
def execDeadline (s : State) : Host.Outcome State Fault Refusal :=
  let t := s.slot s.subj.a s.subj.b
  match t.timing with
  | none => event s
  | some x =>
    if !deadlineDue s.devtime t then event s
    else
      let s := perf (s.setSlot s.subj.a s.subj.b { t with timing := none }) s.subj.a 0x0E 1
      event (postReport s t.ctx deviceSrc t.supervisor
        (reportWords 0 (causeWord true 0 (causeCode .deadline)) 0 (word x.deadline) (word (t.ctx * 2 ^ 21 + 2 ^ 34)) s.devtime 0))

/-- Whether a timed strand has been BLOCKED beyond its allowance and has not lapsed (R271). -/
def lapseDue (t : Strand) : Bool := match t.timing with | some x => !x.lapsed && decide (x.wait < x.used) | none => false

/-- TIMED_WAIT_LAPSE: the timed task in slot `b` of core `a` has been BLOCKED beyond WAIT: it lapses and runs on (R271). -/
def execTimedWaitLapse (s : State) : Host.Outcome State Fault Refusal :=
  let t := s.slot s.subj.a s.subj.b
  match t.timing with
  | none => event s
  | some x =>
    if !lapseDue t then event s
    else event (perf (s.setSlot s.subj.a s.subj.b { t with timing := some { x with lapsed := true } }) s.subj.a 0x0D 1)

end Sys2Proof.Machine
end

