-- ==== Sys2Proof/Machine/Matrix.lean ====
section
/-!
DEFINITION. The matrix engine: claims, the tile queue and its order, the multiplies, accumulators and their stores
(R202-R226, R369, R463, R485, R489, R491, R493-R496).
-/

namespace Sys2Proof.Machine

open Sys2Proof

/-! ## Claims, marks and contents (R202-R208) -/

/-- The owner of a slot (0-31) or of accumulator n (32 + n) (R203). -/
def tileOwner (c : Cluster) (n : Nat) : Option Nat := if n < 32 then mapGet? c.slotOwner n else mapGet? c.accOwner (n - 32)

/-- Whether the running context has claimed a slot or accumulator of its cluster. -/
def claimed (s : State) (n : Nat) : Bool := tileOwner (s.cluster s.myCluster) n == some s.me.ctx

/-- The SLOT check of some slots and accumulators, in order (R203). -/
def needClaims (ns : List Nat) (k : State → Res) (s : State) : Res :=
  match ns.find? (fun n => !claimed s n) with
  | some n => .trap s .slot 0 (word n)
  | none => k s

/-- The fault marks of some slots, checked in order (R210). -/
def needClean (ns : List Nat) (k : State → Res) (s : State) : Res :=
  match ns.findSome? (fun n => mapGet? (s.cluster s.myCluster).marks n) with
  | some (c, p) => .trap s c 0 p
  | none => k s

/-- The resources of a request word: slots, then accumulators as 32 + n. -/
def requested (v : Word) : List Nat := (List.range 48).filter (fun i => v.getLsbD i)

/-- A byte of a line of a slot, or of a pair where the byte lies beyond the first slot's line (R208). -/
def lineKey (slot line b : Nat) : Nat := (slot + b / 128) * 8192 + line * 128 + b % 128

/-- The first bytes of a line. -/
def slotLine (c : Cluster) (slot line n : Nat) : List Byte :=
  (List.range n).map (fun b => mapGet 0 c.slotMem (lineKey slot line b))

/-- The first bytes of a line replaced. -/
def putLine (c : Cluster) (slot line : Nat) (l : List Byte) : Cluster :=
  { c with slotMem := (List.range l.length).foldl (fun m b => setByte m (lineKey slot line b) ((l[b]?).getD 0)) c.slotMem }

/-- The key of a word of an accumulator. -/
def accKey (a i j : Nat) : Nat := a * 4096 + i * 64 + j

/-- A word of an accumulator. -/
def accWord (c : Cluster) (a i j : Nat) : BitVec 32 := mapGet 0 c.accMem (accKey a i j)

/-- A word of an accumulator replaced; an unlisted word reads 0. -/
def setAcc (m : AMap (BitVec 32)) (k : Nat) (v : BitVec 32) : AMap (BitVec 32) := if v = 0 then mapDel m k else mapSet m k v

/-- A cluster with a slot zeroed, its scale 1.0 and its mark cleared (R206). -/
def clearSlot (c : Cluster) (n : Nat) : Cluster :=
  { c with
    slotMem := c.slotMem.filter (fun p => p.1 / 8192 != n)
    scales := mapSet c.scales n 0x3F800000
    marks := mapDel c.marks n }

/-- A cluster with an accumulator zeroed. -/
def clearAcc (c : Cluster) (a : Nat) : Cluster := { c with accMem := c.accMem.filter (fun p => p.1 / 4096 != a) }

/-- A resource newly claimed for a context. -/
def claimOne (x : Nat) (c : Cluster) (n : Nat) : Cluster :=
  if n < 32 then clearSlot { c with slotOwner := mapSet c.slotOwner n x } n
  else clearAcc { c with accOwner := mapSet c.accOwner (n - 32) x } (n - 32)

/-- CLAIM (R206, R369): all or nothing; what the context already owns is unchanged. -/
def execClaim (d : BitVec 5) (s : State) : Host.Outcome State Fault Refusal :=
  finish 4 (elected none (guard [rdS s.me d false] (fun s =>
    let v := s.me.rs d false
    let c := s.cluster s.myCluster
    if bits v 63 48 ≠ 0 then .trap s .bound 0 v
    else
      match (requested v).find? (fun n => (tileOwner c n).isSome && !claimed s n) with
      | some n => .trap s .slot 0 (word n)
      | none =>
        .ok (s.onCluster s.myCluster (fun c =>
          ((requested v).filter (fun n => (tileOwner c n).isNone)).foldl (claimOne s.me.ctx) c)))) s)

/-- Whether an entry of the tile queue names a slot or accumulator, numbered under R203. -/
def namesResource (e : TileOp) (n : Nat) : Bool :=
  if n < 32 then e.rdS.contains n || e.wrS.contains n else e.rdA.contains (n - 32) || e.wrA.contains (n - 32)

/-- A resource freed. -/
def freeOne (c : Cluster) (n : Nat) : Cluster :=
  if n < 32 then { c with slotOwner := mapDel c.slotOwner n } else { c with accOwner := mapDel c.accOwner (n - 32) }

/-- RELEASE (R207, R463): it waits until no queued entry names one of the resources. -/
def execRelease (d : BitVec 5) (s : State) : Host.Outcome State Fault Refusal :=
  finish 4 (elected none (guard [rdS s.me d false] (fun s =>
    let v := s.me.rs d false
    if bits v 63 48 ≠ 0 then .trap s .bound 0 v
    else
      needClaims (requested v) (fun s =>
        if (s.cluster s.myCluster).tileq.any (fun e => (requested v).any (namesResource e)) then .stall s .retry
        else .ok (s.onCluster s.myCluster (fun c => (requested v).foldl freeOne c))) s)) s)

/-! ## The tile queue (R211, R212) -/

/-- An entry that the running strand issues, with no resources yet. -/
def tileEntry (s : State) (k : TileKind) : TileOp :=
  { n := s.nextId, kind := k, td := 0, ta := 0, tb := 0, args := [], e := [], fmt := s.me.fmt, scaleA := 0, scaleB := 0,
    src := [], dst := [], kept := [], core := s.cur.1, slot := s.cur.2, task := s.me.task, ctx := s.me.ctx, asid := s.me.asid,
    priv := s.me.priv, pc := s.me.pc.toNat, rdS := [], wrS := [], rdA := [], wrA := [], rdM := [], wrM := [], shared := [],
    device := false, pos := 0, tc := 0, map := {}, sup := s.me.supervisor, fork := s.me.task, hor := s.me.hor }

/-- The strands that wait at a cluster's full tile queue, without one. -/
def tileWaiters (s : State) (g : Nat) (me : Nat × Nat × Nat) : List (Nat × Nat × Nat) :=
  (s.cluster g).tileWant.filter (fun w => w != me && (s.slot w.1 w.2.1).task == w.2.2 && (s.slot w.1 w.2.1).st == .stalled)

/-- Places from the core that the tile queue serves first to a core of the cluster. -/
def tileTurn (s : State) (g core : Nat) : Nat := (core % 16 + 16 - (s.cluster g).tilePtr) % 16

/-- Whether a strand comes before another at the tile queue: by the turn of their cores, and in one core by who reached it first (R211). -/
def tileFirst (s : State) (g : Nat) (me : Nat × Nat × Nat) : Bool :=
  let first := ((s.cluster g).tileWant.takeWhile (· != me))
  (tileWaiters s g me).all (fun w =>
    decide (tileTurn s g me.1 < tileTurn s g w.1) || (w.1 == me.1 && !first.contains w))

/-- An entry enters the queue and counts in tl. At a full queue the form is a short stall, in which the cores are served round-robin; a
reload of a map takes the next place (R211, R243). -/
def enterTile (e : TileOp) (k : State → State) (s : State) : Res :=
  let g := s.myCluster
  let me := (s.cur.1, s.cur.2, s.me.task)
  let c := s.cluster g
  if 32 ≤ c.tileq.length || !c.reloads.isEmpty || !tileFirst s g me then
    .stall (s.onCluster g (fun c => { c with tileWant := if c.tileWant.contains me then c.tileWant else c.tileWant ++ [me] })) .retry
  else
    .ok (k ((s.fresh.onCluster g (fun c => { c with
      tileq := c.tileq ++ [e], tilePtr := (s.cur.1 + 1) % 16, tileWant := tileWaiters s g me })).onMe (fun t => t.rise .tl)))

/-- A form that enters the tile queue: elected, and a short stall until the reloads of its context's maps have entered (R64, R243). -/
def tileForm (us : State → List Use) (body : State → Res) (s : State) : Host.Outcome State Fault Refusal :=
  finish 4 (elected (some .tl) (fun s => guard (us s) (fun s =>
    if (s.cluster s.myCluster).reloads.any (fun p => p.1 == s.me.ctx) then .stall s .retry else body s) s) s)

/-- Whether two lists of resources meet. -/
def meets (a b : List Nat) : Bool := a.any (fun x => b.contains x)

/-- Whether an entry has to follow an earlier one (R211, R232). -/
def follows (e f : TileOp) : Bool :=
  meets f.wrS e.rdS || meets f.wrS e.wrS || meets f.rdS e.wrS ||
    meets f.wrA e.rdA || meets f.wrA e.wrA || meets f.rdA e.wrA ||
    meets f.wrM e.rdM || meets f.wrM e.wrM || meets f.rdM e.wrM

/-- The entry of a cluster's queue with a number, once every entry that it follows has been performed and the release at its fork has
been made (R211, R169). -/
def tileReady (s : State) (g n : Nat) : Option TileOp :=
  let q := (s.cluster g).tileq
  match q.find? (fun e => e.n == n) with
  | none => none
  | some e =>
    if (q.takeWhile (fun f => f.n != n)).any (follows e) || !forked s e.fork e.n e.hor e.device then none else some e

/-- An entry changed. -/
def onTile (s : State) (g n : Nat) (f : TileOp → TileOp) : State :=
  s.onCluster g (fun c => { c with tileq := c.tileq.map (fun e => if e.n = n then f e else e) })

/-- The end of an entry: it leaves the queue and the tl counters of its issuer and of the strands that count it fall; a
command of DEVICE scope is remembered for the acquire of a WAIT (R225, R65, R170). -/
def tileDone (s : State) (g : Nat) (e : TileOp) (f : Strand → Strand) : State :=
  let down := fun (t : Strand) => if e.device then { t.fall .tl with repTl := Nat.max t.repTl s.devtime } else t.fall .tl
  let s := s.onCluster g (fun c => { c with tileq := c.tileq.filter (fun x => x.n != e.n) })
  let s := s.onTask e.task (fun t => f (down t))
  e.shared.foldl (fun s x => s.onTask x.2.2 down) s

/-- An entry stopped by a late fault: it reports once its release has been made (R170). -/
def failTile (s : State) (g : Nat) (e : TileOp) (f : Flt) : State := onTile s g e.n (fun e => { e with fault := some f })

/-- The end of an entry whose writes go to memory: it reports done once its release at its scope has been made (R170). -/
def tileReport (s : State) (g : Nat) (e : TileOp) (f : Strand → Strand) : State :=
  if e.device && decide (s.devtime < e.tc) then s else tileDone s g e f

/-! ## TLOAD (R209, R210, R489) -/

/-- A limit of the descriptor of TLOAD is broken. -/
def tloadBad (v : Word) : Bool :=
  decide (bits v 7 0 > 63) || bits v 15 8 == 0 || decide (bits v 15 8 > if bits v 38 38 = 1 then 16 else 8) || bits v 63 39 != 0

/-- The checks of an engine's pointer: SPACE beyond a tag, or as Table 7.3 and R136 give, BOUND, then ALIGN. -/
def engPtr (maxTag align : Nat) (p : Word) (k : State → Res) (s : State) : Res :=
  if maxTag < tagOf p then .trap s .space 0 p
  else
    match ptrCheck .engine p with
    | some c => .trap s c 0 p
    | none => if p.toNat % align ≠ 0 then .trap s .align 0 p else k s

/-- TLOAD (R209, R489). -/
def execTload (d a b : BitVec 5) (s : State) : Host.Outcome State Fault Refusal :=
  tileForm (fun s => [rdS s.me a false, rdS s.me b false]) (fun s =>
    let p := s.me.rs a false
    let v := s.me.rs b false
    let os := d.toNat
    let pair := bits v 38 38 == 1
    if tloadBad v then .trap s .bound 0 v
    else
      needClaims [os] (fun s =>
        if pair && os % 2 == 1 then .trap s .slot 0 (word os)
        else
          needClaims (if pair then [os + 1] else []) (fun s =>
            engPtr 6 16 p (translated (rowPages p (16 * bits v 31 16) (16 * bits v 15 8) (bits v 7 0 + 1)) (fun s =>
              match rowSegs s s.actor 1 p (16 * bits v 31 16) (16 * bits v 15 8) (List.range (bits v 7 0 + 1)) with
              | .error (c, sub, tval) => .trap s c sub tval
              | .ok segs =>
                afterAcquire (enterTile { tileEntry s .tload with
                  td := os, args := [p, v], src := segs, wrS := if pair then [os, os + 1] else [os]
                  device := !nearCluster s.myCluster segs } id) s)) s) s) s) s

/-- The next line of a TLOAD is delivered, with its credit; a fault leaves this line and every later one unchanged and sets
the mark of the slot, or of both slots of the pair (R209, R210). -/
def tloadLine (s : State) (g : Nat) (e : TileOp) : State :=
  let p := (e.args[0]?).getD 0
  let v := (e.args[1]?).getD 0
  let len := 16 * bits v 15 8
  match readSegs s e.actor (ptrAdd p (16 * bits v 31 16 * e.pos)) (rowOf e.src len e.pos) with
  | (s, .error (c, _, q)) =>
    tileDone (s.onCluster g (fun x => { x with marks := e.wrS.foldl (fun m n => mapSet m n (c, q)) x.marks })) g e id
  | (s, .ok l) =>
    let s := s.onCluster g (fun x => putLine
      { x with credits := if bits v 37 37 = 1 then x.credits ++ [(bits v 36 32, len, 0)] else x.credits } e.td e.pos l)
    if e.pos < bits v 7 0 then onTile s g e.n (fun e => { e with pos := e.pos + 1 })
    else
      let s := if e.pos = 63 then s.onCluster g (fun x => { x with marks := e.wrS.foldl mapDel x.marks }) else s
      tileDone s g e id

/-- The next line of a TLOAD, once its banks can serve it and its peer locations have a port (R140, R146, R303). -/
def tloadStep (s : State) (g : Nat) (e : TileOp) : State :=
  portWait s e.n e.core (rowOf e.src (16 * bits ((e.args[1]?).getD 0) 15 8) e.pos) (fun s => tloadLine s g e)

/-! ## The multiplies (R214, R215, R220-R223) -/

/-- The largest k of a class, for the NX variants of FMT (Table 10.3). -/
def kMax (cls : Nat) (fmt : BitVec 27) : Nat :=
  match cls with
  | 0 | 1 => 64
  | 2 => 128
  | _ =>
    let w := Nat.max (fmtNxa fmt) (fmtNxb fmt)
    if w ≥ 2 then 128 else if w = 1 then 256 else 512

/-- The pair rules of NX: an even slot, and both slots claimed (R214). -/
def needPair (os : Nat) (k : State → Res) (s : State) : Res :=
  if os % 2 = 1 then .trap s .slot 0 (word os) else needClaims [os + 1] k s

/-- The slots of an operand. -/
def operandSlots (nx : Bool) (os : Nat) : List Nat := if nx then [os, os + 1] else [os]

/-- The checks of a multiply's operands and shape, in the order of R215. -/
def mulChecks (ac osA osB : Nat) (k : State → Res) (s : State) : Res :=
  let nx := decide ((s.me.e 3).toNat % 4 = 3)
  let outside := fun (i hi : Nat) => decide ((s.me.e i).toNat < 1) || decide (hi < (s.me.e i).toNat)
  let bound := fun (i : Nat) (s : State) => Res.trap s .bound 0 ((s.me.e i).setWidth 64)
  needClaims [osA, osB, 32 + ac] (fun s =>
    let go := fun (s : State) =>
      if (s.me.e 3).toNat > 3 then bound 3 s
      else if outside 0 64 then bound 0 s
      else if outside 1 64 then bound 1 s
      else if outside 2 (kMax (s.me.e 3).toNat s.me.fmt) then bound 2 s
      else needClean (operandSlots nx osA ++ operandSlots nx osB) k s
    if nx then needPair osA (needPair osB go) s else go s) s

/-- The entry of a multiply over the k indices kept in each line, with the scales as they stand (R211). -/
def mulEntry (s : State) (kind : TileKind) (ac osA osB : Nat) (kept : List (List (Nat × Nat))) : TileOp :=
  let nx := decide ((s.me.e 3).toNat % 4 = 3)
  let c := s.cluster s.myCluster
  { tileEntry s kind with
    td := ac, ta := osA, tb := osB, e := (List.range 4).map (fun i => (s.me.e i).toNat), kept := kept
    scaleA := (mapGet 0x3F800000 c.scales osA).toNat, scaleB := (mapGet 0x3F800000 c.scales osB).toNat
    rdS := operandSlots nx osA ++ operandSlots nx osB, rdA := [ac], wrA := [ac] }

/-- TMMA (R214, R215, R491). -/
def execTmma (d a b : BitVec 5) (s : State) : Host.Outcome State Fault Refusal :=
  tileForm (fun _ => []) (mulChecks d.toNat a.toNat b.toNat (fun s =>
    let all := (List.range (s.me.e 2).toNat).map (fun i => (i, i))
    enterTile (mulEntry s .tmma d.toNat a.toNat b.toNat (List.replicate (s.me.e 0).toNat all)) id s)) s

/-- The sparsity descriptor of TSMMA (R220). -/
structure Sparsity where
  slot : Nat
  n1 : Nat
  m1 : Nat
  n2 : Nat
  m2 : Nat
  deriving DecidableEq, Repr

/-- The fields of a sparsity descriptor. -/
def sparsityOf (v : Word) : Sparsity := ⟨bits v 4 0, bits v 10 8 + 1, 2 ^ bits v 13 12, bits v 19 16 + 1, 4 * 2 ^ bits v 21 20⟩

/-- Nibbles of a level-1 record. -/
def rec1 (x : Sparsity) : Nat := if x.m1 > 1 then 1 + x.n1 else 0

/-- Nibbles of the level-2 records of a block position. -/
def rec2 (x : Sparsity) : Nat := if x.n2 < x.m2 then 16 / x.m2 * (1 + x.n2) else 0

/-- Bytes of a line's compressed values (R221). -/
def valueBytes (x : Sparsity) (cls nxa k : Nat) : Nat :=
  let positions := k / (16 * x.m1) * x.n1
  match cls with
  | 0 | 1 => positions * (16 / x.m2 * x.n2) * 2
  | 2 => positions * (16 / x.m2 * x.n2)
  | _ => positions * nxBytes nxa

/-- Whether a sparsity descriptor traps with BOUND for a class and k (R220). -/
def sparsityBad (v : Word) (cls nxa k : Nat) : Bool :=
  let x := sparsityOf v
  bits v 21 20 == 3 || bits v 7 5 != 0 || bits v 11 11 != 0 || bits v 15 14 != 0 || bits v 63 22 != 0 ||
    decide (x.n1 > x.m1) || decide (x.n2 > x.m2) || (decide (x.n2 < x.m2) && cls == 3) || k % (16 * x.m1) != 0 ||
    decide (k / (16 * x.m1) * (rec1 x + x.n1 * rec2 x) > 256) ||
    decide (valueBytes x cls nxa k > if cls = 3 then 256 else 128)

/-- Whether indices rise and lie below a limit. -/
def rising (m : Nat) : Option Nat → List Nat → Bool
  | _, [] => true
  | p, x :: t => decide (x < m) && (match p with | some y => decide (y < x) | none => true) && rising m (some x) t

/-- The indices of a record, or what Table 10.4 says of it below its line. -/
def nibRecord (nibs : List Nat) (q n m level : Nat) : Except Nat (List Nat) :=
  let count := (nibs[q]?).getD 0
  let idx := (nibs.drop (q + 1)).take count
  if n < count then .error (level * 2 ^ 14 + q)
  else if rising m none idx then .ok idx
  else .error (2 ^ 15 + level * 2 ^ 14 + q)

/-- The first error of some results, or all their lists joined. -/
def joinAll {α : Type} : List (Except Nat (List α)) → Except Nat (List α)
  | [] => .ok []
  | .error n :: _ => .error n
  | .ok l :: t => match joinAll t with | .error n => .error n | .ok m => .ok (l ++ m)

/-- The k indices that block position `p` of group `j` keeps, with the place of each value in the line (R221). -/
def keptBlock (x : Sparsity) (nibs : List Nat) (j p blk : Nat) : Except Nat (List (Nat × Nat)) :=
  let q := j * (rec1 x + x.n1 * rec2 x) + rec1 x + p * rec2 x
  let k0 := 16 * (j * x.m1 + blk)
  let pos := j * x.n1 + p
  if x.n2 = x.m2 then .ok ((List.range 16).map (fun i => (k0 + i, pos * 16 + i)))
  else
    joinAll ((List.range (16 / x.m2)).map (fun h =>
      match nibRecord nibs (q + h * (1 + x.n2)) x.n2 x.m2 1 with
      | .error n => .error n
      | .ok idx => .ok (idx.mapIdx (fun r v => (k0 + x.m2 * h + v, (pos * (16 / x.m2) + h) * x.n2 + r)))))

/-- The k indices that group `j` of a line keeps. -/
def keptGroup (x : Sparsity) (nibs : List Nat) (j : Nat) : Except Nat (List (Nat × Nat)) :=
  let blocks := if x.m1 > 1 then nibRecord nibs (j * (rec1 x + x.n1 * rec2 x)) x.n1 x.m1 0 else .ok [0]
  match blocks with
  | .error n => .error n
  | .ok l => joinAll (l.mapIdx (fun p blk => keptBlock x nibs j p blk))

/-- The nibbles of a line of a slot, low nibble first. -/
def nibblesOf (c : Cluster) (slot line : Nat) : List Nat :=
  (slotLine c slot line 128).flatMap (fun b => [b.toNat % 16, b.toNat / 16])

/-- The k indices that a line keeps; the TVAL of METABAD for a malformed record (R222, Table 10.4). -/
def keptLine (x : Sparsity) (c : Cluster) (k i : Nat) : Except Nat (List (List (Nat × Nat))) :=
  let nibs := nibblesOf c x.slot i
  match joinAll ((List.range (k / (16 * x.m1))).map (keptGroup x nibs)) with
  | .error n => .error (n + i * 256)
  | .ok l => .ok [l]

/-- TSMMA (R220-R223, R494): the checks of TMMA, BOUND on the descriptor, the metadata slot's, then METABAD. -/
def execTsmma (d a b r : BitVec 5) (s : State) : Host.Outcome State Fault Refusal :=
  tileForm (fun s => [rdS s.me r false]) (mulChecks d.toNat a.toNat b.toNat (fun s =>
    let v := s.me.rs r false
    let x := sparsityOf v
    let k := (s.me.e 2).toNat
    if sparsityBad v (s.me.e 3).toNat (fmtNxa s.me.fmt) k then .trap s .bound 0 v
    else
      needClaims [x.slot] (needClean [x.slot] (fun s =>
        match joinAll ((List.range (s.me.e 0).toNat).map (keptLine x (s.cluster s.myCluster) k)) with
        | .error n => .trap s .metabad 0 (word n)
        | .ok kept =>
          let e := mulEntry s .tsmma d.toNat a.toNat b.toNat kept
          enterTile { e with rdS := e.rdS ++ [x.slot] } id s)) s)) s

/-- A 16-bit element of a line. -/
def lineHalf (l : List Byte) (i : Nat) : Nat := leNat ((l.drop (2 * i)).take 2)

/-- An INT8 element of a line. -/
def lineI8 (l : List Byte) (i : Nat) : Int := signExt (leNat ((l.drop i).take 1)) 8

/-- One addition to an accumulator element: the group of 16 k indices that take part, each with the place of A's value
(R130-R133). -/
def addGroup (e : TileOp) (la lb : List Byte) (c : Nat) (grp : List (Nat × Nat)) : Nat :=
  match grp with
  | [] => c
  | (k0, p0) :: _ =>
    let f := if (e.e[3]?).getD 0 = 0 then f16 else bf16
    match (e.e[3]?).getD 0 with
    | 0 | 1 => accAdd c (exactFp (grp.map (fun x => fpMulExact (fpOf f (lineHalf la x.2)) (fpOf f (lineHalf lb x.1)))))
    | 2 => (((c : Int) + (grp.map (fun x => lineI8 la x.2 * lineI8 lb x.1)).sum) % (2 ^ 32 : Int)).toNat
    | _ =>
      let va := fmtNxa e.fmt
      let vb := fmtNxb e.fmt
      accAdd c (nxBlockProduct va vb (nxDecode va (la.drop (p0 / 16 * nxBytes va))) (nxDecode vb (lb.drop (k0 / 16 * nxBytes vb)))
        (grp.map (fun x => x.1 % 16)) e.scaleA e.scaleB)

/-- An accumulator element after a multiply: one addition for each group in which a term takes part, in ascending k. -/
def mulCell (e : TileOp) (kept : List (Nat × Nat)) (la lb : List Byte) (c : Nat) : Nat :=
  (List.range 32).foldl (fun c g => addGroup e la lb c (kept.filter (fun x => x.1 / 16 == g))) c

/-- A multiply performed (R215, R223). -/
def mulStep (x : Cluster) (e : TileOp) : Cluster :=
  let m := (e.e[0]?).getD 0
  let n := (e.e[1]?).getD 0
  let pitch := if (e.e[3]?).getD 0 = 3 then 256 else 128
  let lbs := (List.range n).map (fun j => slotLine x e.tb j pitch)
  { x with accMem := (List.range m).foldl (fun acc i =>
      let la := slotLine x e.ta i pitch
      let kept := (e.kept[i]?).getD []
      (List.range n).foldl (fun acc j =>
        setAcc acc (accKey e.td i j)
          (BitVec.ofNat 32 (mulCell e kept la ((lbs[j]?).getD []) (accWord x e.td i j).toNat))) acc) x.accMem }

/-! ## TSCALE, TZERO, TACCV and TSTORE -/

/-- TSCALE (R216, R493): it acts at once. -/
def execTscale (d a : BitVec 5) (s : State) : Host.Outcome State Fault Refusal :=
  finish 4 (elected none (guard [rdS s.me a false] (needClaims [d.toNat] (fun s =>
    let v := (s.me.rs a false).setWidth 32
    .ok (s.onCluster s.myCluster (fun c => { c with scales := mapSet c.scales d.toNat v }))))) s)

/-- TZERO (R217, R496). -/
def execTzero (d : BitVec 5) (s : State) : Host.Outcome State Fault Refusal :=
  tileForm (fun _ => []) (needClaims [32 + d.toNat] (fun s =>
    enterTile { tileEntry s .tzero with td := d.toNat, wrA := [d.toNat] } id s)) s

/-- Sixteen words of a row as four vector registers. -/
def accVec (c : Cluster) (a i j : Nat) : Vec :=
  BitVec.ofNat 128 ((accWord c a i j).toNat + (accWord c a i (j + 1)).toNat * 2 ^ 32 + (accWord c a i (j + 2)).toNat * 2 ^ 64 +
    (accWord c a i (j + 3)).toNat * 2 ^ 96)

/-- TACCV (R218, R485): SLOT, BOUND, REGBOUND; a short stall until every earlier entry that writes the accumulator has
completed. -/
def execTaccv (d a r : BitVec 5) (s : State) : Host.Outcome State Fault Refusal :=
  finish 4 (guard [rdS s.me r false] (fun s =>
    needClaims [32 + a.toNat] (fun s =>
      let v := s.me.rs r false
      if bits v 63 8 ≠ 0 then .trap s .bound 0 v
      else if s.me.nV ≤ d.toNat + 3 then .trap s .regbound 0 (word (d.toNat + 3))
      else
        guard ((List.range 4).map (fun i => ⟨1, ((d.toNat + i : Nat) : Int), false, true⟩)) (fun s =>
          let c := s.cluster s.myCluster
          let n := match s.me.wait with | .before n => n | _ => s.nextId
          if c.tileq.any (fun e => e.wrA.contains a.toNat && decide (e.n < n)) then .stall s (.before n)
          else
            .ok (s.onMe (fun t => (List.range 4).foldl (fun t i =>
              t.setV (d.toNat + i) (accVec c a.toNat (bits v 5 0) (16 * bits v 7 6 + 4 * i))) t))) s) s) s)

/-- Bytes of a row of TSTORE (R219). -/
def storeRowBytes (ty cols : Nat) : Nat :=
  match ty with
  | 2 | 8 => 4 * cols
  | 9 | 10 => 2 * cols
  | _ => (cols + 15) / 16 * nxBytes (ty - 11)

/-- A limit of the descriptor of TSTORE is broken. -/
def tstoreBad (v : Word) : Bool :=
  decide (bits v 7 0 > 63) || decide (bits v 15 8 > 63) || bits v 63 42 != 0 ||
    !([2, 8, 9, 10, 11, 12, 13].contains (bits v 35 32))

/-- TSTORE (R219, R495). -/
def execTstore (d a b : BitVec 5) (s : State) : Host.Outcome State Fault Refusal :=
  tileForm (fun s => [rdS s.me a false, rdS s.me b false]) (fun s =>
    let p := s.me.rs a false
    let v := s.me.rs b false
    needClaims [32 + d.toNat] (fun s =>
      if tstoreBad v then .trap s .bound 0 v
      else
        engPtr 4 16 p (translated (rowPages p (16 * bits v 31 16) (storeRowBytes (bits v 35 32) (bits v 15 8 + 1)) (bits v 7 0 + 1)) (fun s =>
          match rowSegs s s.actor 2 p (16 * bits v 31 16) (storeRowBytes (bits v 35 32) (bits v 15 8 + 1))
              (List.range (bits v 7 0 + 1)) with
          | .error (c, sub, tval) => .trap s c sub tval
          | .ok segs =>
            afterAcquire (enterTile { tileEntry s .tstore with
              td := d.toNat, args := [p, v, s.me.msgid, word s.me.chan, word s.me.seq], dst := segs, rdA := [d.toNat]
              device := !nearCluster s.myCluster segs } id) s)) s) s) s

/-- Parts of 16 of a list. -/
def sixteens {α : Type} : Nat → List α → List (List α)
  | 0, _ => []
  | n + 1, l => l.take 16 :: sixteens n (l.drop 16)

/-- A row of TSTORE converted: its bytes, the flags it raises and whether it saturated (R219, R133). -/
def storeRow (c : Cluster) (e : TileOp) (r : Nat) : List Byte × Flags × Bool :=
  let v := (e.args[1]?).getD 0
  let cols := bits v 15 8 + 1
  let ws := (List.range cols).map (fun j => (accWord c e.td r j).toNat)
  let outs := fun (n : Nat) (f : Nat → FpOut) =>
    (ws.flatMap (fun w => leBytes n (f w).bits), ws.foldl (fun a w => a ||| (f w).flags) (0 : Flags), ws.any (fun w => (f w).sat))
  match bits v 35 32 with
  | 2 => outs 4 (fpToInt f32 (intTy 2) (fmtRm e.fmt) (fmtSaten e.fmt))
  | 8 => (ws.flatMap (leBytes 4), 0, false)
  | 9 => outs 2 (fpConvert f32 f16 (fmtRm e.fmt))
  | 10 => outs 2 (fpConvert f32 bf16 (fmtRm e.fmt))
  | ty =>
    let xs := ws.map (fpOf f32) ++ List.replicate (15 - (cols - 1) % 16) (.fin false 0 0)
    let bs := (sixteens ((cols + 15) / 16) xs).map (nxEncode (ty - 11))
    (bs.flatMap (·.1), bs.foldl (fun a b => a ||| b.2) 0, false)

/-- A TSTORE that a late fault has stopped reports: the fault is deferred to a WAIT of the issuing task, or reported where that has ended
(R158, R281, R495). The flags and the saturation of the rows that it has written are not raised: the rules speak of completion only, and
this is the model's choice (log 93). -/
def tstoreFault (s : State) (g : Nat) (e : TileOp) (f : Flt) : State :=
  let arg := fun (i : Nat) => (e.args[i]?).getD 0
  match s.taskSlot e.task with
  | some _ => tileDone s g e (fun t => { t with faults := t.faults ++
      [{ op := e.n, regs := [], ctr := some .tl, upd := false, cause := f.1, sub := f.2.1, tval := f.2.2, pc := e.pc }] })
  | none => tileDone (lateReport s e.sup e.ctx e.core e.slot (arg 3).toNat (arg 2) (arg 4).toNat e.pc f) g e id

/-- The bytes of a row of an entry of TSTORE. -/
def tstoreLen (e : TileOp) : Nat := let v := (e.args[1]?).getD 0; storeRowBytes (bits v 35 32) (bits v 15 8 + 1)

/-- The rows of an entry of TSTORE. -/
def tstoreRows (e : TileOp) : Nat := bits ((e.args[1]?).getD 0) 7 0 + 1

/-- A row of a TSTORE written, with the credit of its delivery where it is told to give one, which its release holds back (R170, R189,
R219). -/
def tstoreRow (g : Nat) (e : TileOp) (s : State) (i : Nat) : State × Except Flt Nat :=
  let v := (e.args[1]?).getD 0
  let row := rowOf e.dst (tstoreLen e) i
  match writeRange s e.actor (ptrAdd ((e.args[0]?).getD 0) (16 * bits v 31 16 * i)) (storeRow (s.cluster g) e i).1 row with
  | (s, .error f) => (s, .error f)
  | (s, .ok tc) =>
    let home := match row with | y :: _ => if isScratch y.key then clusterOf (keyCore y.key) else g | [] => g
    (if bits v 41 41 = 1 then s.onCluster home (fun c =>
        { c with credits := c.credits ++ [(bits v 40 36, tstoreLen e, if e.device then tc else 0)] }) else s, .ok tc)

/-- Whether a row of a TSTORE and the next one share a unit (R171). -/
def tstoreMeets (e : TileOp) (i : Nat) : Bool := decide (i + 1 < tstoreRows e) && rowsMeet e.dst (tstoreLen e) i

/-- The next rows of a TSTORE are written, up to the end of a unit; after the last it reports done and its flags go to its issuer's FMT.FLG
(R171, R219). -/
def tstoreStep (s : State) (g : Nat) (e : TileOp) : State :=
  match e.fault with
  | some f => if e.device && decide (s.devtime < e.tc) then s else tstoreFault s g e f
  | none =>
    if e.pos < tstoreRows e then
      portWait s e.n e.core ((rowsFrom (tstoreMeets e) (tstoreRows e) e.pos).flatMap (rowOf e.dst (tstoreLen e))) (fun s =>
        match writeRows (tstoreRow g e) (tstoreMeets e) (tstoreRows e) s e.pos 0 with
        | (s, .error f) => failTile s g e f
        | (s, .ok (tc, next)) => onTile s g e.n (fun e => { e with pos := next, tc := Nat.max e.tc tc }))
    else
      let outs := (List.range (tstoreRows e)).map (storeRow (s.cluster g) e)
      tileReport s g e (fun t => t.raise (outs.foldl (fun a o => a ||| o.2.1) 0) (outs.any (fun o => o.2.2)))

/-- TILE_OP_COMPLETE: entry `b` of the tile queue of cluster `a` is performed: a multiply or a clear at once, a transfer line by
line or row by row; with its last write its tl counters fall (R211, R225). -/
def execTileOpComplete (s : State) : Host.Outcome State Fault Refusal :=
  let g := s.subj.a
  match tileReady s g s.subj.b with
  | none => event s
  | some e =>
    match e.kind with
    | .tload => event (tloadStep s g e)
    | .tmma | .tsmma => event (tileDone (s.onCluster g (fun x => mulStep x e)) g e id)
    | .tzero => event (tileDone (s.onCluster g (fun x => clearAcc x e.td)) g e id)
    | .tstore => event (tstoreStep s g e)
    | _ => event s

end Sys2Proof.Machine
end

