-- ==== Sys2Proof/Machine/Copy.lean ====
section
/-!
DEFINITION. COPY and COPYM: engine threads that move bytes unit by unit, into memory, into a stream register or into the
scratchpads of a group (R169-R171, R371-R377).
-/

namespace Sys2Proof.Machine

open Sys2Proof

/-! ## Issue -/

/-- The control word e2 of a copy. -/
def copyCtl (s : State) : Word := (s.me.e 2).setWidth 64

/-- The completion-word pointer e1:e0. -/
def copyCw (s : State) : Word := (s.me.e 1).append (s.me.e 0)

/-- A control word that traps with BOUND: a reserved bit, SCOPE 6 or 7, or STREAM together with CREDIT (R372). -/
def copyCtlBad (v : Word) : Bool :=
  bits v 63 14 != 0 || decide (bits v 2 0 > 5) || (bits v 10 10 == 1 && bits v 4 4 == 1)

/-- A length that traps with BOUND (R371). -/
def copyLenBad (v : Word) : Bool := v == 0 || v.toNat % 16 != 0 || decide (2 ^ 32 ≤ v.toNat)

/-- Whether two ranges of a length overlap in one space. -/
def copyOverlaps (p q : Word) (len : Nat) : Bool :=
  tagOf p == tagOf q && decide (((bits p 59 0 : Int) - bits q 59 0).natAbs < len)

/-- SPACE unless a completion word lies in spaces 0x0-0x4 or 0x6, then BOUND, then ALIGN to 8 bytes (R372). -/
def cwPtr (on : Bool) (p : Word) (k : State → Res) (s : State) : Res :=
  if !on then k s else if tagOf p = 5 then .trap s .space 0 p else engPtr 6 8 p k s

/-- The pieces of a copy's completion word, where it has one. -/
def cwSegs (s : State) (on : Bool) (p : Word) : Except Flt (List Seg) := if on then rangeSegs s s.actor 2 p 8 else .ok []

/-- The pages of a completion word. -/
def cwPages (on : Bool) (p : Word) : List (Nat × Nat) := if on then rangePages p 8 else []

/-- The scope of a copy, by its number in the control word: as named, or by default CORE where every byte that it touches lies in a
scratchpad of the cluster and DEVICE elsewhere (R169, R212, R376). -/
def copyScope (s : State) (v : Word) (l : List Seg) (m : Bool) : Nat :=
  match bits v 2 0 with
  | 0 => if m || !nearCluster s.myCluster l then 4 else 1
  | n => n

/-- The operation of a copy. Its words: source, length, control word, e3, completion-word pointer and location, the number of its scope,
and MSGID, channel and arrival number of its task. -/
def copyOp (s : State) (kind : OpKind) (dst src len : Word) (ss ds cw : List Seg) : Op :=
  let v := copyCtl s
  let scope := copyScope s v (ss ++ ds ++ cw) (kind == .copym)
  { myOp s kind with
    ptr := dst, src := ss, dst := ds
    ctr := if bits v 10 10 = 1 then none else some .cp
    sup := s.me.supervisor, fork := s.me.task, hor := s.me.hor, flush := scope == 5 && s.me.hostWrites
    args := [src, len, v, (s.me.e 3).setWidth 64, copyCw s, word ((cw.head?.map (·.key)).getD 0),
             word scope, s.me.msgid, word s.me.chan, word s.me.seq] }

/-- A word of an operation. -/
def opArg (o : Op) (i : Nat) : Word := (o.args[i]?).getD 0

/-- The number of a copy's scope. -/
def opScope (o : Op) : Nat := (opArg o 6).toNat

/-- Whether the release at a copy's fork has been made (R169); the flush of a SYSTEM scope comes after it. -/
def copyForked (s : State) (o : Op) : Bool := forked s o.fork o.id o.hor (decide (2 ≤ opScope o))

/-- The registers of a copy; with STREAM sd is not read (R371). -/
def copyUses (d a b : BitVec 5) (x y : Bool) (s : State) : List Use :=
  [rdS s.me a y, rdS s.me b false] ++ (if bits (copyCtl s) 10 10 = 1 then [] else [rdS s.me d x])

/-- COPY (R371, R372, R375). -/
def execCopy (d a b : BitVec 5) (x y : Bool) (s : State) : Host.Outcome State Fault Refusal :=
  let v := copyCtl s
  let stream := bits v 10 10 == 1
  let cw := bits v 3 3 == 1
  let qn := bits v 13 11
  finish 4 (elected (if stream then none else some .cp) (fun s => guard (copyUses d a b x y s) (fun s =>
    let p := s.me.rs a y
    let len := s.me.rs b false
    let q := if stream then 0 else s.me.rs d x
    let move := cwPtr cw (copyCw s) (fun s =>
      if !stream && copyOverlaps p q len.toNat then .trap s .bound 0 q
      else if stream && ((s.me.q qn).kind != 2 || (s.me.q qn).source != 0) then .trap s .bound 0 v
      else
        translated (rangePages p len.toNat ++ (if stream then [] else rangePages q len.toNat) ++ cwPages cw (copyCw s)) (fun s =>
          match rangeSegs s s.actor 1 p len.toNat, (if stream then .ok [] else rangeSegs s s.actor 2 q len.toNat),
              cwSegs s cw (copyCw s) with
          | .error (c, sub, tval), _, _ => .trap s c sub tval
          | _, .error (c, sub, tval), _ => .trap s c sub tval
          | _, _, .error (c, sub, tval) => .trap s c sub tval
          | .ok ss, .ok ds, .ok cs =>
            afterAcquire (fun s =>
              let o := copyOp s .copy q p len ss ds cs
              let s := startOp s o
              .ok (if stream then s.onMe (fun t => t.setQ qn { t.q qn with source := word o.id, limit := len.toNat }) else s)) s) s)
    if copyCtlBad v then .trap s .bound 0 v
    else if copyLenBad len then .trap s .bound 0 len
    else engPtr 6 16 p (if stream then move else engPtr 6 16 q move) s) s) s)

/-- COPYM (R376): STREAM traps, and the destination checks are those of the destination word. -/
def execCopym (d a b : BitVec 5) (x y : Bool) (s : State) : Host.Outcome State Fault Refusal :=
  let v := copyCtl s
  let cw := bits v 3 3 == 1
  finish 4 (elected (some .cp) (fun s => guard [rdS s.me a y, rdS s.me b false, rdS s.me d x] (fun s =>
    let p := s.me.rs a y
    let len := s.me.rs b false
    let w := s.me.rs d x
    if copyCtlBad v || bits v 10 10 == 1 then .trap s .bound 0 v
    else if copyLenBad len then .trap s .bound 0 len
    else
      engPtr 6 16 p (fun s =>
        if bits w 35 18 ≠ 0 ∨ bits w 63 48 ≠ 0 then .trap s .bound 0 w
        else
          cwPtr cw (copyCw s) (fun s =>
            translated (rangePages p len.toNat ++ cwPages cw (copyCw s)) (fun s =>
              match rangeSegs s s.actor 1 p len.toNat, cwSegs s cw (copyCw s) with
              | .error (c, sub, tval), _ => .trap s c sub tval
              | _, .error (c, sub, tval) => .trap s c sub tval
              | .ok ss, .ok cs =>
                if rootLost s (groupKey s.me.ctx (bits w 47 36)) then .trap s .dielost 0 (word (lostMask s))
                else afterAcquire (fun s => .ok (startOp s (copyOp s .copym w p len ss [] cs))) s) s) s) s) s) s)

/-! ## Moving units -/

/-- The value of a copy's completion word: e3 where all went well; else bit 63, the cause code and e3 (R373, R374, R377). -/
def copyWord (o : Op) : Nat :=
  let e3 := bits (opArg o 3) 31 0
  if o.phase = 9 then 2 ^ 63 + e3
  else match o.fault with | some (c, _, _) => 2 ^ 63 + causeCode c * 2 ^ 32 + e3 | none => e3

/-- Whether the release of a copy before it reports waits for the completion times of its writes: at CLUSTER scope or wider, for a completion
word in the host, which is written at SYSTEM scope, and for writes to a peer, which are acknowledged no earlier (R162, R170, Table 8.1). -/
def copyWide (o : Op) : Bool :=
  decide (2 ≤ opScope o) || (bits (opArg o 2) 3 3 == 1 && tagOf (opArg o 4) == 6) || (o.kind == .copy && tagOf o.ptr == 5)

/-- Whether that release flushes host writes: at SYSTEM scope. -/
def copySystem (o : Op) : Bool := opScope o == 5 || (bits (opArg o 2) 3 3 == 1 && tagOf (opArg o 4) == 6)

/-- The zero-length read of the host with which a release at SYSTEM scope flushes posted host writes; where it fails the copy takes PAGE
with TVAL 0 (R164, R374, R396). -/
def copyFlush (s : State) (o : Op) : State :=
  onOp s o.id (fun o => { o with
    flush := false, fault := if Config.hostFails s.tick && o.fault.isNone then some (.page, 0, 0) else o.fault })

/-- The saved strand of a task changed, where its message keeps it (R286). -/
def onKept (s : State) (task : Nat) (f : Strand → Strand) : State :=
  { s with cores := s.cores.map (fun p => (p.1, { p.2 with rx := p.2.rx.map (fun m =>
      if m.image.isSome then { m with kept := m.kept.map (fun t => if t.task = task then f t else t) } else m) })) }

/-- Whether a task is saved and to be resumed. -/
def isKept (s : State) (task : Nat) : Bool :=
  s.cores.any (fun p => p.2.rx.any (fun m => m.image.isSome && (m.kept.map (·.task)) == some task))

/-- A copy reports done: the completion word is written, its counters fall, a late fault is deferred to a WAIT of the issuing task, in
its slot or saved, or, where that has ended, reported (R170, R373, R374, R281). -/
def copyReport (s : State) (o : Op) : State :=
  let s := if bits (opArg o 2) 3 3 = 1 then (engWrite s o.actor (opArg o 5).toNat (leBytes 8 (copyWord o)) (opArg o 4)).1 else s
  let down := fun (t : Strand) =>
    if 4 ≤ opScope o then { t.fall? o.ctr with repCp := Nat.max t.repCp s.devtime } else t.fall? o.ctr
  let s := dropOp (o.shared.foldl (fun s x => s.onTask x.2.2 down) s) o.id
  let fault := if o.phase = 9 then none else o.fault
  let owed := fun (t : Strand) => { down t with
    faults := t.faults ++ (fault.map (fun f => ({ op := o.id, regs := [], ctr := some .cp, upd := false, cause := f.1, sub := f.2.1,
                                                  tval := f.2.2, pc := o.pc } : Deferred))).toList }
  match s.taskSlot o.task, fault with
  | some _, _ => s.onTask o.task owed
  | none, some f =>
    if isKept s o.task then onKept s o.task owed
    else lateReport s o.sup o.ctx o.core o.slot (opArg o 8).toNat (opArg o 7) (opArg o 9).toNat o.pc f
  | none, none => s

/-- The end of a copy: its release at its scope, then its report (R170). -/
def copyEnd (s : State) (o : Op) : State :=
  if copyWide o && decide (s.devtime < o.tc) then s
  else if copySystem o && o.flush then copyFlush s o
  else if bits (opArg o 2) 3 3 = 1 ∧ !bankFree s (opArg o 5).toNat 8 then s
  else copyReport { s with portWaits := mapDel s.portWaits o.id } o

/-- Bytes of the next unit of a copy whose destination stands at a location: a unit of R169 is written whole (R171). -/
def copyUnit (o : Op) (dst : Nat) : Nat := Nat.min (unitRest dst) ((opArg o 1).toNat - o.pos)

/-- Bytes of a source range from an offset on, unit by unit, each with whether its unit is poisoned, where its value is free (R291); the
fault of the first unit that fails. -/
def copyRead (s : State) (o : Op) (off n : Nat) : Nat → State × Except Flt (List (Byte × Bool))
  | 0 => (s, .ok [])
  | fuel + 1 =>
    if n = 0 then (s, .ok [])
    else
      match segKey o.src off with
      | none => (s, .ok [])
      | some k =>
        let m := Nat.min n (Nat.min (unitRest k) (segRun o.src off))
        let rest := fun (s : State) (l : List (Byte × Bool)) =>
          match copyRead s o (off + m) (n - m) fuel with
          | (s, .ok r) => (s, Except.ok (l ++ r))
          | (s, .error f) => (s, .error f)
        match engRead s o.actor k m (ptrAdd (opArg o 0) off) with
        | (s, .ok l) => rest s (l.map (fun b => (b, false)))
        | (s, .error (.poison, _, _)) => rest s ((leBytes m (freeNat Config.poisonByte s.tick k m)).map (fun b => (b, true)))
        | (s, .error f) => (s, .error f)

/-- The credit of a delivery of `n` bytes at a location: to the barrier in the cluster of that scratchpad, or in the issuing
cluster; the release at the copy's scope holds it back until the completion time of the write (R170, R189). -/
def copyCredit (s : State) (o : Op) (k n tc : Nat) : State :=
  if bits (opArg o 2) 4 4 = 0 then s
  else s.onCluster (if isScratch k then clusterOf (keyCore k) else clusterOf o.core) (fun c =>
    { c with credits := c.credits ++ [(bits (opArg o 2) 9 5, n, if copyWide o then tc else 0)] })

/-- A unit delivered to a location: its bytes, and poison where a byte of its source is poisoned (R291, R373). -/
def deliver (s : State) (o : Op) (k : Nat) (p : Word) (l : List (Byte × Bool)) : State × Except Flt Nat :=
  match engWrite s o.actor k (l.map (·.1)) p with
  | (s, .error f) => (s, .error f)
  | (s, .ok tc) =>
    if l.any (·.2) then
      match engPoison s o.actor k l.length p with
      | (s, .error f) => (s, .error f)
      | (s, .ok tc') => (s, .ok (Nat.max tc tc'))
    else (s, .ok tc)

/-- The next unit of a copy into memory. A host write is left to be flushed by a release at SYSTEM scope. -/
def copyStep (s : State) (o : Op) : State :=
  match segKey o.dst o.pos with
  | none => onOp s o.id (fun o => { o with pos := (opArg o 1).toNat })
  | some dk =>
    let n := Nat.min (copyUnit o dk) (segRun o.dst o.pos)
    match copyRead s o o.pos n 5 with
    | (s, .error f) => onOp s o.id (fun o => { o with fault := some f })
    | (s, .ok l) =>
      match deliver s o dk (ptrAdd o.ptr o.pos) l with
      | (s, .error f) => onOp s o.id (fun o => { o with fault := some f })
      | (s, .ok tc) =>
        onOp (copyCredit s o dk n tc) o.id (fun o => { o with pos := o.pos + n, tc := Nat.max o.tc tc, flush := o.flush || isHost dk })

/-- Whether a member's scratchpad refuses the destination of a COPYM (R377, R141). -/
def copymRefuses (s : State) (o : Op) (core : Nat) : Bool :=
  let off := bits o.ptr 17 0
  let len := (opArg o 1).toNat
  decide (2 ^ 18 < off + len) || !regionOk s core o.ctx o.asid o.priv off len || onLostDie s (spKey core off)

/-- The ranks of the members that refuse. -/
def copymRefused (s : State) (o : Op) : List Nat :=
  (o.todo.filter (copymRefuses s o)).map (fun c => (o.members.idxOf? c).getD 0)

/-- The next unit of a COPYM, delivered to every member still to take it (R376). -/
def copymStep (s : State) (o : Op) : State :=
  let off := bits o.ptr 17 0 + o.pos
  let live := if o.pos = 0 then o.todo.filter (fun c => !copymRefuses s o c) else o.todo
  let refused := if o.pos = 0 then copymRefused s o else o.refused
  let n := copyUnit o (spKey 0 off)
  let last := decide ((opArg o 1).toNat ≤ o.pos + n)
  match copyRead s o o.pos n 5 with
  | (s, .error f) => onOp s o.id (fun o => { o with fault := some f, todo := [], refused := refused })
  | (s, .ok l) =>
    let s := live.foldl (fun s c => copyCredit (deliver s o (spKey c off) 0 l).1 o (spKey c off) n s.devtime) s
    onOp s o.id (fun o => { o with pos := o.pos + n, todo := if last then [] else live, refused := refused
                                   fault := if last then partFault refused else none
                                   tc := Nat.max o.tc s.devtime })

/-- Where the next `n` bytes of a copy are read: the locations of the first and the last of them. -/
def sourceSegs (o : Op) (n : Nat) : List Seg :=
  ((segKey o.src o.pos).map (fun k => (⟨o.pos, Nat.min n (segRun o.src o.pos), k⟩ : Seg))).toList ++
    ((segKey o.src (o.pos + n - 1)).map (fun k => (⟨o.pos + n - 1, 1, k⟩ : Seg))).toList

/-- Where the next unit of a copy is read and written: of a copy into memory, into a stream register, or to the members of a group. -/
def copySegs (o : Op) : List Seg :=
  match o.kind, segKey o.dst o.pos with
  | .copym, _ =>
    let off := bits o.ptr 17 0 + o.pos
    let n := copyUnit o (spKey 0 off)
    sourceSegs o n ++ o.todo.map (fun c => ⟨o.pos, n, spKey c off⟩)
  | _, some k => let n := Nat.min (copyUnit o k) (segRun o.dst o.pos); sourceSegs o n ++ [⟨o.pos, n, k⟩]
  | _, none => sourceSegs o 16

/-- A copy moves its next unit: after the release at its fork, with its flush at SYSTEM scope, and once its banks can serve it and its peer
locations have a port (R140, R146, R169, R303). -/
def copyMove (s : State) (o : Op) (step : State → Op → State) : State :=
  if !copyForked s o then s
  else if o.pos = 0 ∧ o.flush then copyFlush s o
  else portWait s o.id o.core (copySegs o) (fun s => step s o)

/-- COPY_DONE: copy `a` moves its next unit; after the last, or a fault, it releases and reports done through its completion
object (R373, R374, R377). A copy into a stream is moved by its own event. -/
def execCopyDone (s : State) : Host.Outcome State Fault Refusal :=
  match findOp s s.subj.a with
  | none => event s
  | some o =>
    if o.phase = 9 ∨ o.fault.isSome ∨ (opArg o 1).toNat ≤ o.pos then
      if o.kind = .copy ∨ o.kind = .copym then event (copyEnd s o) else event s
    else
      match o.kind with
      | .copy => if bits (opArg o 2) 10 10 = 1 then event s else event (copyMove s o copyStep)
      | .copym =>
        if o.phase ≠ 3 then event s
        else if o.members.isEmpty then event (copyEnd s o)
        else if o.todo.all (mcastNext s o) then event (copyMove s o copymStep)
        else event s
      | _ => event s

/-- The next element of a copy into a stream, put into the STAGE of the register of the strand in a slot (R375). -/
def streamElement (c i : Nat) (s : State) (o : Op) : State :=
  let qn := bits (opArg o 2) 13 11
  match segKey o.src o.pos with
  | none => s
  | some k =>
    let put := fun (s : State) (l : List Byte) =>
      let s := s.setSlot c i (let t := s.slot c i; let q := t.q qn; t.setQ qn { q with stage := q.stage ++ l, wptr := q.wptr + 16 })
      onOp s o.id (fun o => { o with pos := o.pos + 16 })
    match engRead s o.actor k 16 (ptrAdd (opArg o 0) o.pos) with
    | (s, .ok l) => put s l
    | (s, .error (.poison, _, _)) => put s (leBytes 16 (freeNat Config.poisonByte s.tick k 16))
    | (s, .error f) => onOp s o.id (fun o => { o with fault := some f })

/-- COPY_STREAM_DELIVERY: copy `a` delivers its next element into the STAGE of its stream register, where it holds 48 bytes or
fewer and its strand is in a slot and is not being saved (R149, R375). -/
def execCopyStreamDelivery (s : State) : Host.Outcome State Fault Refusal :=
  match findOp s s.subj.a with
  | none => event s
  | some o =>
    match s.taskSlot o.task with
    | none => event s
    | some (c, i) =>
      let t := s.slot c i
      if o.kind = .copy ∧ o.phase ≠ 9 ∧ o.fault = none ∧ bits (opArg o 2) 10 10 = 1 ∧ t.st ≠ .saving ∧
          (t.q (bits (opArg o 2) 13 11)).stage.length ≤ 48 then event (copyMove s o (streamElement c i))
      else event s

end Sys2Proof.Machine
end

