-- ==== Sys2Proof/Machine/Image.lean ====
section
/-!
DEFINITION. The task save image: its layout as bytes and what a strand takes from it (R282, R286, R529, R530; Tables 14.3, 14.7,
14.8).
-/

namespace Sys2Proof.Machine

open Sys2Proof

/-- A list of bytes with zeros up to a length. -/
def padBytes (n : Nat) (l : List Byte) : List Byte := l ++ List.replicate (n - l.length) 0

/-- Bytes of an image as a number. -/
def imgNat (l : List Byte) (off n : Nat) : Nat := leNat ((l.drop off).take n)

/-! ## Writing -/

/-- A stream register's entry (Table 14.7). -/
def streamEntry (q : Stream) : List Byte :=
  if q.kind = 0 then List.replicate 128 0
  else
    padBytes 128 (leBytes 1 (q.kind % 4) ++ leBytes 1 (if q.kind = 1 then q.esize % 4 else 0) ++ List.replicate 6 0 ++
      leBytes 8 q.source.toNat ++ leBytes 8 q.wptr ++ leBytes 8 q.rptr ++ leBytes 8 q.limit ++ padBytes 72 q.stage)

/-- A buffered send's record (Table 14.8). -/
def sendRecord (x : Send) : List Byte :=
  padBytes 64 ((x.data.take 8).flatMap (fun w => leBytes 8 w.toNat)) ++
    leBytes 8 (x.dest.toNat + x.form % 256 * 2 ^ 32 + x.net % 4 * 2 ^ 40)

/-- The buffered sends of a strand on a network. -/
def sendsOn (l : List Send) (net : Nat) : Nat := (l.filter (fun x => x.net == net)).length

/-- A register kept where it lies within an allotment, else zero. -/
def inside (i n v : Nat) : Nat := if i < n then v else 0

/-- The image of a strand (Table 14.3), with the full arrival number of its message; byte 54 takes the slot, a lost subscription
and a stop by BRK or WATCH. -/
def imageBytes (t : Strand) (slot : Nat) (lostSub stopped : Bool) : List Byte :=
  leBytes 8 t.pc.toNat ++ leBytes 8 t.msgid.toNat ++ leBytes 8 t.seq ++
  leBytes 8 ((t.capped.getD t.budget).toNat + if t.unb then 2 ^ 32 else 0) ++
  leBytes 4 t.fmt.toNat ++ (List.range 4).flatMap (fun i => leBytes 4 (t.e i).toNat) ++ leBytes 2 t.xi.toNat ++
  leBytes 1 (slot % 4 + (if lostSub then 4 else 0) + (if stopped then 8 else 0)) ++ [0] ++ leBytes 8 t.hor ++
  (List.range 64).flatMap (fun i => leBytes 8 (inside i t.nS (t.s i).toNat)) ++
  (List.range 32).flatMap (fun i => leBytes 16 (inside i t.nV (t.v i).toNat)) ++
  (List.range 8).flatMap (fun i => leBytes 2 (inside i t.nK (t.k i).toNat)) ++
  t.watch.toList.flatMap (fun w => leBytes 8 w.toNat) ++ List.replicate 32 0 ++
  t.strm.toList.flatMap streamEntry ++
  t.arrRec.toList.flatMap (fun r => leBytes 4 (match r with | some p => p.toNat + 2 ^ 16 | none => 0)) ++
  (List.range 3).flatMap (fun n => leBytes 2 (sendsOn t.sends n)) ++ List.replicate 58 0 ++
  padBytes 14016 (padBytes 6912 ((t.sends.take 96).flatMap sendRecord))

/-! ## Reading -/

/-- A stream register from its entry; nothing is outstanding for it. -/
def streamOf (l : List Byte) : Stream :=
  let kind := imgNat l 0 1 % 4
  if kind = 0 then {}
  else
    let wptr := imgNat l 16 8
    let rptr := imgNat l 24 8
    { kind := kind, esize := imgNat l 1 1 % 4, source := word (imgNat l 8 8), wptr := wptr, rptr := rptr, limit := imgNat l 32 8,
      stage := (l.drop 40).take (Nat.min 72 (wptr - rptr)) }

/-- A buffered send from its record; the PC of its instruction is not in the image (log 17). -/
def sendOf (l : List Byte) : Send :=
  let d := imgNat l 64 8
  { form := nbits d 39 32, net := nbits d 41 40, dest := BitVec.ofNat 32 d,
    data := (List.range 8).map (fun i => word (imgNat l (8 * i) 8)), pc := 0 }

/-- The sends of an image: those that its counts give. -/
def sendsOf (l : List Byte) : List Send :=
  let n := Nat.min 96 (imgNat l 2304 2 + imgNat l 2306 2 + imgNat l 2308 2)
  (List.range n).map (fun i => sendOf ((l.drop (2368 + 72 * i)).take 72))

/-- A strand with the state of an image; its allotment and what belongs to its message and context stay as given. -/
def imageStrand (l : List Byte) (t : Strand) : Strand :=
  { t with
    pc := BitVec.ofNat 48 (imgNat l 0 8)
    msgid := word (imgNat l 8 8)
    seq := imgNat l 16 8
    budget := BitVec.ofNat 32 (imgNat l 24 8)
    unb := nbits (imgNat l 24 8) 32 32 == 1
    capped := none
    fmt := BitVec.ofNat 27 (imgNat l 32 4) &&& 0x7FF01F3
    ereg := Vector.ofFn (fun i : Fin 4 => BitVec.ofNat 32 (imgNat l (36 + 4 * i.val) 4))
    xi := BitVec.ofNat 16 (imgNat l 52 2)
    hor := imgNat l 56 8
    sreg := Vector.ofFn (fun i : Fin 64 => if i.val < t.nS ∧ i.val ≠ 0 then word (imgNat l (64 + 8 * i.val) 8) else 0)
    vreg := Vector.ofFn (fun i : Fin 32 => if i.val < t.nV then BitVec.ofNat 128 (imgNat l (576 + 16 * i.val) 16) else 0)
    kreg := Vector.ofFn (fun i : Fin 8 => if i.val < t.nK ∧ i.val ≠ 0 then BitVec.ofNat 16 (imgNat l (1088 + 2 * i.val) 2) else 0)
    watch := Vector.ofFn (fun i : Fin 2 => word (imgNat l (1104 + 8 * i.val) 8) &&& ~~~(0x3C : Word))
    strm := Vector.ofFn (fun i : Fin 8 => streamOf ((l.drop (1152 + 128 * i.val)).take 128))
    arrRec := Vector.ofFn (fun i : Fin 32 =>
      let r := imgNat l (2176 + 4 * i.val) 4
      if r / 2 ^ 16 % 2 = 1 then some (BitVec.ofNat 16 r) else none)
    sends := sendsOf l }

end Sys2Proof.Machine
end

