-- ==== Sys2Proof/Machine/Maps.lean ====
section
/-!
DEFINITION. The map store of a cluster: map images, and what becomes of a context's maps when it leaves a cluster and comes back
(R227-R230, R241, R243, R284).
-/

namespace Sys2Proof.Machine

open Sys2Proof

/-- The key of a context's map identifier in a cluster. -/
def mapKey (ctx id : Nat) : Nat := ctx * 32 + id

/-- A map of a context. -/
def State.fmap (s : State) (g ctx id : Nat) : FMap := mapGet {} (s.cluster g).maps (mapKey ctx id)

/-- A map of a context replaced. -/
def setMap (s : State) (g ctx id : Nat) (m : FMap) : State :=
  s.onCluster g (fun c => { c with maps := mapSet c.maps (mapKey ctx id) m })

/-- Whether an identifier holds a physical entry. -/
def holdsEntry (m : FMap) : Bool := m.st == .matched || m.st == .merged

/-- Physical entries in use on a cluster. -/
def entriesUsed (c : Cluster) : Nat := (c.maps.filter (fun p => holdsEntry p.2)).length

/-- Halfwords as bytes, padded with zeros to a count. -/
def halfwords (n : Nat) (l : List Nat) : List Byte := (l ++ List.replicate (n - l.length) 0).flatMap (fun v => leBytes 2 v)

/-- A map image (Table 11.4). -/
def mapImage (m : FMap) : List Byte :=
  leBytes 8 (m.n + m.n' * 2 ^ 16 + m.depth * 2 ^ 32) ++ List.replicate 56 0 ++ halfwords 4096 m.dest ++ halfwords 4096 m.sizes

/-- Whether a map image's header is well formed (R241). -/
def mapHeaderOk (l : List Byte) : Bool :=
  let h := leNat (l.take 8)
  let n := nbits h 12 0
  let n' := nbits h 28 16
  let d := nbits h 35 32
  nbits h 15 13 == 0 && nbits h 31 29 == 0 && nbits h 63 36 == 0 && ((l.drop 8).take 56).all (· == 0) &&
    decide (1 ≤ n) && decide (n ≤ 4096) && decide (1 ≤ n') && decide (n' ≤ n) && decide (1 ≤ d) && decide (d ≤ 8)

/-- The halfwords of a part of an image. -/
def halvesAt (l : List Byte) (off n : Nat) : List Nat := (List.range n).map (fun i => leNat ((l.drop (off + 2 * i)).take 2))

/-- The map of an image whose header is well formed; the mark is MAPBAD where its body is malformed (R229, R241). -/
def mapOfImage (id : Nat) (l : List Byte) : FMap :=
  let h := leNat (l.take 8)
  let n := nbits h 12 0
  let n' := nbits h 28 16
  let dest := halvesAt l 64 n
  let sizes := halvesAt l 8256 n'
  let bad := dest.any (fun d => decide (n' ≤ d)) || sizes.any (· == 0) || (List.range n').any (fun j => !dest.contains j)
  { st := .merged, n := n, n' := n', depth := nbits h 35 32, dest := dest, sizes := sizes,
    mark := if bad then some (.mapbad, word id) else none }

/-- The pointer of a map's image in the context's save area (R284). -/
def mapSavePtr (s : State) (g ctx id : Nat) : Word :=
  ptrAdd (word (4 * 2 ^ 60 + nbits (ctxRecord s ctx) 303 256)) (16448 * (32 * g + id))

/-- The hardware as it acts for a context (R282, R284). -/
def ctxActor (s : State) (core ctx : Nat) : Actor := ⟨core, ctx, ctxAsid s ctx, nbits (ctxRecord s ctx) 135 135 == 1⟩

/-- A MERGED map written to the save area: SAVED, its mark kept; LOST where the write faults (R243, R284). -/
def saveMap (s : State) (core g ctx id : Nat) : State :=
  let m := s.fmap g ctx id
  let a := ctxActor s core ctx
  let p := mapSavePtr s g ctx id
  match hardSegs s a 2 p 16448 with
  | (s, .error _) => setMap s g ctx id { st := .lost }
  | (s, .ok segs) =>
    match writeRange s a p (mapImage m) segs with
    | (s, .error _) => setMap s g ctx id { st := .lost }
    | (s, .ok _) => setMap s g ctx id { m with st := .saved, sizes := [], dest := [] }

/-- Whether the tile queue of a cluster still holds an entry that names a map of a context: its maps are not all as issued (R230). -/
def mapsBusy (s : State) (g ctx : Nat) : Bool :=
  (s.cluster g).tileq.any (fun e => e.ctx == ctx && (!e.rdM.isEmpty || !e.wrM.isEmpty))

/-- Whether the banks can serve the images of the maps that a context leaves to its save area (R146, R284). -/
def mapsFree (s : State) (core g ctx : Nat) : Bool :=
  !(s.ctx ctx).mapkeep || (List.range 32).all (fun id => (s.fmap g ctx id).st != .merged ||
    rangeFree s (ctxActor s core ctx) 2 (mapSavePtr s g ctx id) 16448)

/-- A context leaves a cluster: its maps by its map-keep flag; reloads that have not entered the queue are made no more (R243). -/
def mapsLeave (s : State) (core g ctx : Nat) : State :=
  let s := s.onCluster g (fun c => { c with reloads := c.reloads.filter (fun p => p.1 != ctx) })
  (List.range 32).foldl (fun s id =>
    let m := s.fmap g ctx id
    if (s.ctx ctx).mapkeep then (if m.st = .merged then saveMap s core g ctx id else s)
    else if holdsEntry m then setMap s g ctx id { st := .lost } else s) s

/-- A strand of a context starts or resumes on a cluster: its SAVED identifiers are to be reloaded, in ascending order (R243). -/
def mapsReturn (s : State) (g ctx : Nat) : State :=
  s.onCluster g (fun c => { c with
    reloads := c.reloads ++ ((List.range 32).filter (fun id =>
      (mapGet {} c.maps (mapKey ctx id)).st == .saved && !c.reloads.contains (ctx, id))).map (fun id => (ctx, id)) })

end Sys2Proof.Machine
end

