-- ==== Sys2Proof/Machine/Select.lean ====
section
/-!
DEFINITION. Selection: runnable channels, levels, and the slot and message that a core chooses next (R35, R36, R41, R257-R261, R278,
R364).
-/

namespace Sys2Proof.Machine

open Sys2Proof

/-- Whether a die is in service with its cores released (R306). -/
def dieUp (s : State) (d : Nat) : Bool := (s.die d).boot == 5 && !(s.die d).lost

/-- Whether a message may be the head of its channel: no task of it runs, it is not held for a frame to come, and, where a stream
binds the channel, it belongs to a task that has already begun (R35, R268, R364). -/
def mayHead (s : State) (k : Core) (m : Msg) : Bool :=
  !m.running && decide (m.heldTill ≤ s.devtime) && (m.image.isSome || m.mig.isSome || !channelBound k m.chan)

/-- Whether a slot holds a task of a channel. One in TRAPPING or SAVING holds it too, though R35 does not list them: the model's choice
(log 85). -/
def chanBusy (k : Core) (ch : Nat) : Bool := k.slots.toList.any (fun t => t.st != .free && t.chan == ch)

/-- The head message of a channel that is runnable (R35, R278). -/
def runnable (s : State) (c ch : Nat) : Option Msg :=
  let k := s.core c
  let e := k.entry ch
  if entBits e 0 0 = 1 ∧ entBits e 89 89 = 0 ∧ !k.suspended.contains ch ∧ !chanBusy k ch then
    k.rx.find? (fun m => m.chan == ch && mayHead s k m)
  else none

/-- The levels that a channel has risen by ageing (R257). -/
def aged (k : Core) (ch : Nat) : Nat := (mapGet (0, 0) k.ages ch).1

/-- The level of a channel with a head message (R36, R257): a demoted message keeps level 6, also when its entry is timed no more. -/
def msgLevel (k : Core) (m : Msg) : Nat :=
  let e := k.entry m.chan
  if m.demoted then 6
  else if entBits e 91 91 = 1 then (if m.timing.isNone then 6 else 7)
  else Nat.min 6 (entBits e 63 61 + aged k m.chan)

/-- Whether a slot takes a task of a level: reserved slots only level 7, the others only lower ones (R259). -/
def eligible (k : Core) (i level : Nat) : Bool := k.reservedSlot i == (level == 7)

/-- The better of two candidates: the higher level, among equal levels the older message. -/
def better (a b : Nat × Msg) : Nat × Msg :=
  if a.1 < b.1 ∨ (a.1 = b.1 ∧ b.2.seq < a.2.seq) then b else a

/-- The best of some candidates. -/
def best : List (Nat × Msg) → Option (Nat × Msg)
  | [] => none
  | a :: t => match best t with | none => some a | some b => some (better a b)

/-- The runnable channels of a core: level and head message. -/
def candidates (s : State) (c : Nat) : List (Nat × Msg) :=
  (List.range 64).filterMap (fun ch => (runnable s c ch).map (fun m => (msgLevel (s.core c) m, m)))

/-- Whether a core selects at all: its die is in service and it is not halted (R306, R401). -/
def selects (s : State) (c : Nat) : Bool := dieUp s (dieOf c) && !(s.core c).halted

/-- The slots of a core that are FREE and in service, in ascending order (R289). -/
def freeSlots (k : Core) : List Nat := (List.range 4).filter (fun i => (k.slot i).st == .free && !k.retired.contains i)

/-- The slot, level and message that a core starts next: the lowest FREE slot for which a runnable channel is eligible, with the
best such channel (R36, R259). -/
def choose (s : State) (c : Nat) : Option (Nat × Nat × Msg) :=
  if selects s c then
    let k := s.core c
    let l := candidates s c
    (freeSlots k).findSome? (fun i => (best (l.filter (fun p => eligible k i p.1))).map (fun p => (i, p.1, p.2)))
  else none

/-- Whether pre-emption by an arrival takes one strand before another: the one of lower level, of equal ones the one that started
later (R41). -/
def lower (a b : Strand × Nat) : Bool := decide (a.1.level < b.1.level) || (a.1.level == b.1.level && decide (b.1.startNo < a.1.startNo))

/-- The blocked strand of lowest level, among equal levels the one that started last (R41). -/
def victim : List (Strand × Nat) → Option (Strand × Nat)
  | [] => none
  | a :: t => match victim t with | none => some a | some b => if lower b a then some b else some a

/-- The slot whose blocked strand an arrival pre-empts: a channel is runnable, no slot for which it is eligible is FREE, and a
blocked strand in such a slot has a lower level (R41, R259). -/
def arrivalVictim (s : State) (c : Nat) : Option Nat :=
  if selects s c then
    let k := s.core c
    (candidates s c).findSome? (fun p =>
      if (freeSlots k).any (fun i => eligible k i p.1) then none
      else
        let l := ((List.range 4).filter (fun i => eligible k i p.1 && (k.slot i).st == .blocked &&
          decide ((k.slot i).level < p.1))).map (fun i => (k.slot i, i))
        (victim l).map (·.2))
  else none

end Sys2Proof.Machine
end

