-- ==== Sys2Proof/Machine/Tasks.lean ====
section
/-!
DEFINITION. A task's life: END and what it commits, start, resume, arrival by migration, pre-emption and saving, traps reported,
aborts, fencing, and contexts made and destroyed (R25-R47, R257-R261, R275-R290, R389, R405, R436).
-/

namespace Sys2Proof.Machine

open Sys2Proof

/-! ## Committing sends (R34, R37, R46) -/

/-- A launch committed by a task (R255, R262, R412): nothing for a static grid that holds a zero; a timed record goes to the
Tailor; the rest to the launch unit of the core's die. -/
def commitLaunch (s : State) (c i : Nat) (t : Strand) (x : Send) : State :=
  let w := fun (n : Nat) => (x.data[n]?).getD 0
  let cset := w 1
  if bits cset 27 27 = 1 then
    let j : TimedJob := { id := s.nextId, core := c, slot := i, chan := t.chan, ctx := t.ctx, asid := t.asid, pc := x.pc, host := false,
                          msgid := t.msgid, seq := t.seq, record := w 0, since := s.devtime, sup := t.supervisor }
    { s.fresh with timedJobs := s.timedJobs ++ [j] }
  else
    addLaunch s (dieOf c) (launchOf s ⟨c, t.ctx, t.asid, t.priv⟩ i t.chan x.pc t.seq t.msgid false t.supervisor (w 0) cset (w 2).toNat
      ((List.range 5).map (fun k => w (3 + k))))

/-- A buffered send committed: its message leaves and holds its send queue entry until it is delivered (R37; Table 14.8). -/
def commitSend (c i : Nat) (t : Strand) (s : State) (x : Send) : State :=
  let s := perf s c 0x17 1
  let n := x.dest.toNat
  let w := fun (k : Nat) => (x.data[k]?).getD 0
  let msg : Body := .message (nbits n 18 13) (payload x.data) false s.fabid.toNat c false none 0
  match x.form with
  | 0 =>
    if nbits n 19 19 = 1 then sendPacket s c (nbits n 12 0) x.net (some i) (.peer (nbits n 31 20) (nbits n 12 0) (nbits n 18 13) (payload x.data) 0 false c)
    else sendPacket s c (nbits n 12 0) x.net (some i) msg
  | 1 => sendPacket s c (nbits n 12 0) 0 (some i) msg
  | 2 => sendPacket s c (bits (w 0) 12 0) 0 (some i) (.put t.ctx (w 0) (w 1))
  | 3 => sendPacket s c (bits (w 1) 12 0) x.net (some i) (.rowRead t.ctx t.asid t.priv (w 0) (w 1) (w 2) [])
  | 4 => commitLaunch s c i t x
  | _ => s

/-! ## END and HALT (R34, R389, R401) -/

/-- Whether END waits no longer: ld and st are zero, and no reply or SFU result is to come to a register. -/
def endReady (s : State) : Bool :=
  s.me.cLd == 0 && s.me.cSt == 0 && !s.ops.any (fun o => o.task == s.me.task && (!o.regs.isEmpty || o.kind == .sfu))

/-- The tasks of a reservation's frame that a core still has to end: the messages in its receive store whose frame has begun, but for one,
and those posted and still in the network (R268). -/
def tasksLeft (s : State) (c rid seq : Nat) : Nat :=
  ((s.core c).rx.filter (fun m => (m.timing.map (·.rid)) == some rid && decide (m.heldTill ≤ s.devtime) && m.seq != seq)).length +
    (s.net.filter (fun p => p.dst == c && (match p.body with
      | .message _ _ _ _ _ _ (some x) _ => x.rid == rid
      | _ => false))).length

/-- Permits of a reservation that a core keeps no task for go back to the pool at END (R268). -/
def returnPermits (s : State) (c : Nat) (t : Strand) : State :=
  match resvOf s c t.chan with
  | none => s
  | some r =>
    if !t.timed then s
    else
      let left := tasksLeft s c r.rid t.seq
      let extra := ((s.core c).permits.filter (fun e => e.reserved == some r.rid)).map (fun e => e.count - r.permn * left)
      { s.onCore c (fun k => { k with permits := k.permits.map (fun e =>
          if e.reserved = some r.rid then { e with count := Nat.min e.count (r.permn * left) } else e) }) with
        resvs := s.resvs.map (fun y => if y.rid = r.rid then { y with pool := y.pool + extra.sum } else y) }

/-- The task of the running strand ended: its END published where it is a publisher, its sends committed in program order, its
message removed, its streams freed, its ports detached, its slot free (R34, R72, R389). -/
def finishTask (len : Nat) (i : Instr) (s : State) : State :=
  let t := s.me
  let c := s.cur.1
  let s := if t.pub then
      endPublication (publish s t.ichan { instr := i, pc := t.pc.toNat, len := len, taken := false,
                                          next := (t.pc + BitVec.ofNat 48 len).toNat, fmt := t.fmt, ereg := t.ereg, pos := t.issued })
        t.task 0 t.pc.toNat
    else s
  let s := t.sends.foldl (commitSend c s.cur.2 t) s
  let s := lateFaults (freeStreams s c t) c s.cur.2 t
  let s := returnPermits (detachPorts (dropWaits s t.task) t.task) c t
  let s := match t.timing with
    | some x => if !x.lapsed ∧ s.devtime ≤ x.frameEnd then perf s c 0x0B 1 else s
    | none => s
  freeSlot (s.onCore c (fun k => { k with rx := k.rx.filter (fun m => !(m.chan == t.chan && m.seq == t.seq)) })) c s.cur.2

/-- END: the oldest deferred fault of the accesses that it waits for is raised at it; it waits; the task ends; then `k`. -/
def ending (len : Nat) (i : Instr) (k : State → State) (s : State) : Res :=
  match oldestFault (s.me.faults.filter (fun d => d.ctr == some .ld || d.ctr == some .st || d.ctr.isNone)) with
  | some d => .trap s d.cause d.sub d.tval
  | none => if endReady s then .gone (k (finishTask len i s)) else .stall s .retry

/-- END (R389). -/
def execEndTask (s : State) : Host.Outcome State Fault Refusal := finish 4 (ending 4 .endTask id s)

/-- Compact opcode 24: END (R91). -/
def execCompactEnd (s : State) : Host.Outcome State Fault Refusal := finish 2 (ending 2 .compactEnd id s)

/-- COREID (R79). -/
def coreIdWord (s : State) (c : Nat) : Word := word (s.fabid.toNat * 2 ^ 52 + c % 8192)

/-- HALT (R401): not in a lockstep group, nor on a core with a reservation; it ends its task, and the core is halted. -/
def execHalt (s : State) : Host.Outcome State Fault Refusal :=
  finish 4 (privOnly .halt (notNested (fun s =>
    if s.myCore.rsv ≠ 0 then .trap s .bound 0 (coreIdWord s s.cur.1)
    else ending 4 .halt (fun s => s.onCore s.cur.1 (fun k => { k with halted := true })) s)) s)

/-! ## IDLE (R405) -/

/-- IDLE: it blocks until an arrival in the receive store since it issued, or its limit. -/
def execIdle (d a : BitVec 5) (x y : Bool) (s : State) : Host.Outcome State Fault Refusal :=
  finish 4 (guard [rdS s.me a y, wrS s.me d x] (notNested (fun s =>
    let limit := (s.me.rs a y).toNat
    let late := limit ≠ 0 ∧ limit ≤ s.devtime
    let from' := match s.me.wait with | .idle seq _ => seq | _ => s.myCore.nextSeq
    if from' < s.myCore.nextSeq then .ok (s.onMe (fun t => t.ws d x 1))
    else if late then .ok (s.onMe (fun t => t.ws d x 0))
    else .block s (.idle from' limit))) s)

/-- IDLE_TIME_LIMIT: DEVTIME has reached the limit of the IDLE in slot `b` of core `a`, which goes on (R405). -/
def execIdleTimeLimit (s : State) : Host.Outcome State Fault Refusal :=
  let t := s.slot s.subj.a s.subj.b
  match t.wait with
  | .idle _ limit =>
    if t.st = .blocked ∧ limit ≠ 0 ∧ limit ≤ s.devtime then event (s.setSlot s.subj.a s.subj.b { t with st := .ready }) else event s
  | _ => event s

/-! ## Aborts and the end of a context (R27, R289, R290) -/

/-- A trap taken by a strand that does not run now (R38). -/
def trapAt (s : State) (c i : Nat) (cause : Cause) (code sub : Nat) (tval : Word) : State :=
  { takeTrap { s with cur := (c, i) } cause code sub tval with cur := s.cur, last := s.last }

/-- A PREEMPT's outcome for its issuer (R287). -/
def answerPreempt (s : State) (t : Strand) (v : Nat) : State := match t.preempt with | some id => answerOp s id [v] | none => s

/-- A strand aborted without a report: what it holds elsewhere ends as at a trap, an image being made is free again, and late faults that
no WAIT raised are reported; its message stays at the head of its queue (R25, R27, R275, R281). -/
def abortStrand (s : State) (c i : Nat) : State :=
  let t := s.slot c i
  let s := endPublication (dropWaits (freeStreams (dropSave s t) c t) t.task) t.task 2 t.pc.toNat
  let s := lateFaults (freeSlot (detachPorts (answerPreempt s t 0) t.task) c i) c i t
  s.onCore c (fun k => returnMsg k t.chan t.seq)

/-- The strands of a context. -/
def strandsOf (s : State) (x : Nat) : List (Nat × Nat) :=
  s.cores.flatMap (fun p => ((List.range 4).filter (fun i => (p.2.slot i).st != .free && (p.2.slot i).ctx == x)).map (fun i => (p.1, i)))

/-- What a core holds for a context ends: its entries, their messages, its regions, mailbox and permits (R27, R246). -/
def leaveCore (x : Nat) (k : Core) : Core :=
  { k with
    rx := k.rx.filter (fun m => entBits (k.entry m.chan) 76 64 != x)
    handlers := k.handlers.map (fun e => (e.1, if entBits e.2 76 64 = x then e.2 &&& ~~~(1 : BitVec 128) else e.2))
    spregs := mapDel k.spregs x
    away := k.away.filter (· != x)
    permits := k.permits.filter (fun e => e.ctx != x)
    mbox := if k.mbox.owner = some x then {} else k.mbox }

/-- What a cluster holds for a context ends: its slots, accumulators and maps, and the pin that it set (R27, R312). -/
def leaveCluster (x : Nat) (g : Cluster) : Cluster :=
  { g with
    slotOwner := g.slotOwner.filter (fun p => p.2 != x)
    accOwner := g.accOwner.filter (fun p => p.2 != x)
    maps := g.maps.filter (fun p => p.1 / 32 != x)
    pin := match g.pin with | some (_, y) => if y = x then none else g.pin | none => none
    reloads := g.reloads.filter (fun p => p.1 != x) }

/-- What a die holds for a context ends: its launches, ingest profiles and messages (R314, R324, R415). -/
def leaveDie (x : Nat) (d : Die) : Die :=
  { d with
    launches := d.launches.filter (fun l => l.ctx != x)
    profiles := d.profiles.filter (fun p => p.2.owner != x)
    ingest := d.ingest.filter (fun m => m.ctx != x) }

/-- The permits of a context returned at their homes (R27). -/
def returnAllPermits (s : State) (x : Nat) : State :=
  let s := (s.permRecs.filter (fun r => r.ctx == x && r.rid.isNone)).foldl (fun s r =>
    let d := descAt s r.line
    putDesc s r.line d.head d.count (d.granted - r.count)) s
  { s with permRecs := s.permRecs.filter (fun r => !(r.ctx == x && r.rid.isNone)) }

/-- The steps of a context's destruction (R27): strands aborted, saved tasks discarded, reservations ended, all that it holds in cores, clusters and dies,
its permits, groups, channels and outstanding reports (R467). -/
def endContext (s : State) (x : Nat) : State :=
  let s := (strandsOf s x).foldl (fun s p => abortStrand s p.1 p.2) s
  let s := s.cores.foldl (fun s p => (p.2.rx.filter (fun m => entBits (p.2.entry m.chan) 76 64 == x)).foldl (discardSaved p.1) s) s
  let s := (s.resvs.filter (fun r => r.ctx == x)).foldl killResv s
  let s := returnAllPermits s x
  let launches := (s.dies.flatMap (fun p => p.2.launches.filter (fun l => l.ctx == x))).map (·.id)
  { s with
    monitors := s.monitors.filter (fun m => !launches.contains m.op)
    cores := s.cores.map (fun p => (p.1, leaveCore x p.2))
    clusters := s.clusters.map (fun p => (p.1, leaveCluster x p.2))
    dies := s.dies.map (fun p => (p.1, leaveDie x p.2))
    groups := s.groups.filter (fun p => p.1 / 4096 != x)
    chans := s.chans.filter (fun p => !(p.2.st != .free && p.2.owner == x))
    timedJobs := s.timedJobs.filter (fun j => j.ctx != x)
    reports := s.reports.filter (fun r => r.ctx != x)
    ctxs := mapSet s.ctxs x { s.ctx x with images := [] } }

/-- The key of a byte of a context's record. -/
def recordKey (s : State) (x off : Nat) : Nat := s.ctxtable.toNat % 2 ^ 40 + 64 * x + off

/-- STATE of a context's record written. -/
def setCtxState (s : State) (x v : Nat) : State :=
  let k := recordKey s x 17
  applyWrite s k 1 ((readByte s k).toNat / 4 * 4 + v) 1

/-- A report that concerns a whole context, with the channels that it suspends; DEADLINE apart, it is outstanding (R277, R467). -/
def wideReport (s : State) (x : Nat) (cause : Cause) (tval : Word) (channels : List (Nat × Nat)) : State :=
  let id := word (x * 2 ^ 21 + 2 ^ 34)
  let s := { s with reports := s.reports ++ [{ id := id, kind := .wide, core := 0, chan := 0, seq := 0, ctx := x,
                                               channels := channels }] }
  postReport s x deviceSrc false (reportWords 0 (causeWord true 0 (causeCode cause)) 0 tval id s.devtime 0)

/-- A context fenced (R290). -/
def fence (s : State) (x : Nat) : State := wideReport (endContext (setCtxState s x 2) x) x .fenced (word x) []

/-- A task aborted by an uncorrectable error (R289): with REPLAY its message runs again, until the third such abort; otherwise its
context is fenced. The message is named by its channel and arrival number. -/
def replayOrFence (s : State) (c ch seq x : Nat) : State :=
  match (s.core c).rx.find? (fun m => m.chan == ch && m.seq == seq) with
  | some m =>
    if entBits ((s.core c).entry ch) 90 90 = 1 ∧ m.aborts + 1 < 3 then
      (discardSaved c s m).onCore c (fun k => onMsg k ch seq (fun m =>
        { m with aborts := m.aborts + 1, running := false, image := none, mig := none, kept := none, bound := [] }))
    else fence s x
  | none => fence s x

/-- The bits of an ASID record, its reserved ones zero (R4, Table 7.7). -/
def asidRecord (v : Nat) : BitVec 256 :=
  BitVec.ofNat 256 (nbits v 39 0 + nbits v 91 52 * 2 ^ 52 + nbits v 107 104 * 2 ^ 104 + nbits v 207 112 * 2 ^ 112)

/-- Whether an event is the host driver's doing (`b` 0), or that of a privileged strand, slot `c` mod 4 of core `c` / 4 (R27). -/
def byPrivileged (s : State) : Bool :=
  s.subj.b == 0 || (let t := s.slot (s.subj.c / 4) (s.subj.c % 4); t.st != .free && t.priv)

/-- An ASID record written: its reserved bits stay zero, and PHWM never falls (R4, R153, Table 7.7). -/
def writeAsid (s : State) (a : Nat) (v : BitVec 256) : State :=
  let v := v.toNat
  let old := s.asid a
  let phwm := Nat.max (nbits old 159 112) (nbits v 159 112)
  { s with asids := mapSet s.asids a (asidRecord (v - nbits v 159 112 * 2 ^ 112 + phwm * 2 ^ 112)) }

/-- Whether a context other than one, created and not destroyed, uses an ASID (R26). -/
def asidLive (s : State) (a x : Nat) : Bool :=
  s.ctxs.any (fun p => p.1 != x && ctxAsid s p.1 == a && nbits (ctxRecord s p.1) 137 136 != 0)

/-- CONTEXT_CREATE: the host driver, or a privileged strand, creates context `a` with the record in `d` bits [511:0] and the ASID record
in bits [767:512]; PHWM of an ASID that another context uses does not fall (R27, R153, R276, Table 7.7). -/
def execContextCreate (s : State) : Host.Outcome State Fault Refusal :=
  let x := s.subj.a % 8192
  let rec' := s.subj.d.toNat % 2 ^ 512
  let a := nbits rec' 12 0
  let v := s.subj.d.toNat / 2 ^ 512
  let s' := applyWrite s (recordKey s x 0) 64 rec' (2 ^ 64 - 1)
  if !byPrivileged s then event s
  else
    let s' := if asidLive s a x then writeAsid s' a (BitVec.ofNat 256 v) else { s' with asids := mapSet s'.asids a (asidRecord v) }
    event { s' with ctxs := mapSet s'.ctxs x {} }

/-- CONTEXT_DESTROY: context `a` is destroyed, by the host driver or a privileged strand (R27). -/
def execContextDestroy (s : State) : Host.Outcome State Fault Refusal :=
  let x := s.subj.a % 8192
  if !byPrivileged s then event s else event (setCtxState (endContext s x) x 0)

/-! ## Starting a task (R34, R36, R42) -/

/-- The scalar, vector and mask allotments of an entry (Table 2.2). -/
def allotment (e : BitVec 128) : Nat × Nat × Nat :=
  (16 * (entBits e 85 84 + 1), 8 * (entBits e 87 86 + 1), if entBits e 88 88 = 1 then 8 else 4)

/-- A strand as a task's start makes it: STARTING for at most 8 core cycles (R34, Table 2.1); reserved bits of DEFFMT read zero (R4,
Table 4.6). STATUS.LEVEL shows from then on the level at which its message was selected, aged or not, though the channel's ageing starts
again: the model's choice (log 98). F starts at 0, for a task of a launch at the read instant of the launch's acquire (R163,
R256, log 100). -/
def newStrand (s : State) (c level : Nat) (m : Msg) : Strand :=
  let e := (s.core c).entry m.chan
  let x := entBits e 76 64
  let r := ctxRecord s x
  let (nS, nV, nK) := allotment e
  { st := .starting, startLeft := 1 + Config.startCycles s.tick % 8, task := s.nextId, ctx := x, asid := nbits r 12 0, chan := m.chan, seq := m.seq,
    pc := BitVec.ofNat 48 (2 * entBits e 47 1), win := m.pay, fmt := BitVec.ofNat 27 (nbits r 90 64) &&& 0x7FF01F3, msgid := m.msgid,
    budget := BitVec.ofNat 32 (entBits e 127 96), unb := entBits e 127 96 == 2 ^ 32 - 1, timed := level == 7, fromTimed := entBits e 91 91 == 1, level := level,
    priv := nbits r 135 135 == 1, nS := nS, nV := nV, nK := nK, timing := if level = 7 then m.timing else none,
    started := s.devtime, supervisor := m.report, flr := m.flr,
    cause := if m.report then m.pay[1] else 0, epc := if m.report then m.pay[2] &&& ~~~1 else 0, tval := if m.report then m.pay[3] else 0 }

/-- A strand put into a slot of its core, the latest of all to have entered one: its message runs, its channel's ageing starts again, its
die is touched, and maps of its context come back (R35, R41, R243, R257, R292). -/
def enterSlot (s : State) (c i : Nat) (t : Strand) : State :=
  let no := s.nextId
  let s := s.fresh.onCore c (fun k =>
    let k := onMsg k t.chan t.seq (fun m => { m with running := true, image := none, mig := none, task := t.task, kept := none })
    { k with ages := mapDel k.ages t.chan })
  mapsReturn (touchDie (s.setSlot c i { t with startNo := no }) t.ctx (dieOf c)) (clusterOf c) t.ctx

/-- TASK_START: core `a` starts the task of the message that selection chooses; an entry whose BUDGET is 0 gives a task that traps
at once (R34, R36, R42). -/
def execTaskStart (s : State) : Host.Outcome State Fault Refusal :=
  let c := s.subj.a
  match choose s c with
  | none => event s
  | some (i, level, m) =>
    if m.image.isSome || m.mig.isSome then event s
    else
      let t := newStrand s c level m
      let s := perf (enterSlot s.fresh c i t) c 0x06 1
      event (if t.budget = 0 then trapAt s c i .budget (causeCode .budget) 0 0 else s)

/-! ## Resume (R285, R286) -/

/-- The pointer of a context's save image (R282). -/
def imagePtr (s : State) (x n : Nat) : Word := ptrAdd (word (4 * 2 ^ 60 + nbits (ctxRecord s x) 239 192)) (16384 * n)

/-- Bytes of a scratchpad zeroed from a key on; units that were poisoned are written whole. -/
def zeroRange (s : State) (k n : Nat) : State :=
  { s with
    mem := s.mem.filter (fun p => !(decide (k ≤ p.1) && decide (p.1 < k + n)))
    poison := s.poison.filter (fun p => !(decide (k ≤ p) && decide (p < k + n))) }

/-- The KiB of a context's discard regions that no keep region of it holds too (R84, R285). -/
def discardKibs (l : List Word) : List Nat :=
  (List.range 256).filter (fun kib =>
    l.any (fun w => bits w 30 30 == 0 && regionHas w kib) && !l.any (fun w => bits w 30 30 == 1 && regionHas w kib))

/-- The discard regions of a context on a core zeroed, but for bytes that a keep region holds too (R84, R285). -/
def zeroDiscards (s : State) (c x : Nat) : State :=
  (discardKibs (mapGet [] (s.core c).spregs x)).foldl (fun s kib => zeroRange s (spKey c (1024 * kib)) 1024) s

/-- The publication that a saved publisher comes back to (R69). -/
def relinkPublication (s : State) (c i : Nat) (t : Strand) : State :=
  match s.chans.find? (fun p => match p.2.pub with | some (_, _, n) => n == t.task | none => false) with
  | none => s
  | some (ch, x) =>
    (s.onChan ch (fun x => { x with pub := some (c, i, t.task) })).setSlot c i
      { s.slot c i with pub := true, ichan := ch, issued := if x.early then x.published - 1 else x.published }

/-- The port of a task that waited in RESUB re-attached to its channel while that is PUBLISHED, as SUBSCRIBE attaches one; where its core
has a port on the channel already, or a die link has no tree left, it stays without, and its RESUB traps with NOPUB (R51, R63, R69, log
41). Its cluster takes the channel's lock (R56). -/
def reattach (s : State) (c i : Nat) (t : Strand) (ch : Nat) : State :=
  let x := s.chan ch
  if x.st = .published ∧ x.owner = t.ctx ∧ !x.ports.any (fun p => p.core == c) ∧ !crossFull s ch c then
    startLocks
      ((s.onChan ch (fun x => { x with ports := x.ports ++ [{ core := c, slot := i, task := t.task, registered := true, uns := true }] })).setSlot
        c i { s.slot c i with uns := true, ichan := ch }) ch
  else s

/-- The lowest network whose send queue of a strand has no room for some sends. -/
def sendsFit (s : State) (c i : Nat) (l : List Send) : Option Nat :=
  (List.range 3).find? (fun n => sendsOn l n != 0 && decide (32 < sendUsed s c i n + sendsOn l n))

/-- A strand's sends back in its send queues, or its trap with SQFULL (R286, R435). -/
def enterSends (s : State) (c i : Nat) (l : List Send) : State :=
  match sendsFit s c i l with
  | some n => trapAt s c i .sqfull (causeCode .sqfull) 0 (word n)
  | none => s.setSlot c i { s.slot c i with sends := l }

/-- The messages whose bytes a resumed strand's KIND 3 streams hold: those staged and still in the receive store. -/
def stagedMsgs (k : Core) (q : Stream) : Stream :=
  if q.kind = 3 then
    { q with msgs := (k.rx.filter (fun m => m.chan == q.source.toNat && m.running && m.task == 0)).map (·.seq) }
  else q

/-- A saved task as it enters a slot again: what its image does not hold is as it was when it was saved, its context, ASID, allotment,
privilege, report registers and arrived faults among it; its window is loaded again, and it waits for nothing (R30, R80, R82, R83, R158,
R282). -/
def keptStrand (s : State) (c level : Nat) (m : Msg) : Strand :=
  let t := newStrand s c level m
  match m.kept with
  | none => t
  | some k => { k with st := .starting, startLeft := t.startLeft, win := t.win, level := level, timed := false, started := t.started,
                       capped := none, entering := false, pub := false, sub := false, uns := false, wait := .nothing, walk := none,
                       walkFail := none, trap := none, saveTo := none, savePos := 0, preempt := none, timing := none, issued := 0,
                       walked := 0, cfgFrom := none }

/-- A task restored into a slot from the bytes of its image (R285, R286). -/
def restore (s : State) (c i level : Nat) (m : Msg) (l : List Byte) : State :=
  let t := imageStrand l (keptStrand s c level m)
  let t := { t with task := m.task, seq := m.seq, flr := s.devtime,
                    strm := t.strm.map (stagedMsgs (s.core c)) }
  let away := (s.core c).away.contains t.ctx
  let s := if away then (zeroDiscards s c t.ctx).onCore c (fun k => { k with away := k.away.filter (· != t.ctx) }) else s
  let s := relinkPublication (enterSlot s c i { t with spdisc := t.spdisc || away, sends := [] }) c i t
  let s := if m.resub then reattach s c i t m.ichan else s
  if nbits (imgNat l 54 1) 2 2 = 1 then trapAt s c i .suberr (causeCode .suberr) 0 (suberr m.ichan 8)
  else enterSends s c i t.sends

/-- TASK_RESUME: core `a` resumes the pre-empted or stopped task that selection chooses, once the banks can serve its image; an image that
cannot be read aborts it (R140, R146, R286, R289). -/
def execTaskResume (s : State) : Host.Outcome State Fault Refusal :=
  let c := s.subj.a
  match choose s c with
  | none => event s
  | some (i, level, m) =>
    match m.image with
    | none => event s
    | some n =>
      let x := match m.kept with | some k => k.ctx | none => entBits ((s.core c).entry m.chan) 76 64
      let a := ctxActor s c x
      let p := imagePtr s x n
      match hardSegs s a 1 p 16384 with
      | (s, .error _) => event (replayOrFence s c m.chan m.seq x)
      | (s, .ok segs) =>
        if !segsFree s segs then event s
        else
        match readSegs s a p segs with
        | (s, .error _) => event (replayOrFence s c m.chan m.seq x)
        | (s, .ok l) => event (restore (s.onCtx x (fun k => { k with images := k.images.filter (· != n) })) c i level m l)

/-! ## Arrival by migration (R44, R436) -/

/-- MIGRATION_ARRIVAL: core `a` chooses a migration message: the task goes on there, its sends still to enter the send queues, or is aborted where the
entry belongs to another context, with a report that suspends no channel (R44, R435, R436, R467). -/
def execMigrationArrival (s : State) : Host.Outcome State Fault Refusal :=
  let c := s.subj.a
  match choose s c with
  | none => event s
  | some (i, level, m) =>
    match m.mig with
    | none => event s
    | some t =>
      if entBits ((s.core c).entry m.chan) 76 64 ≠ t.ctx then
        let s := s.onCore c (fun k => { k with rx := k.rx.filter (fun y => !(y.chan == m.chan && y.seq == m.seq)) })
        let s := { s with reports := s.reports ++ [{ id := reportId c i m.chan t.ctx, kind := .trap, core := c, chan := m.chan, seq := m.seq,
                                                     ctx := t.ctx, channels := [] }] }
        event (postReport s t.ctx c t.supervisor
          (reportWords t.msgid (causeWord false 0 (causeCode .priv)) (word t.pc.toNat) t.migWord (reportId c i m.chan t.ctx) s.devtime
            m.seq))
      else
        let t' := { t with st := .starting, startLeft := 1 + Config.startCycles s.tick % 8, chan := m.chan, seq := m.seq, level := level,
                           timed := false, timing := none, started := s.devtime, entering := true }
        event (enterSlot s c i t')

/-! ## Pre-emption and saving (R41, R42, R260, R282-R287) -/

/-- A strand pre-empted by a capped budget or by PREEMPT: it begins to be saved; with no image free it ends as a trap BUDGET with subcode 1
instead, whose report PREEMPT learns of (R42, R282, R287). -/
def preemptSlot (s : State) (c i : Nat) (why : SaveWhy) : State :=
  match beginSave s c i why with
  | some s => s
  | none =>
    let p := (s.slot c i).preempt
    let s := trapAt (s.setSlot c i { s.slot c i with preempt := none }) c i .budget (causeCode .budget) 1 0
    s.setSlot c i { s.slot c i with preempt := p }

/-- PREEMPTION_BY_ARRIVAL: core `a` pre-empts the blocked strand that an arrival outranks, where its context has a free image (R41,
R282). -/
def execPreemptionByArrival (s : State) : Host.Outcome State Fault Refusal :=
  match arrivalVictim s s.subj.a with
  | none => event s
  | some i =>
    event ((beginSave s s.subj.a i .preempt).getD s)

/-- BUDGET_EXPIRY: BUDGETLEFT of slot `b` of core `a` is zero: a capped task is pre-empted, another traps with BUDGET (R42, R282). -/
def execBudgetExpiry (s : State) : Host.Outcome State Fault Refusal :=
  let c := s.subj.a
  let i := s.subj.b
  let t := s.slot c i
  if !budgetDue t then event s
  else if t.capped.isSome then event (preemptSlot s c i .capped)
  else event (trapAt s c i .budget (causeCode .budget) 0 0)

/-- Whether an untimed strand in a slot is capped at a frame's end: it was there before the frame began (R260). -/
def capDue (s : State) (t : Strand) : Bool := cappable t && decide (t.started < s.devtime / 10000 * 10000)

/-- Whether a frame of a core with reserved slots has ended and its untimed strands are still to be capped (R260). -/
def capFrameDue (s : State) (k : Core) : Bool := k.rsv != 0 && decide (k.capFrame < s.devtime / 10000)

/-- UNTIMED_CAP_EXPIRY: a frame of a core `a` with reserved slots has ended: its untimed strands are capped (R260). -/
def execUntimedCapExpiry (s : State) : Host.Outcome State Fault Refusal :=
  let c := s.subj.a
  let k := s.core c
  if capFrameDue s k then
    let n := (k.slots.toList.filter (capDue s)).length
    event (perf (s.onCore c (fun k => { k with
      capFrame := s.devtime / 10000
      slots := k.slots.map (fun t => if capDue s t then t.cap else t) })) c 0x09 n)
  else event s

/-- Whether an operation of a strand leaves its capture waiting (R163, R197, R273): a pop or steal until it is answered, a QPOP.w that waits
at its home apart, which is withdrawn; an SFU result. A save overtakes any other short stall, and its instruction restarts whole (R39). -/
def holdsSave (o : Op) : Bool :=
  match o.kind with
  | .qpop _ true _ _ => !((o.phase == 2 || o.phase == 3) && o.answer.isNone) && (opFault o).isNone
  | .sfu => o.answer.isNone
  | .qpop _ false _ _ | .qsteal _ => true
  | _ => false

/-- Whether a strand is captured now (R163, R197, R213, R273): its counters are zero, H is past, no operation of it holds it, and no tile
entry of it is queued. -/
def saveReady (s : State) (t : Strand) : Bool :=
  t.cLd == 0 && t.cSt == 0 && t.cCp == 0 && t.cTl == 0 && decide (t.hor ≤ s.devtime) &&
    s.ops.all (fun o => o.task != t.task || !holdsSave o) &&
    !s.clusters.any (fun p => p.2.tileq.any (fun e => e.task == t.task))

/-- The QPOP.w of a strand that its home has answered, with the values (R197). -/
def poppedBy (s : State) (t : Strand) : Option (Op × List Nat) :=
  (s.ops.find? (fun o => o.task == t.task && o.pend && (match o.kind with | .qpop _ true _ _ => o.answer.isSome | _ => false) &&
    (opFault o).isNone)).bind (fun o => o.answer.map (fun l => (o, l)))

/-- The QPOP.w of a strand that is being saved completes before the save, its element taken (R197); a publisher's goes on in its stream. -/
def finishPop (s : State) (c i : Nat) (o : Op) (vals : List Nat) : State :=
  let t := s.slot c i
  let s := queueReply (dropOp s o.id) o
  let s := if t.pub then s.onChan t.ichan (fun x => { x with early := false }) else s
  s.setSlot c i { (s.slot c i).popInto o vals with
    pc := t.pc + 4, wait := .nothing, issued := if t.pub || t.sub then t.issued + 1 else t.issued }

/-- What a stop by BRK or WATCH reports: cause, EPC, TVAL and the instant at which it was raised (R277). -/
def stopCause (why : SaveWhy) : Option (Cause × Nat × Word × Nat) :=
  match why with
  | .brk code epc time => some (.brk, epc, word code, time)
  | .watch p epc time => some (.watch, epc, p, time)
  | _ => none

/-- The module after a strand's context has left its core, and its cluster where the save is a pre-emption (R243, R285). -/
def afterLeaving (s : State) (c x : Nat) (preempted : Bool) : State :=
  let here := fun (k : Core) => k.slots.toList.any (fun t => t.st != .free && t.ctx == x)
  let s := if here (s.core c) then s else s.onCore c (fun k => { k with away := x :: k.away.filter (· != x) })
  let g := clusterOf c
  if preempted ∧ !(List.range 16).any (fun j => here (s.core (16 * g + j))) then mapsLeave s c g x else s

/-- A strand whose image `n` has been written: its message keeps the image, its port is detached, its slot is free (R69, R282-R285,
R367); a stop suspends its channel and is reported, and a PREEMPT learns that it was saved. -/
def saved (s : State) (c i n : Nat) : State :=
  let t := s.slot c i
  let stop := stopCause t.why
  let s := countLapse s c t
  let s := s.onCore c (fun k => onMsg k t.chan t.seq (fun m => { m with
    running := false, image := some n, task := t.task, slot := i, ichan := t.ichan,
    resub := t.uns && (match t.wait with | .marker _ _ => true | _ => false), bound := boundChannels t, stopped := stop.isSome,
    kept := some t, demoted := m.demoted || t.timed, timing := if t.timed then none else m.timing }))
  let s := afterLeaving (freeSlot (answerPreempt (detachPorts s t.task) t 1) c i) c t.ctx stop.isNone
  match stop with
  | none => perf s c 0x07 1
  | some (cause, epc, tval, time) =>
    let id := reportId c i t.chan t.ctx
    let s := s.onCore c (fun k => { k with suspended := t.chan :: k.suspended.filter (· != t.chan) })
    let s := { s with reports := s.reports ++ [{ id := id, kind := .stop, core := c, chan := t.chan, seq := t.seq, ctx := t.ctx,
                                                 channels := [(c, t.chan)] }] }
    postReport s t.ctx c t.supervisor
      (reportWords t.msgid (causeWord false 0 (causeCode cause)) (word epc) tval id time t.seq)

/-- Whether an operation has its answer or a fault. -/
def isOver (o : Op) : Bool := o.answer.isSome || (opFault o).isSome

/-- What a strand waits for as it is captured is withdrawn: its instruction restarts whole (R39, R40, R186, R197). -/
def withdrawWaits (s : State) (task : Nat) : State :=
  dropWaits { s with ops := s.ops.filter (fun o => !(o.task == task && o.pend && !withdrawn o && isOver o)) } task

/-- The next line of a strand's image written once its bank can serve it, one remote request of the context's own; after the last the strand
is saved, and a fault aborts it and fences its context (R146, R156, R282). -/
def saveLine (s₀ : State) (c i n : Nat) : State :=
  let t := s₀.slot c i
  let s := perf s₀ c 0x13 1
  let a := ctxActor s c t.ctx
  let p := ptrAdd (imagePtr s t.ctx n) t.savePos
  let line := ((imageBytes t i t.sub (stopCause t.why).isSome).drop t.savePos).take 64
  match hardSegs s a 2 p 64 with
  | (s, .error _) => fence (abortStrand s c i) t.ctx
  | (s, .ok segs) =>
    if !segsFree s segs then s₀
    else
    match writeRange s a p line segs with
    | (s, .error _) => fence (abortStrand s c i) t.ctx
    | (s, .ok _) =>
      if t.savePos + 64 < 16384 then s.setSlot c i { s.slot c i with savePos := t.savePos + 64 } else saved s c i n

/-- Whether the save of a strand waits for the maps of its context: it is a pre-emption by which the context leaves the cluster, where queued
entries still name them, or the banks cannot serve their images yet (R146, R243, log 88). -/
def mapsHold (s : State) (c i : Nat) (t : Strand) : Bool :=
  let g := clusterOf c
  (stopCause t.why).isNone && (mapsBusy s g t.ctx || !mapsFree s c g t.ctx) &&
    !(List.range 16).any (fun j => (List.range 4).any (fun n =>
      (16 * g + j, n) != (c, i) && (s.slot (16 * g + j) n).st != .free && (s.slot (16 * g + j) n).ctx == t.ctx))

/-- TASK_SAVE: a step of the save of the strand in slot `b` of core `a`: a QPOP.w of it that has been answered completes; its waits made, it
is captured and what it waits for is withdrawn; then a line of its image is written at each step, while the core's remote requests are fewer
than 64 (R156, R163, R197, R282). -/
def execTaskSave (s : State) : Host.Outcome State Fault Refusal :=
  let c := s.subj.a
  let i := s.subj.b
  let t := s.slot c i
  match (if t.st = .saving then t.saveTo else none) with
  | none => event s
  | some n =>
    match poppedBy s t with
    | some (o, vals) => event (finishPop s c i o vals)
    | none =>
      if (t.savePos = 0 ∧ !saveReady s t) ∨ mapsHold s c i t ∨ 64 ≤ remoteCount s c then event s
      else event (saveLine (if t.savePos = 0 then withdrawWaits s t.task else s) c i n)

/-- TRAP_REPORT: the strand in slot `b` of core `a`, its tile operations and SFU results drained, is reported and its slot freed; a
timed message loses its run frame, and a PREEMPT that found no image for the strand learns that it was ended (R38, R213, R271, R273, R287). -/
def execTrapReport (s : State) : Host.Outcome State Fault Refusal :=
  let c := s.subj.a
  let i := s.subj.b
  let t := s.slot c i
  match t.trap with
  | none => event s
  | some tr =>
    if t.st ≠ .trapping ∨ s.clusters.any (fun p => p.2.tileq.any (fun e => e.task == t.task)) ∨
        s.ops.any (fun o => o.task == t.task && o.kind == .sfu && o.answer.isNone) then event s
    else
      let s := answerPreempt (reportTrap (perf s c 0x08 1) c i tr) t 2
      event (s.onCore c (fun k => onMsg k t.chan t.seq (fun m =>
        if t.timed then { m with demoted := true, timing := none } else m)))

/-! ## Waking and ageing (R40, R47, R257) -/

/-- Whether what a strand waits for has come about (R40). In an ENDING channel what is on its way to a port arrives first: a RESUB rejoins by
an RDV that is still in flight, and gets ENDED once nothing is (DESIGN CHOICE, log 98). -/
def waitOver (s : State) (c : Nat) (t : Strand) : Bool :=
  match t.wait with
  | .nothing | .retry | .before _ => true
  | .op id => match findOp s id with | some o => o.answer.isSome || (opFault o).isSome | none => true
  | .stream q need =>
    decide (need ≤ (t.q q).stage.length) || t.faults.any (fun d => some d.op == (t.q q).pop) || (t.q q).kind == 0
  | .barrier b ph => (mapGet {} (s.cluster (clusterOf c)).bars b).phase.toNat != ph
  | .channel =>
    match portOf (s.chan t.ichan) t.task with
    | some p => !s.ops.any (subscribing t.task) && (!p.buf.isEmpty || ((s.chan t.ichan).st == .ending && p.flight.isEmpty))
    | none => true
  | .marker _ seen =>
    seen || (match portOf (s.chan t.ichan) t.task with | some p => (s.chan t.ichan).st == .ending && p.flight.isEmpty | none => true)
  | .idle seq limit => decide (seq < (s.core c).nextSeq) || (limit != 0 && decide (limit ≤ s.devtime))
  | .puts token need =>
    !(s.core c).mbox.entries.any (fun e => e.st == 1 && e.token == token && decide (e.puts < need)) &&
      (need == 0 || (s.core c).mbox.owner != some t.ctx || (s.core c).mbox.entries.any (fun e => e.st == 1 && e.token == token))
  | .until n => decide (n ≤ s.devtime)

/-- WAKE_UP: what the blocked strand in slot `b` of core `a` waits for has come about, and it is READY (R40, R47). -/
def execWakeUp (s : State) : Host.Outcome State Fault Refusal :=
  let t := s.slot s.subj.a s.subj.b
  if t.st = .blocked ∧ waitOver s s.subj.a t then event (s.setSlot s.subj.a s.subj.b { t with st := .ready }) else event s

/-- The ageing step of a core in nanoseconds; 0 acts as 1 us (Table 13.1). -/
def ageStep (s : State) (c : Nat) : Nat := 1000 * Nat.max 1 (nbits (s.die (dieOf c)).tailorcfg.toNat 9 0)

/-- Whether a channel ages now: it is runnable, untimed, and not yet at level 6. -/
def ages (s : State) (c ch : Nat) : Bool :=
  match runnable s c ch with
  | none => false
  | some m => entBits ((s.core c).entry ch) 91 91 == 0 && decide (msgLevel (s.core c) m < 6)

/-- Whether a channel has been runnable for AGEUS and is to rise a level (R257). -/
def ageDue (s : State) (c ch : Nat) : Bool := ages s c ch && decide (ageStep s c ≤ (mapGet (0, 0) (s.core c).ages ch).2)

/-- AGEING_STEP: channel `b` of core `a` has been runnable for AGEUS and rises a level (R257). -/
def execAgeingStep (s : State) : Host.Outcome State Fault Refusal :=
  let c := s.subj.a
  let ch := s.subj.b
  let (n, since) := mapGet (0, 0) (s.core c).ages ch
  if ageDue s c ch then
    event (perf (s.onCore c (fun k => { k with ages := mapSet k.ages ch (n + 1, since - ageStep s c) })) c 0x0A 1)
  else event s

end Sys2Proof.Machine
end

