-- ==== Sys2Proof/Machine/Channel.lean ====
section
/-!
DEFINITION. Instruction channels: PUBLISH, UNPUBLISH, SUBSCRIBE, UNSUB, RESUB and RDV, and the steps by which a stream reaches its
ports (R48-R72, R452, R460, R466, R484, R503, R504).
-/

namespace Sys2Proof.Machine

open Sys2Proof

/-! ## Publishing -/

/-- A strand's FMT control fields and e0-e3 taken over from the stream, its flags its own (R58). -/
def carryInto (fmt : BitVec 27) (ereg : Vector (BitVec 32) 4) (t : Strand) : Strand := { t with fmt := carryFmt fmt t.fmt, ereg := ereg }

/-- A subscribed strand that joins a stream: the PC of its next stream instruction, which a save keeps (R69). A strand that is still in
its SUBSCRIBE takes it when that is done. -/
def nextStream (pc : Nat) (t : Strand) : Strand := if t.sub then { t with pc := BitVec.ofNat 48 pc } else t

/-- The strands of the ports of a channel changed. -/
def onPorts (s : State) (ps : List IPort) (f : Strand → Strand) : State :=
  ps.foldl (fun s p => if (s.slot p.core p.slot).task = p.task then s.setSlot p.core p.slot (f (s.slot p.core p.slot)) else s) s

/-- A channel becomes PUBLISHED by the running strand: the registered ports join at its first instruction (R50, R51, R58). -/
def startPublication (s : State) (c : Nat) : State :=
  let t := s.me
  let x := s.chan c
  let s := touchDie s t.ctx (c / 64)
  let s := s.onChan c (fun x => { x with
    st := .published, owner := t.ctx, pub := some (s.cur.1, s.cur.2, t.task), published := 0, early := false, ended := (0, 0)
    ports := x.ports.map (fun p => { p with
      joined := true, joinedAt := 0, nextPc := (t.pc + 4).toNat, issued := 0, reported := 0, flight := [], buf := [] }) })
  let s := { s with elects := s.elects.filter (fun e => e.chan != c) }
  let s := onPorts s x.ports (fun u => nextStream (t.pc + 4).toNat (carryInto t.fmt t.ereg u))
  startLocks (s.onMe (fun t => { t with pub := true, ichan := c, issued := 0 })) c

/-- PUBLISH (R50, R452). -/
def execPublish (c : BitVec 12) (s : State) : Host.Outcome State Fault Refusal :=
  finish 4 (
    let n := c.toNat % 256
    let x := s.chan n
    if s.me.pub ∧ s.me.ichan = n then .ok s
    else if s.me.sub then subTrap s n 4
    else if dieOf s.cur.1 ≠ n / 64 then subTrap s n 2
    else if x.st ≠ .free ∧ (x.owner ≠ s.me.ctx ∨ x.st ≠ .registered) then subTrap s n 1
    else if s.me.uns ∨ s.me.pub then subTrap s n 4
    else .ok (startPublication s n))

/-- What an instruction's end adds to a stream. -/
def streamItem (s : State) (i : Instr) (len : Nat) : Pub :=
  { instr := i, pc := s.me.pc.toNat, len := len, taken := false, next := (s.me.pc + BitVec.ofNat 48 len).toNat, fmt := s.me.fmt,
    ereg := s.me.ereg, pos := s.me.issued }

/-- The running strand without its port. -/
def leavePort (s : State) : State :=
  (detachPorts s s.me.task).onMe (fun t => { t with sub := false, uns := false })

/-- UNPUBLISH (R62, R503): the publisher's last published instruction; a subscriber's detach point; NOPUB elsewhere. -/
def execUnpublish (s : State) : Host.Outcome State Fault Refusal :=
  finish 4 (
    if s.me.pub then
      let s := publish s s.me.ichan (streamItem s .unpublish 4)
      .ok ((endPublication s s.me.task 1 s.me.pc.toNat).onMe (fun t => { t with pub := false }))
    else if s.me.sub then .ok (leavePort s)
    else subTrap s (if s.me.uns then s.me.ichan else 0) 9)

/-! ## Subscribing -/

/-- Why the home refuses a subscription: the code (R51, R484). -/
def subscribeRefused (s : State) (o : Op) (c : Nat) : Option Nat :=
  let x := s.chan c
  if x.st ≠ .free ∧ (x.owner ≠ o.ctx ∨ x.st = .ending) then some 1
  else if x.ports.any (fun p => p.core == o.core) then some 10
  else if crossFull s c o.core then some 3
  else none

/-- The strand of a port that the home has recorded: it is subscribed, and BLOCKED until its channel brings it an instruction (R40, R51,
R484). -/
def subscribed (c : Nat) (t : Strand) : Strand := { t with ichan := c, sub := true, st := .blocked, wait := .channel }

/-- The port of a SUBSCRIBE recorded at the home, or the refusal; the operation stays where the port has its count still to add. The
SUBSCRIBE of a strand that has trapped meanwhile comes to nothing (R51, R484). -/
def registerPort (s : State) (o : Op) (add : Bool) : State :=
  let c := o.ptr.toNat
  let t := s.slot o.core o.slot
  if t.task ≠ o.task ∨ (t.st ≠ .ready ∧ t.st ≠ .stalled) then dropOp s o.id
  else
    match subscribeRefused s o c with
    | some code => onOp s o.id (fun o => { o with fault := some (.suberr, 0, suberr c code) })
    | none =>
      let port : IPort := { core := o.core, slot := o.slot, task := o.task, registered := true }
      let s := (touchDie s o.ctx (c / 64)).onChan c (fun x => { x with
        st := if x.st = .free then .registered else x.st, owner := o.ctx, ports := x.ports ++ [port] })
      let s := onPorts s [port] (subscribed c)
      let s := if (s.chan c).st = .published then startLocks s c else s
      if add then onOp s o.id (fun o => { o with phase := 5, pend := false }) else dropOp s o.id

/-- The count that a recorded port adds, an atomic add of 1 with release at DEVICE scope: it waits for its translation, the queues and the
release; a fault traps the strand at its SUBSCRIBE (R51). -/
def addCount (s : State) (o : Op) : State :=
  let back := fun (u : State) => { u with cur := s.cur, last := s.last }
  match access .amo (loadLane ((o.args.head?).getD 0) 8) (fun ps s =>
      release .device (fun s =>
        let s := dropOp s o.id
        let n : Op := { myOp s (.amo .add 8 1) with ctr := some .ld, pieces := ps, pc := o.pc }
        .ok (enqueue (startOp s n) n.id ps 0)) s) { s with cur := (o.core, o.slot) } with
  | .trap u cause sub tval =>
    back (takeTrap ((dropOp u o.id).onMe (fun t => { t with pc := BitVec.ofNat 48 o.pc })) cause (causeCode cause) sub tval)
  | .ok u | .jump u _ | .stall u _ | .block u _ | .gone u => back u

/-- SUBSCRIPTION_REGISTRATION: the home records the port of SUBSCRIBE `a`, or refuses it; then the port adds its count (R51). -/
def execSubscriptionRegistration (s : State) : Host.Outcome State Fault Refusal :=
  match findOp s s.subj.a with
  | none => event s
  | some o =>
    match o.kind with
    | .subscribe add =>
      if o.fault.isSome then event s else if o.phase = 5 then event (addCount s o) else event (registerPort s o add)
    | _ => event s

/-- SUBSCRIBE (R51, R484): a short stall until its port is recorded, from when on it waits BLOCKED for the stream. -/
def execSubscribe (a : BitVec 5) (c : BitVec 12) (s : State) : Host.Outcome State Fault Refusal :=
  finish 4 (guard [rdS s.me a false] (fun s =>
    let n := c.toNat % 256
    match pending s with
    | some o =>
      match o.fault with
      | some (cause, sub, tval) => .trap (dropOp s o.id) cause sub tval
      | none => .stall s (.op o.id)
    | none =>
      if s.me.pub ∨ s.me.sub ∨ s.me.uns then subTrap s n 4
      else
        .stall (startOp s { myOp s (.subscribe (decide (a ≠ 0))) with pend := true, ptr := word n, args := [s.me.rs a false] })
          (.op s.nextId)) s)

/-- The running subscriber detached as UNSUB detaches it: it discards its stream instructions and watches for markers (R62, R504). -/
def unsubscribe (s : State) : State :=
  (onPort s s.me.ichan s.me.task (fun p => { p with uns := true, joined := false, buf := [] })).onMe (fun t =>
    { t with sub := false, uns := true })

/-- UNSUB (R504). -/
def execUnsub (s : State) : Host.Outcome State Fault Refusal := finish 4 (.ok (if s.me.sub then unsubscribe s else s))

/-- UNSUB.nz (R504). -/
def execUnsubNz (a : BitVec 5) (s : State) : Host.Outcome State Fault Refusal :=
  finish 4 (guard [rdS s.me a false] (fun s => .ok (if s.me.sub ∧ s.me.rs a false ≠ 0 then unsubscribe s else s)) s)

/-- RESUB (R63, R466). -/
def execResub (c : BitVec 8) (r : BitVec 10) (s : State) : Host.Outcome State Fault Refusal :=
  finish 4 (
    let n := c.toNat
    if (s.me.pub ∨ s.me.sub) ∧ s.me.ichan = n then .ok s
    else if s.me.sub then subTrap s n 4
    else if s.me.uns ∧ s.me.ichan = n then
      if (s.chan n).st = .published then .block s (.marker r.toNat false)
      else match s.me.wait with | .marker _ _ => subTrap s n 11 | _ => subTrap s n 9
    else match s.me.wait with | .marker _ _ => subTrap s n 11 | _ => subTrap s n 9)

/-- RDV (R63, R460): the publisher's marker; elsewhere a no operation. -/
def execRdv (_r : BitVec 12) (s : State) : Host.Outcome State Fault Refusal := finish 4 (.ok s)

/-! ## The stream at a port (R53, R55, R62, R63, R68, R72) -/

/-- A port that joins the stream after an item (R51, R63). -/
def joinAfter (p : Pub) (q : IPort) : IPort :=
  { q with joined := true, joinedAt := p.pos + 1, nextPc := p.next, uns := false, buf := [], issued := p.pos + 1, reported := p.pos + 1 }

/-- An item reaches a port that is in the stream: it is buffered, and a strand that waits for it is READY (Table 2.1). -/
def arriveJoined (s : State) (c : Nat) (q : IPort) (p : Pub) : State :=
  let s := onPort s c q.task (fun q => { q with buf := q.buf ++ [p] })
  onPorts s [q] (fun t => if t.st = .blocked ∧ t.wait = .channel ∧ waitOver s q.core t then { t with st := .ready } else t)

/-- An item reaches the port of an unsubscribed strand, which only watches for markers and for UNPUBLISH (R62, R63, R503). -/
def arriveWatching (s : State) (c : Nat) (q : IPort) (p : Pub) : State :=
  match markerOf p.instr with
  | some r =>
    if awaitsMarker (s.slot q.core q.slot) r then
      let s := onPort s c q.task (joinAfter p)
      onPorts s [q] (fun t => carryInto p.fmt p.ereg
        { t with sub := true, uns := false, wait := .channel, pc := BitVec.ofNat 48 p.next, issued := p.pos + 1 })
    else s
  | none =>
    if p.instr = .unpublish then onPorts (detachPorts s q.task) [q] (fun t => { t with uns := false }) else s

/-- An item reaches the port of a strand that has not yet joined: a marker lets it in; the end of the stream traps it with ENDED at its
SUBSCRIBE, unless it has trapped already, and detaches its port (R51, R72). -/
def arriveOutside (s : State) (c : Nat) (q : IPort) (p : Pub) : State :=
  match markerOf p.instr with
  | some _ =>
    let s := onPort s c q.task (joinAfter p)
    onPorts s [q] (fun u => nextStream p.next (carryInto p.fmt p.ereg u))
  | none =>
    if p.instr = .unpublish ∨ p.instr = .endTask ∨ p.instr = .compactEnd then
      if (s.slot q.core q.slot).st = .blocked then
        trapAt (detachPorts s q.task) q.core q.slot .suberr (causeCode .suberr) 0 (suberr c 11)
      else detachPorts s q.task
    else s

/-- The end of a stream whose publisher trapped or was aborted, at a subscribed port that has nothing left: SUBERR BROKEN with the
publisher's faulting PC (R68). -/
def breakPort (s : State) (c : Nat) (q : IPort) : State :=
  let x := s.chan c
  if x.st = .ending ∧ x.ended.1 = 2 ∧ !q.uns ∧ q.buf.isEmpty ∧ (s.slot q.core q.slot).task = q.task ∧
      (s.slot q.core q.slot).st = .blocked then
    let s := s.setSlot q.core q.slot { s.slot q.core q.slot with pc := BitVec.ofNat 48 x.ended.2 }
    trapAt (detachPorts s q.task) q.core q.slot .suberr (causeCode .suberr) 0 (suberr c 7)
  else s

/-- STREAM_INSTRUCTION_ARRIVAL: the oldest instruction on its way on channel `a` to the port of slot `c` of core `b` arrives there; at
the end of a broken stream the subscriber traps (R53, R68). -/
def execStreamInstructionArrival (s : State) : Host.Outcome State Fault Refusal :=
  let c := s.subj.a
  match (s.chan c).ports.find? (fun p => p.core == s.subj.b && p.slot == s.subj.c) with
  | none => event s
  | some q =>
    match q.flight with
    | [] => event (breakPort s c q)
    | p :: t =>
      let s := onPort s c q.task (fun q => { q with flight := t })
      event (if q.uns then arriveWatching s c q p else if q.joined then arriveJoined s c q p else arriveOutside s c q p)

/-- ISSUE_COUNT_REPORT: the count of the port of slot `c` of core `b` reaches the publisher of channel `a` (R55). -/
def execIssueCountReport (s : State) : Host.Outcome State Fault Refusal :=
  let c := s.subj.a
  event (s.onChan c (fun x => { x with ports := x.ports.map (fun p =>
    if p.core = s.subj.b ∧ p.slot = s.subj.c then { p with reported := p.issued } else p) }))

/-- Whether the publisher of a channel is held: 256 published instructions lie beyond the lowest count reported by a subscribed port
(R55). -/
def publisherHeld (x : IChan) : Bool := x.ports.any (fun p => p.joined && !p.uns && decide (p.reported + 256 ≤ x.published))

/-- FREQUENCY_LOCK_SWITCH: the clusters of cluster `a`'s domain switch to the group frequency as it stands now (R56, R311, R313). -/
def execFrequencyLockSwitch (s : State) : Host.Outcome State Fault Refusal :=
  if (s.cluster s.subj.a).lockSwitch.isNone then event s
  else
    let f := target s s.subj.a
    event ((together s s.subj.a).foldl (fun s g => s.onCluster g (fun x => { x with freq := f, lockSwitch := none, change := none })) s)

end Sys2Proof.Machine
end

