-- ==== Sys2Proof/Machine/Fetch.lean ====
section
/-!
DEFINITION. Fetching and issuing: where a strand's next instruction comes from, what is done before it runs and what after (R22, R53,
R55, R57, R86, R96, R143, R523).
-/

namespace Sys2Proof.Machine

open Sys2Proof

/-! ## Fetch (R86, R96 step 1) -/

/-- What the fetch at a PC comes to. -/
inductive Fetched where
  | instr (i : Instr) (len : Nat)
  | trap (c : Cause) (sub : Nat) (tval : Word)
  | walk (asid space page : Nat)
  | fill (k : Nat) (p : Word)
  deriving DecidableEq, Repr

/-- The space 0x4 pointer of an instruction address (R29, R97). -/
def fetchPtr (pc : Nat) : Word := word (4 * 2 ^ 60 + pc % 2 ^ 48)

/-- The line of a core's instruction cache that serves a fetch: its lease has not run out (R143, R144). -/
def icacheHit (s : State) (line : Nat) : Option L1Line :=
  s.myCore.icache.find? (fun x => x.line == line && decide (s.devtime + 2 < x.leaseEnd))

/-- A halfword of the running strand's code, or why it is not at hand. -/
def fetchHalf (s : State) (pc : Nat) : Except Fetched Nat :=
  let p := fetchPtr pc
  match translate s 4 4 (pc % 2 ^ 48) with
  | .trap c sub => .error (.trap c sub (if c = .dielost then word (lostMask s) else p))
  | .walk a sp pg => .error (.walk a sp pg)
  | .key k =>
    if onLostDie s k then .error (.trap .dielost 0 (word (lostMask s)))
    else
      match icacheHit s (k / 64) with
      | some x => .ok (l1Value x k 2)
      | none => .error (.fill k p)

/-- The instruction in some halfwords; one that does not decode traps with ILLOP (R96 step 2). -/
def decoded (hs : List Nat) (w : Nat) : Fetched :=
  match decodeHalves hs with
  | .ok (i, len) => .instr i len
  | .error _ => .trap .illop 0 (word w)

/-- The instruction at the running strand's PC. -/
def fetch (s : State) : Fetched :=
  let pc := s.me.pc.toNat
  if pc % 2 = 1 then .trap .align 0 (word pc)
  else
    match fetchHalf s pc with
    | .error f => f
    | .ok h =>
      if h < 2 ^ 15 then decoded [h] h
      else
        match fetchHalf s (pc + 2) with
        | .error f => f
        | .ok l => decoded [h, l] (h * 65536 + l)

/-- A line put into the instruction cache, which holds 512 lines, the least recently filled replaced (R143, log 6). -/
def icachePut (k : Core) (x : L1Line) : Core := { k with icache := (x :: k.icache.filter (fun y => y.line != x.line)).take 512 }

/-- A line fetched under a lease, which its home bank holds from then on; a poisoned one traps with POISON (R143, R146, R291). -/
def fillLine (s : State) (k : Nat) (p : Word) : State :=
  let base := k / 64 * 64
  match applyRead (homeTake (touchKey s s.me.ctx k) (k / 64)) base 64 with
  | (s, none) => takeTrap s .poison (causeCode .poison) 0 p
  | (s, some v) =>
    let (s, e) := grantLease s s.me.asid (k / 64)
    s.onCore s.cur.1 (fun c => icachePut c { line := k / 64, bytes := leBytes 64 v, leaseEnd := e, grant := s.devtime })

/-! ## Before an instruction runs -/

/-- What is done before an instruction runs: nothing runs in this step, or an instruction of a length runs. -/
inductive Prepared where
  | done (s : State)
  | run (s : State) (i : Instr) (len : Nat)
  deriving DecidableEq, Repr

/-- What a strand waits for while its instruction is fetched again: an IDLE or RESUB that has been woken keeps its wait, by which it
knows what woke it (R63, R405). -/
def refetchWait (w : Wait) : Wait := match w with | .marker _ _ | .idle _ _ | .before _ => w | _ => .retry

/-- The strand waits in a short stall without an instruction. -/
def stallFor (s : State) (f : Strand → Strand) : State :=
  { s.onMe (fun t => { f t with st := .stalled, wait := refetchWait t.wait }) with last := .waiting }

/-- A subscriber's next instruction: the oldest in its port, at the publisher's PC (R57); with none it is BLOCKED (R40). -/
def prepareSub (s : State) : Prepared :=
  match s.carried with
  | some p => .run (s.onMe (fun t => { t with st := .ready, pc := BitVec.ofNat 48 p.pc, issued := p.pos })) p.instr p.len
  | none => .done { s.onMe (fun t => { t with st := .blocked, wait := .channel }) with last := .waiting }

/-- The running strand's instruction line, absent from its cache, fetched from its home bank: one of the core's 64 remote requests (R156),
it waits where they are all outstanding or where the bank has no way for the line (R146). -/
def fetchLine (s : State) (k : Nat) (p : Word) : State :=
  if 64 ≤ remoteCount s s.cur.1 || !homeRoom s (k / 64) then stallFor s id else fillLine (perf s s.cur.1 0x13 1) k p

/-- A fetching strand's next instruction; a publisher that is held stalls (R55). -/
def prepareFetch (s : State) : Prepared :=
  if s.me.pub && publisherHeld (s.chan s.me.ichan) && !(s.chan s.me.ichan).early then .done (stallFor s id)
  else
    match fetch s with
    | .instr i len => .run (s.onMe (fun t => { t with st := .ready })) i len
    | .trap c sub tval => .done (takeTrap s c (causeCode c) sub tval)
    | .walk a sp pg => .done (stallFor s (fun t => { t with walk := some (a, sp, pg), walkAt := s.tick }))
    | .fill k p => .done (fetchLine s k p)

/-- The strand of slot `i` of core `c` issues: it is passed over no more (R523). At its first issue after a migration its sends enter the
send queues of its core, or it traps with SQFULL (R435). -/
def prepare (s : State) (c i : Nat) : Prepared :=
  let s := { s.onCore c (fun k => { k with yielded := k.yielded.filter (fun p => p.1 != i) }) with cur := (c, i), last := .none }
  match (if s.me.entering then sendsFit s c i s.me.sends else none) with
  | some n => .done (takeTrap (s.onMe (fun t => { t with entering := false })) .sqfull (causeCode .sqfull) 0 (word n))
  | none =>
    let s := if s.me.entering then s.onMe (fun t => { t with entering := false }) else s
    if s.me.sub then prepareSub s else prepareFetch s

/-! ## After an instruction has run -/

/-- The forms of the elected row of Table 3.5 (R60, R64). -/
def electedForm (i : Instr) : Bool :=
  match i with
  | .claim .. | .release .. | .tload .. | .tmma .. | .tsmma .. | .tzero .. | .tstore .. | .tscale .. | .tmatch .. | .tmerge ..
  | .tmsize .. | .tunmerge .. | .tmapcomp .. | .tmapfree .. | .tmapsave .. | .tmapload .. | .copy .. | .copym .. => true
  | _ => false

/-- Instructions that a publisher does not send as they end: PUBLISH and BRK are never published; END and UNPUBLISH publish themselves
(R70, R72, R452, R503). -/
def selfPublished (i : Instr) : Bool :=
  match i with | .publish .. | .brk .. | .compactBrk | .endTask | .compactEnd | .unpublish => true | _ => false

/-- Whether an instruction that waits has passed its checks: it is blocked, an operation of it is under way, or it is an elected form
that another member performs (R64, R96). -/
def passedChecks (i : Instr) (s : State) : Bool :=
  s.me.st == .blocked || (pending s).isSome ||
    (electedForm i && firstPlace (activeMembers s s.me.ichan s.myCluster (streamPos s)) != some s.cur)

/-- A publisher's instruction sent down its channel, once: as it ends, or as it begins to wait with its checks passed (R53, R96). -/
def publishAfter (s0 : State) (i : Instr) (len : Nat) (s : State) : State :=
  let t := s0.me
  let ch := t.ichan
  if !t.pub || selfPublished i || s.me.task != t.task then s
  else
    let item : Pub := { instr := i, pc := t.pc.toNat, len := len, taken := s.last == .branched, next := s.me.pc.toNat, fmt := s.me.fmt,
                        ereg := s.me.ereg, pos := t.issued }
    let send := fun (s : State) => if (s.chan ch).early then s else publish s ch item
    if s.last = .completed ∨ s.last = .branched then
      ((send s).onChan ch (fun x => { x with early := false })).onMe (fun u => { u with issued := t.issued + 1 })
    else if s.last = .waiting ∧ passedChecks i s then (publish' s ch item) else s
where
  /-- The item sent while its instruction waits. -/
  publish' (s : State) (ch : Nat) (item : Pub) : State :=
    if (s.chan ch).early then s
    else (publish s ch { item with next := (item.pc + item.len) % 2 ^ 48 }).onChan ch (fun x => { x with early := true })

/-- A subscriber's instruction gone from its port once it has ended; with the port empty the strand waits for its channel (R40, R55). -/
def consumeAfter (s0 : State) (s : State) : State :=
  match s0.carried with
  | none => s
  | some p =>
    if (s.last ≠ .completed ∧ s.last ≠ .branched) ∨ s.me.task ≠ s0.me.task then s
    else
      let s := onPort s s0.me.ichan s0.me.task (fun q => { q with
        buf := q.buf.filter (fun x => decide (p.pos < x.pos)), issued := p.pos + 1 })
      s.onMe (fun t =>
        let t := { t with issued := p.pos + 1 }
        if t.sub && t.st == .ready && s.carried.isNone then { t with st := .blocked, wait := .channel } else t)

/-- The round robin goes on after the slot, which counts as issued for the strands that have yielded (R22, R523). -/
def turn (s : State) (c i : Nat) : State :=
  s.onCore c (fun k => { k with
    rr := (i + 1) % 4
    yielded := (k.yielded.map (fun p => (p.1, p.2.filter (· != i)))).filter (fun p => !p.2.isEmpty) })

/-- What follows an instruction: it is published, or consumed from its port; the round robin turns; it is counted, one that waits once it
no longer does (R274). -/
def retire (s0 : State) (i : Instr) (len : Nat) (s : State) : State :=
  let s := turn (consumeAfter s0 (publishAfter s0 i len s)) s0.cur.1 s0.cur.2
  if s.last = .waiting then s else perf s s0.cur.1 0x02 1

end Sys2Proof.Machine
end

