-- ==== Sys2Proof/Machine/FloatOps.lean ====
section
/-!
DEFINITION. The scalar float forms (major 0x04 and FFMA; R391-R398), the requests to a cluster's SFU and their results
(R273, R395).
-/

namespace Sys2Proof.Machine

open Sys2Proof

/-- The bits of a float operand: the low 32 or 16 bits of its register (R391). -/
def fpBits (t : BitVec 2) (v : Word) : Nat := v.toNat % 2 ^ fpWidth (fmt2 t)

/-- A float operand of a register. -/
def fpArg (t : BitVec 2) (v : Word) : Fp := fpOf (fmt2 t) (fpBits t v)

/-- A form of two float sources: one operation, rounded once; FPX or its result and flags (R121, R392). -/
def fp3 (f : FpCtl → Word → Word → FpOut) (d a b : BitVec 5) (x y : Bool) (s : State) :
    Host.Outcome State Fault Refusal :=
  finish 4 (guard [rdS s.me a y, rdS s.me b false, wrS s.me d x] (fun s =>
    let o := f (fpCtl s.me) (s.me.rs a y) (s.me.rs b false)
    raising o.flags o.sat (fun s => s.onMe (fun t => t.ws d x (word o.bits))) s) s)

/-- FADD (R392). -/
def execFadd (d a b : BitVec 5) (x y : Bool) (t : BitVec 2) (s : State) : Host.Outcome State Fault Refusal :=
  fp3 (fun c v w => fpAdd (fmt2 t) c.rm (fpArg t v) (fpArg t w)) d a b x y s

/-- FSUB (R392). -/
def execFsub (d a b : BitVec 5) (x y : Bool) (t : BitVec 2) (s : State) : Host.Outcome State Fault Refusal :=
  fp3 (fun c v w => fpSub (fmt2 t) c.rm (fpArg t v) (fpArg t w)) d a b x y s

/-- FMUL (R392). -/
def execFmul (d a b : BitVec 5) (x y : Bool) (t : BitVec 2) (s : State) : Host.Outcome State Fault Refusal :=
  fp3 (fun c v w => fpMul (fmt2 t) c.rm (fpArg t v) (fpArg t w)) d a b x y s

/-- FMIN (R398). -/
def execFmin (d a b : BitVec 5) (x y : Bool) (t : BitVec 2) (s : State) : Host.Outcome State Fault Refusal :=
  fp3 (fun _ v w => fpMinMax (fmt2 t) false (fpBits t v) (fpBits t w)) d a b x y s

/-- FMAX (R398). -/
def execFmax (d a b : BitVec 5) (x y : Bool) (t : BitVec 2) (s : State) : Host.Outcome State Fault Refusal :=
  fp3 (fun _ v w => fpMinMax (fmt2 t) true (fpBits t v) (fpBits t w)) d a b x y s

/-- A comparison's result: 1 or 0, with NV where R122 raises it (R393). -/
def fpTest (p : Pred) (t : BitVec 2) (v w : Word) : FpOut :=
  let (r, fl) := fpCmp p (fpArg t v) (fpArg t w)
  { bits := if r then 1 else 0, flags := fl }

/-- FCMP.eq (R393). -/
def execFcmpEq (d a b : BitVec 5) (x y : Bool) (t : BitVec 2) (s : State) : Host.Outcome State Fault Refusal :=
  fp3 (fun _ v w => fpTest .eq t v w) d a b x y s

/-- FCMP.lt (R393). -/
def execFcmpLt (d a b : BitVec 5) (x y : Bool) (t : BitVec 2) (s : State) : Host.Outcome State Fault Refusal :=
  fp3 (fun _ v w => fpTest .lt t v w) d a b x y s

/-- FCMP.le (R393). -/
def execFcmpLe (d a b : BitVec 5) (x y : Bool) (t : BitVec 2) (s : State) : Host.Outcome State Fault Refusal :=
  fp3 (fun _ v w => fpTest .le t v w) d a b x y s

/-- FCMP.un (R393). -/
def execFcmpUn (d a b : BitVec 5) (x y : Bool) (t : BitVec 2) (s : State) : Host.Outcome State Fault Refusal :=
  fp3 (fun _ v w => fpTest .un t v w) d a b x y s

/-- The integer type of a conversion code 3-6 or 7-10: i32, i64, n32, n64 (Table 4.16). -/
def cvtInt (c : Nat) : Nat := match c with | 0 => 2 | 1 => 3 | 2 => 6 | _ => 7

/-- FCVT: from a float of another format, from an integer, to an integer (R394, R123, R124). sz names the float type, the
code the other one. -/
def fcvtOut (c : FpCtl) (code : Nat) (t : BitVec 2) (v : Word) : FpOut :=
  if code ≤ 2 then
    let src := fmt2 (BitVec.ofNat 2 code)
    if code = t.toNat ∧ !fpIsNaN (fpOf src (v.toNat % 2 ^ fpWidth src)) then { bits := v.toNat % 2 ^ fpWidth src }
    else fpConvert src (fmt2 t) c.rm (v.toNat % 2 ^ fpWidth src)
  else if code ≤ 6 then
    let ty := intTy (cvtInt (code - 3))
    intToFp (fmt2 t) c.rm (intOf ty (v.toNat % 2 ^ ty.bits))
  else
    let ty := intTy (cvtInt (code - 7))
    let o := fpToInt (fmt2 t) ty c.rm c.saten (fpBits t v)
    if ty.signed then { o with bits := (signExt o.bits ty.bits % (2 ^ 64 : Int)).toNat } else o

/-- FCVT (R394). -/
def execFcvt (d a c : BitVec 5) (x y : Bool) (t : BitVec 2) (s : State) : Host.Outcome State Fault Refusal :=
  finish 4 (guard [rdS s.me a y, wrS s.me d x] (fun s =>
    let o := fcvtOut (fpCtl s.me) c.toNat t (s.me.rs a y)
    raising o.flags o.sat (fun s => s.onMe (fun t => t.ws d x (word o.bits))) s) s)

/-- FFMA: one rounding after the exact sum (R397). -/
def execFfma (d a b : BitVec 5) (x y : Bool) (c : BitVec 5) (t : BitVec 2) (s : State) : Host.Outcome State Fault Refusal :=
  finish 4 (guard [rdS s.me a y, rdS s.me b false, rdS s.me c false, wrS s.me d x] (fun s =>
    let o := fpFma (fmt2 t) (fmtRm s.me.fmt) (fpArg t (s.me.rs a y)) (fpArg t (s.me.rs b false)) (fpArg t (s.me.rs c false))
    raising o.flags o.sat (fun s => s.onMe (fun t => t.ws d x (word o.bits))) s) s)

/-! ## The cluster's SFU (R273, R395) -/

/-- The request of the running strand: its operation, register and result. -/
def sfuReq (s : State) (id : Nat) (r : Reg) (val : Nat) (fl : Flags) : SfuReq :=
  { op := id, core := s.cur.1, slot := s.cur.2, task := s.me.task, reg := r, val := val, flags := fl }

/-- A request to the SFU, which takes one at the end of each core cycle. The instruction completes and owes its register; until the request
is accepted its strand issues nothing more (R273, log 96). With a trap enable set it waits for the result (R395). -/
def sfuIssue (r : Reg) (val : Nat) (fl : Flags) (s : State) : Res :=
  match pending s with
  | none =>
    let req := sfuReq s s.nextId r val fl
    let traps := decide (fmtXen s.me.fmt ≠ 0)
    let s' := startOp s { myOp s .sfu with pend := traps, regs := if traps then [] else [r] }
    let s' := s'.onCluster s.myCluster (fun q => { q with sfuWait := q.sfuWait ++ [req], sfuBusy := true })
    let s' := perf s' s.cur.1 0x0F 1
    if traps then .stall s' (.op req.op) else .ok s'
  | some o =>
    if o.answer.isSome then raising fl false (fun s => s.onMe (fun t => t.setReg r val)) (dropOp s o.id) else .stall s (.op o.id)

/-- FDIV (R395). -/
def execFdiv (d a b : BitVec 5) (x y : Bool) (t : BitVec 2) (s : State) : Host.Outcome State Fault Refusal :=
  finish 4 (guard [rdS s.me a y, rdS s.me b false, wrS s.me d x] (fun s =>
    let o := fpDiv (fmt2 t) (fmtRm s.me.fmt) (fpArg t (s.me.rs a y)) (fpArg t (s.me.rs b false))
    sfuIssue (.s (s.me.reg d.toNat x)) o.bits o.flags s) s)

/-- FSQRT (R395). -/
def execFsqrt (d a : BitVec 5) (x y : Bool) (t : BitVec 2) (s : State) : Host.Outcome State Fault Refusal :=
  finish 4 (guard [rdS s.me a y, wrS s.me d x] (fun s =>
    let o := fpSqrt (fmt2 t) (fmtRm s.me.fmt) (fpArg t (s.me.rs a y))
    sfuIssue (.s (s.me.reg d.toNat x)) o.bits o.flags s) s)

/-- The waiting request of the first core at or after the pointer that has one (R273). -/
def sfuNext (q : Cluster) : Option SfuReq :=
  (List.range 16).findSome? (fun i => q.sfuWait.find? (fun r => r.core % 16 == (q.sfuPtr + i) % 16))

/-- A strand whose request the cycle of its issue has not seen accepted: it is in a short stall (R273). -/
def sfuHeld (t : Strand) : Strand := if t.st = .ready then { t with st := .stalled, wait := .retry } else t

/-- Whether a core cycle has ended at whose end a cluster's SFU accepts a request that waits. -/
def sfuDue (q : Cluster) : Bool := !q.sfuBusy && !q.sfuWait.isEmpty

/-- SFU_ACCEPT: at the end of a core cycle the SFU of cluster `a` accepts one waiting request, where its queue has room, and its pointer
moves past that core; the others hold their strands (R273). -/
def execSfuAccept (s : State) : Host.Outcome State Fault Refusal :=
  let q := s.cluster s.subj.a
  if !sfuDue q then event s
  else
    let s := match (if q.sfuq.length < 32 then sfuNext q else none) with
      | some r => s.onCluster s.subj.a (fun q => { q with sfuq := q.sfuq ++ [r], sfuWait := q.sfuWait.filter (fun x => x.op != r.op),
                                                          sfuPtr := (r.core + 1) % 16, sfuBusy := true })
      | none => s.onCluster s.subj.a (fun q => { q with sfuBusy := true })
    event ((s.cluster s.subj.a).sfuWait.foldl (fun s x => s.onTask x.task sfuHeld) s)

/-- SFU_RESULT: the oldest result of cluster `a` is written to its register and its flags go into FMT.FLG, or its instruction,
which waits for it, is answered; a result of an aborted task is discarded (R273, R395). A strand that is saved or traps while its
instruction waits has its result drained with it, and the instruction restarts (R39, R273). -/
def execSfuResult (s : State) : Host.Outcome State Fault Refusal :=
  let g := s.subj.a
  match (s.cluster g).sfuq with
  | [] => event s
  | r :: rest =>
    let s := s.onCluster g (fun q => { q with sfuq := rest })
    match findOp s r.op with
    | none => event s
    | some o =>
      if o.pend then event (answerOp s r.op [r.val])
      else event (dropOp (s.onTask r.task (fun t => (t.setReg r.reg r.val).raise r.flags false)) r.op)

end Sys2Proof.Machine
end

