-- ==== Sys2Proof/Machine/Fuller.lean ====
section
/-!
DEFINITION. The Fuller token-merging unit: matching, merging, the size bias, unmerging, and maps composed, freed, saved and
loaded (R227-R244, R490).
-/

namespace Sys2Proof.Machine

open Sys2Proof

/-! ## Checks on maps (R228-R230, Table 11.3) -/

/-- A map of the running context on its cluster. -/
def myMap (s : State) (id : Nat) : FMap := s.fmap s.myCluster s.me.ctx id

/-- The state and then the fault mark of a map that a form reads (Table 11.3, R229). -/
def needMap (id : Nat) (st : MapState) (k : State → Res) (s : State) : Res :=
  let m := myMap s id
  if m.st = .lost then .trap s .maplost 0 (word id)
  else if m.st ≠ st then .trap s .mapbad 0 (word id)
  else match m.mark with | some (c, p) => .trap s c 0 p | none => k s

/-- A physical entry for a form that gives an identifier a new map (R228). -/
def needEntry (id : Nat) (k : State → Res) (s : State) : Res :=
  if !holdsEntry (myMap s id) && decide (32 ≤ entriesUsed (s.cluster s.myCluster)) then .trap s .mapbad 0 (word id) else k s

/-- The contents of a map changed, its issue state kept. -/
def onMap (s : State) (g ctx id : Nat) (f : FMap → FMap) : State := setMap s g ctx id (f (s.fmap g ctx id))

/-- Whether a form of a kind replaces the contents of its map (R229). -/
def replacesMap (k : TileKind) : Bool := k == .tmatch || k == .tmapcomp || k == .tmapload

/-- The fault mark of a map set for an entry, unless one is recorded, or a later entry replaces the map (R229, R230). -/
def markMap (s : State) (g : Nat) (e : TileOp) (f : Flt) : State :=
  let k := mapKey e.ctx e.td
  if (s.cluster g).tileq.any (fun x => decide (e.n < x.n) && replacesMap x.kind && x.wrM.contains k) then s
  else onMap s g e.ctx e.td (fun m => if m.mark.isSome then m else { m with mark := some (f.1, f.2.2) })

/-- The resource numbers of maps of the running context. -/
def mapRes (s : State) (ids : List Nat) : List Nat := ids.map (mapKey s.me.ctx)

/-! ## TMATCH (R234, R235) -/

/-- The tokens of even or odd index that are not protected. -/
def sideTokens (n : Nat) (protect : Word) (odd : Nat) : List Nat :=
  (List.range n).filter (fun t => t % 2 == odd && !(decide (t < 64) && protect.getLsbD t))

/-- The key slots of a match. -/
def keySlots (n d f : Nat) : List Nat := (List.range ((n + (if d ≤ 32 then 127 else 63)) / if d ≤ 32 then 128 else 64)).map (f + ·)

/-- TMATCH (R234, R490). -/
def execTmatch (d a b : BitVec 5) (s : State) : Host.Outcome State Fault Refusal :=
  tileForm (fun s => [rdS s.me a false, rdS s.me b false]) (fun s =>
    let v := s.me.rs a false
    let w := s.me.rs b false
    let n := bits v 11 0 + 1
    let dim := bits v 17 12 + 1
    let slots := keySlots n dim (bits v 23 19)
    let from_ := bits v 28 24
    let sized := bits v 29 29 == 1
    if bits v 63 30 ≠ 0 ∨ n = 1 ∨ (32 < dim ∧ 2048 < n) ∨ 32 < bits v 23 19 + slots.length then .trap s .bound 0 v
    else if n < 64 ∧ bits w 63 n ≠ 0 then .trap s .bound 0 w
    else
      let enter := needEntry d.toNat (fun s =>
        enterTile { tileEntry s .tmatch with
          td := d.toNat, ta := from_, args := [v, w], rdS := slots
          rdM := mapRes s (if sized then [from_] else []), wrM := mapRes s [d.toNat] }
          (fun s => onMap s s.myCluster s.me.ctx d.toNat (fun m =>
            { m with st := .matched, n := n, n' := n, depth := 0, protect := w, mark := none })) s)
      needClaims slots (needClean slots (fun s =>
        if sized then
          needMap from_ .merged (fun s => if (myMap s from_).n' ≠ n then .trap s .mapbad 0 (word from_) else enter s) s
        else enter s)) s) s

/-- The elements of a token's key (R234). -/
def keyOf (c : Cluster) (v : Word) (t : Nat) : List Nat :=
  let dim := bits v 17 12 + 1
  let line := if dim ≤ 32 then t / 2 else t
  let l := slotLine c (bits v 23 19 + line / 64) (line % 64) 128
  (List.range dim).map (fun j => lineHalf l ((if dim ≤ 32 then 32 * (t % 2) else 0) + j))

/-- The finite terms of some values; none where one is a NaN or an infinity. -/
def termsOf (f : FloatFmt) : List Nat → Option (List Term)
  | [] => some []
  | b :: t =>
    match fpOf f b, termsOf f t with
    | .fin n m e, some l => some (⟨n, m, e⟩ :: l)
    | _, _ => none

/-- The exact sum of the products of two lists of terms. -/
def dotTerm (x y : List Term) : Term :=
  exactSum .rne ((x.zip y).map (fun p => ⟨p.1.neg != p.2.neg, p.1.m * p.2.m, p.1.e + p.2.e⟩))

/-- The similarity of two keys as a binary32 pattern: one rounding of the exact cosine; an exact zero keeps its sign, -0 where every product
is -0 (R133, R235). -/
def similarity (f : FloatFmt) (x y : List Nat) : Nat :=
  match termsOf f x, termsOf f y with
  | some tx, some ty =>
    let qx := dotTerm tx tx
    let qy := dotTerm ty ty
    let dot := dotTerm tx ty
    if qx.m = 0 ∨ qy.m = 0 then 0
    else if dot.m = 0 then fpSign f32 dot.neg
    else
      let (q, e) := evenExp (qx.m * qy.m) (qx.e + qy.e)
      let k := guardBits + Nat.log2 q
      let u := dot.m * dot.m * 2 ^ (2 * k)
      let r := isqrt (u / q)
      (roundTo f32 .rne dot.neg r (dot.e - e / 2 - k) (r * r * q != u)).bits
  | _, _ => fpSign f32 true + fpInf f32

/-- The token of B of greatest similarity, the lowest among equals. -/
def bestOf (sim : Nat → Nat) : List Nat → Option (Nat × Nat)
  | [] => none
  | b :: t =>
    match bestOf sim t with
    | none => some (b, sim b)
    | some (c, v) => if fpLt (fpOf f32 (sim b)) (fpOf f32 v) then some (c, v) else some (b, sim b)

/-- TMATCH performed: every A token's best B and its similarity, and the input sizes (R235). -/
def tmatchStep (s : State) (g : Nat) (e : TileOp) : State :=
  let v := (e.args[0]?).getD 0
  let w := (e.args[1]?).getD 0
  let n := bits v 11 0 + 1
  let c := s.cluster g
  let f := if bits v 18 18 = 0 then f16 else bf16
  let bs := sideTokens n w 1
  let best := (sideTokens n w 0).filterMap (fun a =>
    (bestOf (fun b => similarity f (keyOf c v a) (keyOf c v b)) bs).map (fun p => (a, p.1, p.2)))
  let sizes := if bits v 29 29 = 1 then (s.fmap g e.ctx e.ta).sizes else List.replicate n 1
  tileDone (onMap s g e.ctx e.td (fun m => { m with best := best, sizes := sizes, dest := [], mark := none })) g e id

/-! ## Rows (R236) -/

/-- Bytes of an element of a row type. -/
def rowElem (v : Word) : Nat := if bits v 17 16 = 0 then 4 else 2

/-- Bytes of a row. -/
def rowBytes (v : Word) : Nat := (bits v 13 0 + 1) * rowElem v

/-- The stride of rows in bytes. -/
def rowStride (v : Word) : Nat := 16 * bits v 47 24

/-- A row descriptor that traps with BOUND (R236). -/
def rowBad (v : Word) : Bool :=
  bits v 15 14 != 0 || bits v 23 18 != 0 || bits v 63 48 != 0 || bits v 17 16 == 3 || decide (rowBytes v > rowStride v)

/-- Whether `n` source rows and `m` destination rows overlap in one space. -/
def rowsOverlap (p q v : Word) (n m : Nat) : Bool :=
  tagOf p == tagOf q && (List.range (n + m)).any (fun i =>
    let d : Int := (bits p 59 0 : Int) - bits q 59 0 + ((i : Int) - m + 1) * rowStride v
    decide (d.natAbs < rowBytes v) && decide (i < n + m - 1))

/-- The checks of two row pointers in spaces 0x0-0x4: SPACE, BOUND, then ALIGN to 16 bytes, each for both. -/
def rowPtrs (p q : Word) (k : State → Res) (s : State) : Res :=
  match [p, q].find? (fun x => decide (4 < tagOf x)) with
  | some x => .trap s .space 0 x
  | none =>
    match [p, q].find? (fun x => (ptrCheck .engine x).isSome) with
    | some x => .trap s .bound 0 x
    | none => match [p, q].find? (fun x => x.toNat % 16 != 0) with | some x => .trap s .align 0 x | none => k s

/-- The checks of TMERGE and TUNMERGE on rows, then their entry: pointers, overlap, translation (R236, R240). -/
def rowForm (kind : TileKind) (id : Nat) (p q v : Word) (n m r : Nat) (issue : FMap → FMap) (s : State) : Res :=
  rowPtrs p q (fun s =>
    if rowsOverlap p q v n m then .trap s .bound 0 q
    else
      translated (rowPages p (rowStride v) (rowBytes v) n ++ rowPages q (rowStride v) (rowBytes v) m) (fun s =>
        match rowSegs s s.actor 1 p (rowStride v) (rowBytes v) (List.range n) with
        | .error (c, sub, tval) => .trap s c sub tval
        | .ok src =>
          match rowSegs s s.actor 2 q (rowStride v) (rowBytes v) (List.range m) with
          | .error (c, sub, tval) => .trap s c sub tval
          | .ok dst =>
            afterAcquire (enterTile { tileEntry s kind with
              td := id, args := [p, q, v], e := [r], src := src, dst := dst, map := myMap s id
              rdM := mapRes s [id], wrM := if kind = .tmerge then mapRes s [id] else []
              device := !nearCluster s.myCluster (src ++ dst) }
              (fun s => onMap s s.myCluster s.me.ctx id issue)) s) s) s

/-- TMERGE (R236, R490). -/
def execTmerge (d a b r : BitVec 5) (s : State) : Host.Outcome State Fault Refusal :=
  tileForm (fun s => [rdS s.me a false, rdS s.me b false, rdS s.me r false]) (fun s =>
    let v := s.me.rs r false
    needMap d.toNat .matched (fun s =>
      let m := myMap s d.toNat
      let e0 := (s.me.e 0).toNat
      if rowBad v then .trap s .bound 0 v
      else if (sideTokens m.n m.protect 0).length < e0 ∨ (0 < e0 ∧ (sideTokens m.n m.protect 1).isEmpty) then
        .trap s .bound 0 ((s.me.e 0).setWidth 64)
      else
        rowForm .tmerge d.toNat (s.me.rs a false) (s.me.rs b false) v m.n (m.n - e0) e0
          (fun m => { m with st := .merged, n' := m.n - e0, depth := 1 }) s) s) s

/-- TUNMERGE (R240, R490). -/
def execTunmerge (d a b r : BitVec 5) (s : State) : Host.Outcome State Fault Refusal :=
  tileForm (fun s => [rdS s.me a false, rdS s.me b false, rdS s.me r false]) (fun s =>
    let v := s.me.rs r false
    needMap d.toNat .merged (fun s =>
      let m := myMap s d.toNat
      if rowBad v then .trap s .bound 0 v
      else rowForm .tunmerge d.toNat (s.me.rs a false) (s.me.rs b false) v m.n' m.n 0 id s) s) s

/-- An edge put in its place: by similarity, the greatest first, then by the A token (R237). -/
def insertEdge (x : Nat × Nat × Nat) : List (Nat × Nat × Nat) → List (Nat × Nat × Nat)
  | [] => [x]
  | y :: t =>
    if fpLt (fpOf f32 x.2.2) (fpOf f32 y.2.2) || (!fpLt (fpOf f32 y.2.2) (fpOf f32 x.2.2) && decide (y.1 < x.1)) then
      y :: insertEdge x t
    else x :: y :: t

/-- What TMERGE does with each token: the chosen edges, the survivors, and the destination index of each token (R237). -/
structure MergePlan where
  chosen : List (Nat × Nat)
  live : List Nat
  dest : List Nat
  deriving DecidableEq, Repr

/-- The plan of a merge of `n` tokens over the `r` best edges. -/
def mergePlan (n r : Nat) (best : List (Nat × Nat × Nat)) : MergePlan :=
  let chosen := ((best.foldl (fun l x => insertEdge x l) []).take r).map (fun x => (x.1, x.2.1))
  let gone := fun (i : Nat) => chosen.find? (fun x => x.1 == i)
  let live := (List.range n).filter (fun i => (gone i).isNone)
  { chosen := chosen, live := live
    dest := (List.range n).map (fun i => live.idxOf (match gone i with | some x => x.2 | none => i)) }

/-- The tokens that fold into a survivor, in ascending order. -/
def foldedInto (p : MergePlan) (i : Nat) : List Nat := (List.range p.dest.length).filter (fun a => p.chosen.contains (a, i))

/-- The weighted mean of two binary32 patterns, rounded once (R237). -/
def weighted (s v a x : Nat) : Nat :=
  (fpDiv f32 .rne (exactFp [fpMulExact (.fin false s 0) (fpOf f32 v), fpMulExact (.fin false a 0) (fpOf f32 x)])
    (.fin false (s + a) 0)).bits

/-- The elements of a row as binary32 patterns. -/
def rowValues (v : Word) (l : List Byte) : List Nat :=
  (List.range (bits v 13 0 + 1)).map (fun j =>
    let b := leNat ((l.drop (rowElem v * j)).take (rowElem v))
    match bits v 17 16 with | 0 => b | 1 => (fpConvert f16 f32 .rne b).bits | _ => (fpConvert bf16 f32 .rne b).bits)

/-- Binary32 patterns as the bytes of a row, narrowed to nearest even. -/
def rowFrom (v : Word) (l : List Nat) : List Byte :=
  l.flatMap (fun b => match bits v 17 16 with
    | 0 => leBytes 4 b
    | 1 => leBytes 2 (fpConvert f32 f16 .rne b).bits
    | _ => leBytes 2 (fpConvert f32 bf16 .rne b).bits)

/-- A source row of an entry, or the fault of its first unit that fails. -/
def sourceRow (s : State) (e : TileOp) (i : Nat) : State × Except Flt (List Byte) :=
  let v := (e.args[2]?).getD 0
  readSegs s e.actor (ptrAdd ((e.args[0]?).getD 0) (rowStride v * i)) (rowOf e.src (rowBytes v) i)

/-- A destination row of an entry written. -/
def writeDest (s : State) (e : TileOp) (i : Nat) (l : List Byte) : State × Except Flt Nat :=
  let v := (e.args[2]?).getD 0
  writeRange s e.actor (ptrAdd ((e.args[1]?).getD 0) (rowStride v * i)) l (rowOf e.dst (rowBytes v) i)

/-- Rows folded into a value one after the other: its elements and its size. -/
def foldRows (s : State) (e : TileOp) (sizes : List Nat) (v : Word) : List Nat → List Nat × Nat → State × Except Flt (List Nat × Nat)
  | [], r => (s, .ok r)
  | a :: t, (vals, size) =>
    match sourceRow s e a with
    | (s, .error f) => (s, .error f)
    | (s, .ok l) =>
      let w := (sizes[a]?).getD 1
      foldRows s e sizes v t (((vals.zip (rowValues v l)).map (fun x => weighted size x.1 w x.2)), size + w)

/-- The size of an output token: the sum over the tokens that reach it, at most 65,535 (R237). -/
def mergedSize (p : MergePlan) (sizes : List Nat) (i : Nat) : Nat :=
  Nat.min 65535 ((sizes[i]?).getD 1 + ((foldedInto p i).map (fun a => (sizes[a]?).getD 1)).sum)

/-- A merge that ends, for its last row or a fault: the map's destinations and sizes as computed (R237, R238). -/
def mergeEnd (s : State) (g : Nat) (e : TileOp) (p : MergePlan) (sizes : List Nat) : State :=
  onMap s g e.ctx e.td (fun m => { m with best := [], dest := p.dest, sizes := p.live.map (mergedSize p sizes) })

/-- The row that a survivor leaves: widened, the tokens that fold into it folded, narrowed; a protected token's row unchanged (R237). -/
def mergedRow (v : Word) (protect : Word) (i : Nat) (l : List Byte) (vals : List Nat) : List Byte :=
  if decide (i < 64) && protect.getLsbD i then l else rowFrom v vals

/-- A destination row of a TMERGE computed and written. -/
def tmergeRow (e : TileOp) (p : MergePlan) (sizes : List Nat) (s : State) (n : Nat) : State × Except Flt Nat :=
  let v := (e.args[2]?).getD 0
  let i := (p.live[n]?).getD 0
  match sourceRow s e i with
  | (s, .error f) => (s, .error f)
  | (s, .ok l) =>
    match foldRows s e sizes v (foldedInto p i) (rowValues v l, (sizes[i]?).getD 1) with
    | (s, .error f) => (s, .error f)
    | (s, .ok (vals, _)) => writeDest s e n (mergedRow v e.map.protect i l vals)

/-- The pieces that the next rows of a TMERGE or TUNMERGE touch: their sources, as `srcs` names them, and their destinations. -/
def fullerSegs (e : TileOp) (srcs : Nat → List Nat) (rows : List Nat) : List Seg :=
  let len := rowBytes ((e.args[2]?).getD 0)
  rows.flatMap (fun n => (srcs n).flatMap (rowOf e.src len) ++ rowOf e.dst len n)

/-- Whether a destination row of an entry and the next of `rows` share a unit (R171). -/
def destsMeet (e : TileOp) (rows i : Nat) : Bool := decide (i + 1 < rows) && rowsMeet e.dst (rowBytes ((e.args[2]?).getD 0)) i

/-- The next destination rows of an entry, written up to the end of a unit; a fault stops it. -/
def fullerRows (s : State) (g : Nat) (e : TileOp) (rows : Nat) (srcs : Nat → List Nat) (write : State → Nat → State × Except Flt Nat)
    (fail : State → Flt → State) : State :=
  portWait s e.n e.core (fullerSegs e srcs (rowsFrom (destsMeet e rows) rows e.pos)) (fun s =>
    match writeRows write (destsMeet e rows) rows s e.pos 0 with
    | (s, .error f) => fail s f
    | (s, .ok (tc, next)) => onTile s g e.n (fun e => { e with pos := next, tc := Nat.max e.tc tc }))

/-- The next destination rows of a TMERGE; after the last, or a fault, it releases and reports done (R170, R171, R237, R238). -/
def tmergeStep (s : State) (g : Nat) (e : TileOp) : State :=
  let m := s.fmap g e.ctx e.td
  let p := mergePlan e.map.n ((e.e[0]?).getD 0) m.best
  if e.fault.isSome then tileReport s g e id
  else if e.pos < p.live.length then
    fullerRows s g e p.live.length (fun n => let i := (p.live[n]?).getD 0; i :: foldedInto p i) (tmergeRow e p m.sizes)
      (fun s f => failTile (markMap (mergeEnd s g e p m.sizes) g e f) g e f)
  else if e.device && decide (s.devtime < e.tc) then s
  else tileDone (mergeEnd s g e p m.sizes) g e id

/-- The source row of a destination row of a TUNMERGE (R240). -/
def unmergeSource (s : State) (g : Nat) (e : TileOp) (n : Nat) : Nat := ((s.fmap g e.ctx e.td).dest[n]?).getD 0

/-- A destination row of a TUNMERGE written. -/
def tunmergeRow (g : Nat) (e : TileOp) (s : State) (n : Nat) : State × Except Flt Nat :=
  match sourceRow s e (unmergeSource s g e n) with
  | (s, .error f) => (s, .error f)
  | (s, .ok l) => writeDest s e n l

/-- The next destination rows of a TUNMERGE; a late fault sets the map's mark (R170, R171, R238, R240). An entry queued behind a load or
merge of its map that met a fault is performed on what the map holds: a missing destination index is 0, a missing size 1 (log 94). -/
def tunmergeStep (s : State) (g : Nat) (e : TileOp) : State :=
  if e.fault.isNone && decide (e.pos < e.map.n) then
    fullerRows s g e e.map.n (fun n => [unmergeSource s g e n]) (tunmergeRow g e) (fun s f => failTile (markMap s g e f) g e f)
  else tileReport s g e id

/-! ## TMSIZE (R239) -/

/-- TMSIZE (R239, R490). -/
def execTmsize (d a r : BitVec 5) (s : State) : Host.Outcome State Fault Refusal :=
  tileForm (fun s => [rdS s.me r false]) (needClaims [32 + d.toNat] (needMap a.toNat .merged (fun s =>
    let v := s.me.rs r false
    let e := fun (i : Nat) => (s.me.e i).toNat
    let outside := fun (i : Nat) => decide (e i < 1) || decide (64 < e i)
    if outside 0 then .trap s .bound 0 ((s.me.e 0).setWidth 64)
    else if outside 1 then .trap s .bound 0 ((s.me.e 1).setWidth 64)
    else if bits v 63 12 ≠ 0 then .trap s .bound 0 v
    else
      enterTile { tileEntry s .tmsize with
        td := d.toNat, ta := a.toNat, args := [v], e := [e 0, e 1], map := myMap s a.toNat
        rdA := [d.toNat], wrA := [d.toNat], rdM := mapRes s [a.toNat] } id s))) s

/-- The bias of a size: its binary logarithm times RoundNE32(ln 2), rounded once; 1 gives +0 (R239). -/
def sizeBias (n : Nat) : Nat :=
  let (_, v, g, inexact) := log2Exact n 0
  if v = 0 && !inexact then 0 else (roundTo f32 .rne false (v * 0xB17218) (g - 24) inexact).bits

/-- TMSIZE performed (R239). -/
def tmsizeStep (s : State) (g : Nat) (e : TileOp) : State :=
  let j0 := bits ((e.args[0]?).getD 0) 11 0
  let sizes := (s.fmap g e.ctx e.ta).sizes
  let cols := (List.range ((e.e[1]?).getD 0)).filter (fun j => decide (j0 + j < e.map.n'))
  tileDone (s.onCluster g (fun c => { c with accMem := (List.range ((e.e[0]?).getD 0)).foldl (fun acc i =>
    cols.foldl (fun acc j => setAcc acc (accKey e.td i j)
      (BitVec.ofNat 32 (accAdd (accWord c e.td i j).toNat (fpOf f32 (sizeBias ((sizes[j0 + j]?).getD 1)))))) acc) c.accMem })) g e id

/-! ## TMAPCOMP, TMAPFREE, TMAPSAVE and TMAPLOAD (R241, R242) -/

/-- TMAPCOMP (R241, R490). -/
def execTmapcomp (d a b : BitVec 5) (s : State) : Host.Outcome State Fault Refusal :=
  tileForm (fun _ => []) (needMap a.toNat .merged (needMap b.toNat .merged (fun s =>
    let x := myMap s a.toNat
    let y := myMap s b.toNat
    if y.n ≠ x.n' then .trap s .mapbad 0 (word b.toNat)
    else if 8 < x.depth + y.depth then .trap s .mapbad 0 (word d.toNat)
    else
      needEntry d.toNat (fun s =>
        enterTile { tileEntry s .tmapcomp with
          td := d.toNat, ta := a.toNat, tb := b.toNat, rdM := mapRes s [a.toNat, b.toNat], wrM := mapRes s [d.toNat] }
          (fun s => onMap s s.myCluster s.me.ctx d.toNat (fun m =>
            { m with st := .merged, n := x.n, n' := y.n', depth := x.depth + y.depth, mark := none })) s) s))) s

/-- TMAPCOMP performed (R241). -/
def tmapcompStep (s : State) (g : Nat) (e : TileOp) : State :=
  let x := s.fmap g e.ctx e.ta
  let y := s.fmap g e.ctx e.tb
  tileDone (onMap s g e.ctx e.td (fun m =>
    { m with best := [], dest := x.dest.map (fun i => (y.dest[i]?).getD 0), sizes := y.sizes, mark := none })) g e id

/-- TMAPFREE (R242): it waits until no entry names the map. -/
def execTmapfree (d : BitVec 5) (s : State) : Host.Outcome State Fault Refusal :=
  finish 4 (elected none (fun s =>
    let k := mapKey s.me.ctx d.toNat
    let c := s.cluster s.myCluster
    if c.reloads.any (fun p => p.1 == s.me.ctx) || c.tileq.any (fun e => e.rdM.contains k || e.wrM.contains k) then
      .stall s .retry
    else .ok (s.onCluster s.myCluster (fun c => { c with maps := mapDel c.maps k }))) s)

/-- Bytes of a map image (Table 11.4). -/
def mapBytes : Nat := 16448

/-- TMAPSAVE (R241, R490). -/
def execTmapsave (d a : BitVec 5) (s : State) : Host.Outcome State Fault Refusal :=
  tileForm (fun s => [rdS s.me a false]) (needMap d.toNat .merged (fun s =>
    let p := s.me.rs a false
    engPtr 4 64 p (translated (rangePages p mapBytes) (fun s =>
      match rangeSegs s s.actor 2 p mapBytes with
      | .error (c, sub, tval) => .trap s c sub tval
      | .ok segs =>
        afterAcquire (enterTile { tileEntry s .tmapsave with
          td := d.toNat, args := [p], dst := segs, map := myMap s d.toNat, rdM := mapRes s [d.toNat]
          device := !nearCluster s.myCluster segs } id) s)) s)) s

/-- TMAPSAVE performed, then its report; a late fault sets the map's mark (R170, R229, R490). -/
def tmapsaveStep (s : State) (g : Nat) (e : TileOp) : State :=
  if e.pos = 0 ∧ e.fault.isNone then
    let m := s.fmap g e.ctx e.td
    let image := mapImage { e.map with dest := m.dest, sizes := m.sizes }
    portWait s e.n e.core e.dst (fun s =>
      match writeRange s e.actor ((e.args[0]?).getD 0) image e.dst with
      | (s, .error f) => failTile (markMap s g e f) g e f
      | (s, .ok tc) => onTile s g e.n (fun e => { e with pos := 1, tc := tc }))
  else tileReport s g e id

/-- TMAPLOAD (R241, R490): the header is read and checked at issue, after the release at the fork, which the form waits for in its short
stall, as for a bank that cannot serve the header (R161, R169, R146). -/
def execTmapload (d a : BitVec 5) (s : State) : Host.Outcome State Fault Refusal :=
  tileForm (fun s => [rdS s.me a false]) (fun s =>
    let p := s.me.rs a false
    engPtr 4 64 p (translated (rangePages p mapBytes) (fun s =>
      match rangeSegs s s.actor 1 p mapBytes with
      | .error (c, sub, tval) => .trap s c sub tval
      | .ok segs =>
        let device := !nearCluster s.myCluster segs
        if acquiring s || !forked s s.me.task s.nextId s.me.hor device || !segsFree s (segs.take 1) then .stall s .retry
        else
          match readSegs s s.actor p ((segs.take 1).map (fun g => { g with len := Nat.min g.len 64 })) with
          | (s, .error (c, sub, tval)) => .trap s c sub tval
          | (s, .ok h) =>
            if !mapHeaderOk h then .trap s .mapbad 0 (word d.toNat)
            else
              let x := mapOfImage d.toNat h
              needEntry d.toNat (fun s =>
                enterTile { tileEntry s .tmapload with
                  td := d.toNat, args := [p], src := segs, map := x, wrM := mapRes s [d.toNat], device := device }
                  (fun s => onMap s s.myCluster s.me.ctx d.toNat (fun m =>
                    { m with st := .merged, n := x.n, n' := x.n', depth := x.depth, mark := none })) s) s)) s) s

/-- The mark of a map whose body is malformed (R241). -/
def badBody (s : State) (g : Nat) (e : TileOp) (bad : Bool) : State :=
  if bad then markMap s g e (.mapbad, 0, word e.td) else s

/-- A line of a map image put into its map: 32 destinations from line 1 on, 32 sizes from line 129 on (Table 11.4); a destination at or
beyond n' and a size of 0 set the mark (R241). -/
def loadLine (s : State) (g : Nat) (e : TileOp) (line : Nat) (l : List Byte) : State :=
  let h := halvesAt l 0 32
  if line ≤ 128 then
    let h := h.take (e.map.n - 32 * (line - 1))
    badBody (onMap s g e.ctx e.td (fun m => { m with dest := m.dest ++ h })) g e (h.any (fun d => decide (e.map.n' ≤ d)))
  else
    let h := h.take (e.map.n' - 32 * (line - 129))
    badBody (onMap s g e.ctx e.td (fun m => { m with sizes := m.sizes ++ h })) g e (h.any (· == 0))

/-- The next line of a map image read into its map, whose header the issue has read; a late fault sets the mark, and the map stays MERGED
with what it received; at its end an output index that no token reaches sets it (R229, R241, R490). -/
def loadMap (s : State) (g : Nat) (e : TileOp) : State :=
  let line := e.pos + 1
  let k := (segKey e.src (64 * line)).getD 0
  let s := if e.pos = 0 then onMap s g e.ctx e.td (fun m =>
      { m with best := [], dest := [], sizes := [], mark := if e.kind = .reload then m.mark else none }) else s
  if 256 < line then
    let dest := (s.fmap g e.ctx e.td).dest
    tileDone (badBody s g e ((List.range e.map.n').any (fun j => !dest.contains j))) g e id
  else
    portWait s e.n e.core [⟨64 * line, 64, k⟩] (fun s =>
      match readRun s e.actor k (ptrAdd ((e.args[0]?).getD 0) (64 * line)) 64 5 with
      | (s, .error f) => tileDone (markMap s g e f) g e id
      | (s, .ok l) => onTile (loadLine s g e line l) g e.n (fun e => { e with pos := line }))

/-- Whether an entry of the tile queue is the Fuller's. -/
def isFuller (k : TileKind) : Bool :=
  match k with
  | .tmatch | .tmerge | .tmsize | .tunmerge | .tmapcomp | .tmapsave | .tmapload | .reload => true
  | _ => false

/-- Whether the Fuller may perform an entry: it performs one at a time, the one under way or else the first that is ready (R244). -/
def fullerTurn (s : State) (g n : Nat) : Bool :=
  let q := (s.cluster g).tileq.filter (fun e => isFuller e.kind)
  match q.find? (fun e => decide (0 < e.pos) || e.fault.isSome) with
  | some e => e.n == n
  | none => (q.find? (fun e => (tileReady s g e.n).isSome)).map (·.n) == some n

/-- FULLER_OP_COMPLETE: entry `b` of the tile queue of cluster `a` that is the Fuller's is performed, its rows one by one; with
its last write its tl counters fall; one entry at a time (R232, R244). -/
def execFullerOpComplete (s : State) : Host.Outcome State Fault Refusal :=
  let g := s.subj.a
  match if fullerTurn s g s.subj.b then tileReady s g s.subj.b else none with
  | none => event s
  | some e =>
    match e.kind with
    | .tmatch => event (tmatchStep s g e)
    | .tmerge => event (tmergeStep s g e)
    | .tmsize => event (tmsizeStep s g e)
    | .tunmerge => event (tunmergeStep s g e)
    | .tmapcomp => event (tmapcompStep s g e)
    | .tmapsave => event (tmapsaveStep s g e)
    | .tmapload | .reload => event (loadMap s g e)
    | _ => event s

/-- MAP_RELOAD: the next reload of cluster `a` enters the tile queue ahead of the resumed task's entries; an identifier that finds
no free entry, or whose image cannot be read, becomes LOST (R243). -/
def execMapReload (s : State) : Host.Outcome State Fault Refusal :=
  let g := s.subj.a
  match (s.cluster g).reloads with
  | [] => event s
  | (x, id) :: rest =>
    let m := s.fmap g x id
    let next := s.onCluster g (fun c => { c with reloads := rest })
    if m.st ≠ .saved then event next
    else if 32 ≤ (s.cluster g).tileq.length then event s
    else if 32 ≤ entriesUsed (s.cluster g) then event (setMap next g x id { st := .lost })
    else
      let who := ctxActor s (16 * g) x
      match hardSegs s who 1 (mapSavePtr s g x id) mapBytes with
      | (t, .error _) => event (setMap (t.onCluster g (fun c => { c with reloads := rest })) g x id { st := .lost })
      | (t, .ok segs) =>
        let next := t.onCluster g (fun c => { c with reloads := rest })
        let e := { tileEntry s .reload with
                   td := id, args := [mapSavePtr s g x id], src := segs, map := m, wrM := [mapKey x id], core := 16 * g, slot := 0
                   task := 0, ctx := x, asid := who.asid, priv := who.priv, pc := 0, sup := false, fork := 0, hor := 0 }
        event ((setMap next.fresh g x id { m with st := .merged }).onCluster g (fun c => { c with tileq := c.tileq ++ [e] }))

end Sys2Proof.Machine
end

