-- ==== Sys2Proof/Machine/Inflate.lean ====
section
/-!
DEFINITION. The stages of the ingest chain on bytes: transfer decoding, decompression, character sets and byte-pair merging (R319-R321).
A stage works on the bytes that have come to it so far, and what it makes of them does not change as more come. Its failures are the causes
of Table 16.5.
-/

namespace Sys2Proof.Machine

open Sys2Proof

/-! ## Transfer decoding (R319) -/

/-- The value of a character of the base64 alphabet. -/
def b64Value (b : Byte) : Option Nat :=
  let n := b.toNat
  if 65 ≤ n ∧ n ≤ 90 then some (n - 65)
  else if 97 ≤ n ∧ n ≤ 122 then some (n - 71)
  else if 48 ≤ n ∧ n ≤ 57 then some (n + 4)
  else if n = 43 then some 62
  else if n = 47 then some 63
  else none

/-- What a decoder makes of its text: the bytes, and why it stops: 0 at the end, a cause of Table 16.5, or that the text ends too soon, 9 in
the compressed stream, 10 in the transfer encoding. -/
abbrev Made := List Byte × Nat

/-- Bytes before what a decoder makes of the rest. -/
def Made.after (l : List Byte) (m : Made) : Made := (l ++ m.1, m.2)

/-- Base64 without its CR, LF, space and tab: quanta of four characters, the last of which may be padded; anything else is cause 2. -/
def b64Quanta : List Byte → Made
  | [] => ([], 0)
  | a :: b :: c :: d :: t =>
    match b64Value a, b64Value b, b64Value c, b64Value d with
    | some w, some x, some y, some z =>
      let n := ((w * 64 + x) * 64 + y) * 64 + z
      (b64Quanta t).after [BitVec.ofNat 8 (n / 65536), BitVec.ofNat 8 (n / 256), BitVec.ofNat 8 n]
    | some w, some x, some y, none =>
      if d = 61 then ([BitVec.ofNat 8 (w * 4 + x / 16), BitVec.ofNat 8 (x * 16 + y / 4)], if t = [] then 0 else 2) else ([], 2)
    | some w, some x, none, none => if c = 61 ∧ d = 61 then ([BitVec.ofNat 8 (w * 4 + x / 16)], if t = [] then 0 else 2) else ([], 2)
    | _, _, _, _ => ([], 2)
  | l => ([], if l.all (fun b => (b64Value b).isSome || b == 61) then 10 else 2)

/-- A blank of base64 text. -/
def b64Blank (b : Byte) : Bool := b == 13 || b == 10 || b == 32 || b == 9

/-- Base64 undone. -/
def b64Decode (l : List Byte) : Made := b64Quanta (l.filter (fun b => !b64Blank b))

/-- The value of an upper-case hexadecimal digit. -/
def hexValue (b : Byte) : Option Nat :=
  let n := b.toNat
  if 48 ≤ n ∧ n ≤ 57 then some (n - 48) else if 65 ≤ n ∧ n ≤ 70 then some (n - 55) else none

/-- Whether only blanks stand before the next line break or the end of the text; none while the text so far does not tell. -/
def blankLine (final : Bool) : List Byte → Option Bool
  | [] => if final then some true else none
  | [13] => if final then some false else none
  | 13 :: 10 :: _ => some true
  | b :: t => if b = 32 ∨ b = 9 then blankLine final t else some false

/-- The text after a soft line break whose "=" has been read. -/
def afterSoft : List Byte → Option (List Byte)
  | 13 :: 10 :: t => some t
  | b :: t => if b = 32 ∨ b = 9 then afterSoft t else none
  | [] => none

/-- Whether the text after an "=" may still become a soft line break. -/
def maybeSoft : List Byte → Bool
  | [] => true
  | [13] => true
  | b :: t => (b == 32 || b == 9) && maybeSoft t

/-- Quoted-printable undone: soft line breaks go, and blanks at the end of a line (RFC 2045, rule 3; log 14). -/
def qpDecode (final : Bool) : Nat → List Byte → Made
  | 0, _ => ([], 0)
  | _, [] => ([], 0)
  | f + 1, b :: t =>
    if b = 61 then
      match afterSoft t with
      | some r => qpDecode final f r
      | none =>
        if maybeSoft t then ([], 10)
        else
        match t with
        | x :: y :: r =>
          match hexValue x, hexValue y with
          | some h, some l => (qpDecode final f r).after [BitVec.ofNat 8 (h * 16 + l)]
          | _, _ => ([], 2)
        | [x] => ([], if (hexValue x).isSome then 10 else 2)
        | [] => ([], 10)
    else if b = 32 ∨ b = 9 then
      match blankLine final t with
      | some true => qpDecode final f t
      | some false => (qpDecode final f t).after [b]
      | none => ([], 10)
    else (qpDecode final f t).after [b]

/-! ## DEFLATE (RFC 1951), zlib (RFC 1950) and gzip (RFC 1952) -/

/-- Bits of bytes, the least significant first. -/
def bitStream (l : List Byte) : List Bool := l.flatMap (fun b => (List.range 8).map (fun i => b.getLsbD i))

/-- A number of `n` bits, least significant first, and the bits after it; 9 where the text ends. -/
def takeBits : Nat → List Bool → Except Nat (Nat × List Bool)
  | 0, l => .ok (0, l)
  | _ + 1, [] => .error 9
  | n + 1, b :: t =>
    match takeBits n t with
    | .ok (v, l) => .ok ((if b then 1 else 0) + 2 * v, l)
    | .error e => .error e

/-- A canonical prefix code: how many codes have each length from 1 to 15, and the symbols by length and value. -/
structure Huff where
  counts : List Nat
  syms : List Nat
  deriving DecidableEq, Repr

/-- The code of some code lengths. -/
def huffOf (lens : List Nat) : Huff :=
  { counts := (List.range 15).map (fun l => lens.countP (· == l + 1))
    syms := (List.range 15).flatMap (fun l => (List.range lens.length).filter (fun i => lens[i]? == some (l + 1))) }

/-- Whether no length has more codes than are left for it. -/
def huffOk (h : Huff) : Bool := (h.counts.foldl (fun p c => (p.1 * 2 - c, p.2 && decide (c ≤ p.1 * 2))) (1, true)).2

/-- The next symbol: the code so far, the first code of the length and the symbols of the shorter ones; 1 for an invalid code. -/
def huffNext (syms : List Nat) : List Nat → Nat → Nat → Nat → List Bool → Except Nat (Nat × List Bool)
  | [], _, _, _, _ => .error 1
  | _, _, _, _, [] => .error 9
  | c :: cs, code, first, index, b :: t =>
    let code := code * 2 + (if b then 1 else 0)
    if code - first < c then (match syms[index + (code - first)]? with | some x => .ok (x, t) | none => .error 1)
    else huffNext syms cs code ((first + c) * 2) (index + c) t

/-- The next symbol of a code. -/
def huffSym (h : Huff) (l : List Bool) : Except Nat (Nat × List Bool) := huffNext h.syms h.counts 0 0 0 l

/-- Base lengths of the length codes from 257 and their extra bits. -/
def lenBase : List Nat :=
  [3, 4, 5, 6, 7, 8, 9, 10, 11, 13, 15, 17, 19, 23, 27, 31, 35, 43, 51, 59, 67, 83, 99, 115, 131, 163, 195, 227, 258]

/-- The extra bits of a length code. -/
def lenExtra (i : Nat) : Nat := if i < 8 ∨ i = 28 then 0 else i / 4 - 1

/-- The base distance of a distance code. -/
def distBase (i : Nat) : Nat := if i < 4 then i + 1 else (2 + i % 2) * 2 ^ (i / 2 - 1) + 1

/-- The extra bits of a distance code. -/
def distExtra (i : Nat) : Nat := if i < 4 then 0 else i / 2 - 1

/-- `n` bytes copied from a distance; the output stands newest first. -/
def copyBack (dist : Nat) : Nat → List Byte → List Byte
  | 0, out => out
  | n + 1, out => copyBack dist n ((out[dist - 1]?).getD 0 :: out)

/-- Output of a decompressor: the bits left, the bytes so far, newest first, and their number. -/
abbrev Inflated := List Bool × List Byte × Nat

/-- The length and distance after a length symbol. -/
def lenDist (dist : Huff) (sym : Nat) (l : List Bool) : Except Nat (Nat × Nat × List Bool) := do
  let base ← match lenBase[sym - 257]? with | some b => .ok b | none => .error 1
  let (x, l) ← takeBits (lenExtra (sym - 257)) l
  let (d, l) ← huffSym dist l
  if 30 ≤ d then .error 1
  else
    let (y, l) ← takeBits (distExtra d) l
    .ok (base + x, distBase d + y, l)

/-- A decompressor that stops: why, and its output so far, newest first. -/
abbrev Stop := Nat × List Byte

/-- The symbols of a block up to its end. -/
def inflateSyms (lit dist : Huff) (most : Nat) : Nat → Inflated → Except Stop Inflated
  | 0, (_, out, _) => .error (1, out)
  | f + 1, (l, out, n) =>
    match huffSym lit l with
    | .error e => .error (e, out)
    | .ok (sym, l) =>
      if sym < 256 then (if most ≤ n then .error (4, out) else inflateSyms lit dist most f (l, BitVec.ofNat 8 sym :: out, n + 1))
      else if sym = 256 then .ok (l, out, n)
      else
        match lenDist dist sym l with
        | .error e => .error (e, out)
        | .ok (len, d, l) =>
          if n < d then .error (1, out)
          else if most < n + len then .error (4, copyBack d (most - n) out)
          else inflateSyms lit dist most f (l, copyBack d len out, n + len)

/-- The order in which a dynamic block gives the lengths of its code-length code. -/
def clOrder : List Nat := [16, 17, 18, 0, 8, 7, 9, 6, 10, 5, 11, 4, 12, 3, 13, 2, 14, 1, 15]

/-- `n` numbers of three bits. -/
def takeTriples : Nat → List Bool → Except Nat (List Nat × List Bool)
  | 0, l => .ok ([], l)
  | n + 1, l => do
    let (x, l) ← takeBits 3 l
    let (xs, l) ← takeTriples n l
    .ok (x :: xs, l)

/-- The code lengths of a dynamic block, newest first, until `want` of them stand. -/
def takeLens (h : Huff) (want : Nat) : Nat → List Nat → List Bool → Except Nat (List Nat × List Bool)
  | 0, _, _ => .error 1
  | f + 1, lens, l =>
    if want ≤ lens.length then (if lens.length = want then .ok (lens.reverse, l) else .error 1)
    else
      match huffSym h l with
      | .error e => .error e
      | .ok (sym, l) =>
        if sym < 16 then takeLens h want f (sym :: lens) l
        else
          let (bits, base) := match sym with | 16 => (2, 3) | 17 => (3, 3) | _ => (7, 11)
          match takeBits bits l with
          | .error e => .error e
          | .ok (x, l) =>
            if sym = 16 then
              match lens with
              | [] => .error 1
              | p :: _ => takeLens h want f (List.replicate (base + x) p ++ lens) l
            else takeLens h want f (List.replicate (base + x) 0 ++ lens) l

/-- The two codes of a dynamic block. -/
def dynamicCodes (l : List Bool) : Except Nat (Huff × Huff × List Bool) := do
  let (hlit, l) ← takeBits 5 l
  let (hdist, l) ← takeBits 5 l
  let (hclen, l) ← takeBits 4 l
  let (cl, l) ← takeTriples (hclen + 4) l
  let code := huffOf ((List.range 19).map (fun i => ((clOrder.zip cl).find? (fun p => p.1 == i)).map (·.2) |>.getD 0))
  if !huffOk code then .error 1
  else
    let (lens, l) ← takeLens code (hlit + 257 + hdist + 1) (hlit + 257 + hdist + 2) [] l
    let lit := huffOf (lens.take (hlit + 257))
    let dist := huffOf (lens.drop (hlit + 257))
    if huffOk lit && huffOk dist then .ok (lit, dist, l) else .error 1

/-- The fixed codes. -/
def fixedLit : Huff :=
  huffOf (List.replicate 144 8 ++ List.replicate 112 9 ++ List.replicate 24 7 ++ List.replicate 8 8)

/-- The fixed distance code. -/
def fixedDist : Huff := huffOf (List.replicate 32 5)

/-- `n` bytes of a stored block. -/
def takeStored : Nat → List Bool → List Byte → Except Stop (List Bool × List Byte)
  | 0, l, out => .ok (l, out)
  | n + 1, l, out =>
    match takeBits 8 l with
    | .ok (v, l) => takeStored n l (BitVec.ofNat 8 v :: out)
    | .error e => .error (e, out)

/-- A stored block: its length and the length's complement, then its bytes. -/
def inflateStored (most : Nat) (x : Inflated) : Except Stop Inflated :=
  match takeBits 16 (x.1.drop (x.1.length % 8)) with
  | .error e => .error (e, x.2.1)
  | .ok (len, l) =>
    match takeBits 16 l with
    | .error e => .error (e, x.2.1)
    | .ok (nlen, l) =>
      if nlen ≠ 65535 - len then .error (1, x.2.1)
      else
        match takeStored (Nat.min len (most - x.2.2)) l x.2.1 with
        | .error e => .error e
        | .ok (l, out) => if most < x.2.2 + len then .error (4, out) else .ok (l, out, x.2.2 + len)

/-- The blocks of a DEFLATE stream up to the last. -/
def inflateBlocks (most : Nat) : Nat → Inflated → Except Stop Inflated
  | 0, (_, out, _) => .error (1, out)
  | f + 1, (l, out, n) =>
    match takeBits 3 l with
    | .error e => .error (e, out)
    | .ok (h, l) =>
      let r : Except Stop Inflated := match h / 2 with
        | 0 => inflateStored most (l, out, n)
        | 1 => inflateSyms fixedLit fixedDist most (l.length + 1) (l, out, n)
        | 2 =>
          match dynamicCodes l with
          | .error e => .error (e, out)
          | .ok (lit, dist, l) => inflateSyms lit dist most (l.length + 1) (l, out, n)
        | _ => .error (1, out)
      match r with
      | .error e => .error e
      | .ok x => if h % 2 = 1 then .ok x else inflateBlocks most f x

/-- A DEFLATE stream: its output, and the bytes after it or why it stops. -/
def inflate (most : Nat) (l : List Byte) : List Byte × Except Nat (List Byte) :=
  match inflateBlocks most (8 * l.length + 1) (bitStream l, [], 0) with
  | .error (e, out) => (out.reverse, .error e)
  | .ok (r, out, _) => (out.reverse, .ok (l.drop (l.length - r.length / 8)))

/-- ADLER-32 of bytes. -/
def adler32 (l : List Byte) : Nat :=
  let p := l.foldl (fun p b => let a := (p.1 + b.toNat) % 65521; (a, (p.2 + a) % 65521)) (1, 0)
  p.2 * 65536 + p.1

/-- A byte into CRC-32. -/
def crcByte (c : Nat) (b : Byte) : Nat :=
  (List.range 8).foldl (fun c _ => if c % 2 = 1 then c / 2 ^^^ 0xEDB88320 else c / 2) (c ^^^ b.toNat)

/-- CRC-32 of bytes. -/
def crc32 (l : List Byte) : Nat := l.foldl crcByte 0xFFFFFFFF ^^^ 0xFFFFFFFF

/-- A big-endian number. -/
def beNat (l : List Byte) : Nat := l.foldl (fun n b => n * 256 + b.toNat) 0

/-- A zlib stream (RFC 1950): a preset dictionary is cause 8. -/
def zlibDecode (most : Nat) : List Byte → Made
  | cmf :: flg :: t =>
    if cmf.toNat % 16 ≠ 8 ∨ 7 < cmf.toNat / 16 ∨ (cmf.toNat * 256 + flg.toNat) % 31 ≠ 0 then ([], 1)
    else if flg.toNat / 32 % 2 = 1 then ([], 8)
    else
      match inflate most t with
      | (out, .error e) => (out, e)
      | (out, .ok r) => (out, if r.length < 4 then 9 else if beNat (r.take 4) ≠ adler32 out then 1 else 0)
  | _ => ([], 9)

/-- The text after a zero byte; 9 where there is none. -/
def afterZero : List Byte → Except Nat (List Byte)
  | [] => .error 9
  | b :: t => if b = 0 then .ok t else afterZero t

/-- The text after its first `n` bytes; 9 where it is shorter. -/
def afterBytes (n : Nat) (l : List Byte) : Except Nat (List Byte) := if l.length < n then .error 9 else .ok (l.drop n)

/-- What follows the header of a gzip member (RFC 1952): FEXTRA, FNAME and FCOMMENT skipped, a header CRC checked. -/
def gzipBody (l : List Byte) : Except Nat (List Byte) :=
  let f := ((l[3]?).getD 0).toNat
  if l.take 3 ≠ ([31, 139, 8] : List Byte).take l.length ∨ 32 ≤ f then .error 1
  else do
    let t ← afterBytes 10 l
    let t ← if f / 4 % 2 = 1 then (do let u ← afterBytes 2 t; afterBytes (leNat (t.take 2)) u) else .ok t
    let t ← if f / 8 % 2 = 1 then afterZero t else .ok t
    let t ← if f / 16 % 2 = 1 then afterZero t else .ok t
    if f / 2 % 2 = 1 then
      let u ← afterBytes 2 t
      if leNat (t.take 2) ≠ crc32 (l.take (l.length - t.length)) % 65536 then .error 1 else .ok u
    else .ok t

/-- The members of a gzip stream, one or more, at most `fuel` of them. -/
def gzipDecode (most : Nat) : Nat → List Byte → Made
  | 0, _ => ([], 1)
  | f + 1, l =>
    match gzipBody l with
    | .error e => ([], e)
    | .ok t =>
      match inflate most t with
      | (out, .error e) => (out, e)
      | (out, .ok r) =>
        if r.length < 8 then (out, 9)
        else if leNat (r.take 4) ≠ crc32 out ∨ leNat ((r.drop 4).take 4) ≠ out.length % 2 ^ 32 then (out, 1)
        else if r.length = 8 then (out, 0)
        else (gzipDecode (most - out.length) f (r.drop 8)).after out

/-- The inflate stage on the source bytes so far, all of them where `final`: TENC undone, then COMP (R319). Where the compressed stream wants
more than the transfer encoding gives, it is this that stops it. -/
def inflateStage (tenc comp most : Nat) (final : Bool) (l : List Byte) : Made :=
  let plain : Made := match tenc with
    | 0 => (l, 0)
    | 1 => b64Decode l
    | _ => qpDecode final (l.length + 1) l
  let out : Made := match comp with
    | 0 => (plain.1.take most, if most < plain.1.length then 4 else 0)
    | 1 => (match inflate most plain.1 with | (out, .error e) => (out, e) | (out, .ok _) => (out, 0))
    | 2 => zlibDecode most plain.1
    | _ => gzipDecode most (plain.1.length + 1) plain.1
  (out.1, if (out.2 = 0 ∨ out.2 = 9) ∧ plain.2 ≠ 0 then plain.2 else out.2)

/-! ## Character sets (R320, Table 16.3) -/

/-- A code point that stands for a character. -/
def scalarOk (c : Nat) : Bool := decide (c ≤ 0x10FFFF) && !(decide (0xD800 ≤ c) && decide (c ≤ 0xDFFF))

/-- A code point in UTF-8. -/
def utf8 (c : Nat) : List Byte :=
  let b := fun (n : Nat) => BitVec.ofNat 8 n
  let t := fun (n : Nat) => BitVec.ofNat 8 (128 + n % 64)
  if c < 0x80 then [b c]
  else if c < 0x800 then [b (0xC0 + c / 64), t c]
  else if c < 0x10000 then [b (0xE0 + c / 4096), t (c / 64), t c]
  else [b (0xF0 + c / 262144), t (c / 4096), t (c / 64), t c]

/-- Whether the next `n` bytes are continuation bytes. -/
def utf8Tail (n : Nat) (l : List Byte) : Bool := (l.take n).length == n && (l.take n).all (fun b => b.toNat / 64 == 2)

/-- The character at the head of UTF-8 text, and its bytes; none for an invalid sequence. -/
def utf8Head (l : List Byte) : Option (Nat × Nat) :=
  match l with
  | [] => none
  | b :: t =>
    let v := b.toNat
    let x := fun (i : Nat) => ((t[i]?).getD 0).toNat % 64
    let keep := fun (lo c n : Nat) => if utf8Tail n t && decide (lo ≤ c) && scalarOk c then some (c, n + 1) else none
    if v < 0x80 then some (v, 1)
    else if 0xC0 ≤ v ∧ v < 0xE0 then keep 0x80 (v % 32 * 64 + x 0) 1
    else if 0xE0 ≤ v ∧ v < 0xF0 then keep 0x800 (v % 16 * 4096 + x 0 * 64 + x 1) 2
    else if 0xF0 ≤ v ∧ v < 0xF8 then keep 0x10000 (v % 8 * 262144 + x 0 * 4096 + x 1 * 64 + x 2) 3
    else none

/-- A number of some bytes in an order. -/
def unitNat (big : Bool) (l : List Byte) : Nat := if big then beNat l else leNat l

/-- The character at the head of UTF-16 text. -/
def utf16Head (big : Bool) (l : List Byte) : Option (Nat × Nat) :=
  if l.length < 2 then none
  else
    let h := unitNat big (l.take 2)
    if h < 0xD800 ∨ 0xDFFF < h then some (h, 2)
    else
      let w := unitNat big ((l.drop 2).take 2)
      if h < 0xDC00 ∧ 4 ≤ l.length ∧ 0xDC00 ≤ w ∧ w ≤ 0xDFFF then some (0x10000 + (h - 0xD800) * 1024 + (w - 0xDC00), 4) else none

/-- The character at the head of UTF-32 text. -/
def utf32Head (big : Bool) (l : List Byte) : Option (Nat × Nat) :=
  if l.length < 4 then none else if scalarOk (unitNat big (l.take 4)) then some (unitNat big (l.take 4), 4) else none

/-- The bytes that an invalid sequence takes: a unit of UTF-16 or UTF-32, else a free number of 1 to 4, which the spec does not give
(log 14). -/
def badLen (cs : Nat) (l : List Byte) : Nat :=
  match cs with
  | 0 | 31 | 32 | 33 => Nat.max 1 (Nat.min (Config.charLen cs (l.take 4)) 4)
  | 1 | 2 => 2
  | 4 | 5 => 4
  | _ => 1

/-- The character at the head of text in a character set, and its bytes: none where it is invalid or unmapped. -/
def charHead (cs : Nat) (table : List Nat) (l : List Byte) : Option (Nat × Nat) :=
  let b := fun (i : Nat) => ((l[i]?).getD 0).toNat
  match cs with
  | 0 => utf8Head l
  | 1 => utf16Head false l
  | 2 => utf16Head true l
  | 4 => utf32Head false l
  | 5 => utf32Head true l
  | 6 => some (b 0, 1)
  | 31 => sjisChar (b 0) (b 1)
  | 32 => eucKrChar (b 0) (b 1)
  | 33 => gbChar (b 0) (b 1) (b 2) (b 3)
  | 34 => some ((table[b 0]?).getD 0, 1)
  | cs => singleChar cs (b 0)

/-- Whole characters of text, as many as come to it and fit in `room` bytes of UTF-8: what they make, the text left, and cause 3 where an
invalid sequence stops it under STRICT; it is U+FFFD otherwise. Text that is not all there keeps its last bytes, of which a character may
still need more. -/
def transcodeRun (cs : Nat) (strict : Bool) (table : List Nat) (final : Bool) : Nat → Nat → List Byte → List Byte × List Byte × Nat
  | 0, _, l => ([], l, 0)
  | f + 1, room, l =>
    if l.isEmpty || (!final && decide (l.length < 4)) || decide (room < 4) then ([], l, 0)
    else
      match charHead cs table l, strict with
      | none, true => ([], l, 3)
      | r, _ =>
        let (c, n) := r.getD (0xFFFD, badLen cs l)
        let u := utf8 c
        let (out, rest, e) := transcodeRun cs strict table final f (room - u.length) (l.drop n)
        (u ++ out, rest, e)

/-- The character set of a message by its first bytes, UTF-16's from its byte-order mark, and the bytes after a leading U+FEFF, which is
dropped (R320). -/
def textStart (cs : Nat) (table : List Nat) (l : List Byte) : Nat × List Byte :=
  let cs := if cs = 3 then (if l.take 2 = [0xFF, 0xFE] then 1 else 2) else cs
  match charHead cs table l with
  | some (0xFEFF, n) => (cs, l.drop n)
  | _ => (cs, l)

/-! ## Tokenise (R321) -/

/-- The class of a byte: L, D, S or O as 0 to 3. -/
def byteClass (b : Byte) : Nat :=
  let n := b.toNat
  if (65 ≤ n ∧ n ≤ 90) ∨ (97 ≤ n ∧ n ≤ 122) ∨ 128 ≤ n then 0
  else if 48 ≤ n ∧ n ≤ 57 then 1
  else if n = 32 then 2
  else 3

/-- Whether a piece ends between two bytes. -/
def cutsHere (a b : Byte) : Bool :=
  byteClass a != byteClass b && !(byteClass a == 2 && decide (byteClass b ≤ 1))

/-- The next piece of the text, and the text after it: the piece so far stands newest first with its length; none while it may go on. -/
def nextPiece (final : Bool) : List Byte → List Byte → Nat → Option (List Byte × List Byte)
  | [], cur, _ => if final && !cur.isEmpty then some (cur.reverse, []) else none
  | b :: t, [], _ => nextPiece final t [b] 1
  | b :: t, a :: cur, n =>
    if cutsHere a b || decide (4096 ≤ n) then some ((a :: cur).reverse, b :: t) else nextPiece final t (b :: a :: cur) (n + 1)

/-- The adjacent pair whose merge entry is least, leftmost on ties: the entry and the position. -/
def bestPair (merges : List (Nat × Nat)) : Nat → List Nat → Option (Nat × Nat)
  | p, x :: y :: t =>
    let later := bestPair merges (p + 1) (y :: t)
    match merges.findIdx? (fun e => e == (x, y)), later with
    | some i, some (j, q) => if i ≤ j then some (i, p) else some (j, q)
    | some i, none => some (i, p)
    | none, r => r
  | _, _ => none

/-- The pair at a position replaced by an id. -/
def mergeAt (id : Nat) : Nat → List Nat → List Nat
  | 0, _ :: _ :: t => id :: t
  | p + 1, x :: t => x :: mergeAt id p t
  | _, l => l

/-- The merges within a piece. -/
def mergePiece (merges : List (Nat × Nat)) : Nat → List Nat → List Nat
  | 0, l => l
  | f + 1, l => match bestPair merges 0 l with | none => l | some (i, p) => mergePiece merges f (mergeAt (256 + i) p l)

/-- The ids of a piece. -/
def pieceIds (merges : List (Nat × Nat)) (l : List Byte) : List Nat := mergePiece merges l.length (l.map (·.toNat))

end Sys2Proof.Machine
end

