-- ==== Sys2Proof/Machine/Ingest.lean ====
section
/-!
DEFINITION. The ingest chain of a die: profiles, messages, their stages, rows under permits and the quarantine path (R314-R324, R406,
R407). Stages pass bytes on through queues of 64 KiB.
-/

namespace Sys2Proof.Machine

open Sys2Proof

/-! ## Profiles (R314-R316) -/

/-- The profile of a number on a die, nothing configured where nobody owns it. -/
def profileOf (s : State) (d p : Nat) : Option Profile := mapGet? (s.die d).profiles p

/-- Whether another context owns a profile. -/
def profileTaken (s : State) (d p x : Nat) : Bool := match profileOf s d p with | some r => r.owner != x | none => false

/-- Merges that the profiles of a die hold, those of one profile apart. -/
def mergesBut (s : State) (d p : Nat) : Nat :=
  (((s.die d).profiles.filter (fun e => e.1 != p)).map (fun e => match e.2.tokenise with | some l => l.length | none => 0)).sum

/-- Whether the configuration block is within Table 16.2: its number of bytes as a number, by stage. -/
def blockOk (stage n : Nat) : Bool :=
  let w0 := nbits n 63 0
  let w1 := nbits n 127 64
  let zero := decide (n < 2 ^ 128)
  let table := fun (align : Nat) => tagOf (word w1) == 4 && fieldsOk (word w1) && w1 % align == 0
  match stage with
  | 0 => zero && decide (w0 < 16) && w1 == 0 && nbits w0 1 0 != 3
  | 1 => zero && decide (w0 < 128) && decide (nbits w0 5 0 ≤ 34) && (if nbits w0 5 0 = 34 then table 1 else w1 == 0)
  | _ => zero && decide (w0 ≤ 262144) && table 8

/-- The first entry of a table that fails a check, by its index. -/
def firstBad (ok : Nat → Nat → Bool) : Nat → List Nat → Option Nat
  | _, [] => none
  | i, x :: t => if ok i x then firstBad ok (i + 1) t else some i

/-- A table read for the chain: `n` entries of `w` bytes, each checked; BOUND carries the address of the first bad one (R316). -/
def readTable (s : State) (p : Word) (w n : Nat) (ok : Nat → Nat → Bool) (k : List Nat → State → Res) : Res :=
  translated (rangePages p (w * n)) (fun s =>
    match rangeSegs s s.actor 1 p (w * n) with
    | .error (c, sub, tval) => .trap s c sub tval
    | .ok segs =>
      if !segs.all (fun g => settled s g.key g.len) || !segsFree s segs then .stall s .retry
      else
        match readSegs s s.actor p segs with
        | (s, .error (c, sub, tval)) => .trap s c sub tval
        | (s, .ok l) =>
          match firstBad ok 0 (unpack w n l) with
          | some i => .trap s .bound 0 (ptrAdd p (w * i))
          | none => k (unpack w n l) s) s

/-- A profile's stage loaded. -/
def setProfile (s : State) (d p : Nat) (f : Profile → Profile) : State :=
  let old := (profileOf s d p).getD ⟨s.me.ctx, none, none, none⟩
  s.onDie d (fun x => { x with profiles := mapSet x.profiles p (f old) })

/-- A stage configured from its block (R315, R316). -/
def loadStage (d p stage n : Nat) (sa : Word) (s : State) : Res :=
  let w0 := nbits n 63 0
  let w1 := word (nbits n 127 64)
  match stage with
  | 0 => .ok (setProfile s d p (fun r => { r with inflate := some (nbits w0 1 0, nbits w0 3 2) }))
  | 1 =>
    let cs := nbits w0 5 0
    let keep := fun (l : List Nat) (s : State) => Res.ok (setProfile s d p (fun r => { r with transcode := some (cs, w0 / 64 % 2 == 1, l) }))
    if cs = 34 then readTable s w1 4 256 (fun _ c => scalarOk c) keep else keep [] s
  | _ =>
    if 524288 < mergesBut s d p + w0 then .trap s .bound 0 sa
    else
      readTable s w1 8 w0 (fun i e => decide (nbits e 31 0 < 256 + i) && decide (nbits e 63 32 < 256 + i)) (fun l s =>
        .ok (setProfile s d p (fun r => { r with tokenise := some (l.map (fun e => (nbits e 31 0, nbits e 63 32))) })))

/-- Whether an INGCFG of a profile of a die waits: for a message submitted before a number that names it, or for an INGCFG of it that was
issued earlier and still waits (R315, R406). -/
def profileBusy (s : State) (d p n : Nat) : Bool :=
  (s.die d).ingest.any (fun m => m.profile == p && decide (m.fork < n)) ||
    s.cores.any (fun k => dieOf k.1 == d && k.2.slots.toList.any (fun t =>
      t.st == .stalled && (match t.cfgFrom with | some (j, q) => q == p && decide (j < n) | none => false)))

/-- The running strand's INGCFG with its number among messages and INGCFGs: that of its first issue (R315, R406). -/
def numbered (s : State) (p : Nat) : State :=
  if s.me.cfgFrom.isSome then s else s.fresh.onMe (fun t => { t with cfgFrom := some (s.nextId, p) })

/-- A 64-byte block that an instruction reads as a load at its own short stall: SPACE for the spaces given, then the load's checks; it
waits for the strand's earlier accesses to the block (R161). -/
def blockAt (tags : List Nat) (p : Word) (k : Nat → State → Res) (s : State) : Res :=
  if !tags.contains (tagOf p) then .trap s .space 0 p
  else
    access .load [{ lane := 0, ptr := p, n := 64 }] (fun ps s =>
      match ps with
      | q :: _ =>
        if !settled s q.key 64 then .stall s .retry
        else
        match applyRead (touchKey s s.me.ctx q.key) q.key 64 with
        | (s, none) => .trap s .poison 0 p
        | (s, some n) => k n s
      | [] => .stall s .retry) s

/-- INGCFG (R315, R316, R406): its checks, then the wait for earlier messages that name the profile. -/
def execIngcfg (a b : BitVec 5) (y : Bool) (s : State) : Host.Outcome State Fault Refusal :=
  finish 4 (guard [rdS s.me a y, rdS s.me b false] (fun s =>
    let p := s.me.rs a y
    let v := s.me.rs b false
    let d := dieOf s.cur.1
    let n := bits v 3 0
    let s := numbered s n
    let from' := (s.me.cfgFrom.getD (0, 0)).1
    let slot := fun (k : State → Res) (s : State) =>
      if profileTaken s d n s.me.ctx then .trap s .slot 0 (word (64 + n))
      else if bits v 63 7 ≠ 0 ∨ bits v 5 4 = 3 then .trap s .bound 0 v
      else k s
    if bits v 6 6 = 1 then
      slot (fun s => if profileBusy s d n from' then .stall s .retry
        else .ok (s.onDie d (fun x => { x with profiles := mapDel x.profiles n }))) s
    else
      blockAt [4] p (fun block s => slot (fun s =>
        if !blockOk (bits v 5 4) block then .trap s .bound 0 p
        else if profileBusy s d n from' then .stall s .retry
        else loadStage d n (bits v 5 4) block p s) s) s) s)

/-! ## Messages (R317) -/

/-- Whether a descriptor's fields are within Table 16.4. -/
def ingestOk (n : Nat) : Bool :=
  let src := word (nbits n 63 0)
  let outq := word (nbits n 191 128)
  let quarq := word (nbits n 255 192)
  let done := word (nbits n 319 256)
  let data := fun (p : Word) => (tagOf p == 0 || tagOf p == 4 || tagOf p == 6) && fieldsOk p
  data src && nbits n 95 64 != 0 && (ptrCheck .queue outq).isNone && (quarq == 0 || (ptrCheck .queue quarq).isNone) &&
    (done == 0 || (data done && done.toNat % 8 == 0)) && nbits n 375 374 == 0 && decide (n < 2 ^ 376)

/-- Whether the profile has every stage that a descriptor keeps. -/
def stagesReady (r : Profile) (skipI skipT : Bool) : Bool :=
  (skipI || r.inflate.isSome) && (skipT || r.transcode.isSome) && r.tokenise.isSome

/-- The message of a descriptor. -/
def ingestOf (s : State) (d n : Nat) : Ingest :=
  { ticket := d * 2 ^ 32 + (s.die d).tickets % 2 ^ 32, stage := 0, task := s.me.task, fork := s.nextId, core := s.cur.1, ctx := s.me.ctx,
    asid := s.me.asid, priv := s.me.priv, src := word (nbits n 63 0), len := nbits n 95 64, tag := nbits n 127 96,
    outq := word (nbits n 191 128), quarq := word (nbits n 255 192), doneP := word (nbits n 319 256),
    outmax := if nbits n 351 320 = 0 then 2 ^ 32 - 1 else nbits n 351 320,
    timeout := if nbits n 367 352 = 0 then 10000 else nbits n 367 352, profile := nbits n 371 368,
    skipInflate := nbits n 372 372 == 1, skipTranscode := nbits n 373 373 == 1, emitted := 0, rows := 0,
    permits := 0, waitFrom := none, retryAt := 0, work := 0, cause := 0, failed := 0, causeTime := 0, tc := 0, hor := s.me.hor }

/-- INGQ (R317, R407): the descriptor is checked and the message enters the input queue, at which cp, risen, falls again. -/
def execIngq (d a : BitVec 5) (x y : Bool) (s : State) : Host.Outcome State Fault Refusal :=
  finish 4 (guard [rdS s.me a y, wrS s.me d x] (fun s =>
    let p := s.me.rs a y
    let die := dieOf s.cur.1
    blockAt [0, 4] p (fun n s =>
      if !ingestOk n then .trap s .bound 0 p
      else
        let m := ingestOf s die n
        match profileOf s die m.profile with
        | none => .trap s .slot 0 (word (64 + m.profile))
        | some r =>
          if r.owner ≠ s.me.ctx ∨ !stagesReady r m.skipInflate m.skipTranscode then .trap s .slot 0 (word (64 + m.profile))
          else if 256 ≤ ((s.die die).ingest.filter (fun m => m.stage == 0)).length then .stall s .retry
          else
            let s := s.fresh.onDie die (fun x => { x with ingest := x.ingest ++ [m], tickets := (x.tickets + 1) % 2 ^ 32 })
            .ok (s.onMe (fun t => { t.ws d x (word m.ticket) with repCp := Nat.max t.repCp s.devtime }))) s) s)

/-! ## The stages (R318-R321) -/

/-- A message replaced. -/
def putIngest (s : State) (d : Nat) (m : Ingest) : State :=
  s.onDie d (fun x => { x with ingest := x.ingest.map (fun y => if y.ticket = m.ticket then m else y) })

/-- A message that meets a cause stops at once, and what its stages still hold of it is gone (R324). -/
def quarantine (s : State) (d : Nat) (m : Ingest) (cause stage : Nat) : State :=
  putIngest s d { m with stage := 3, cause := cause, failed := stage, causeTime := s.devtime, raw := [], q1 := [], q2 := [], ids := []
                         waitFrom := none }

/-- A message's profile. -/
def profileIn (s : State) (d : Nat) (m : Ingest) : Profile := (profileOf s d m.profile).getD ⟨m.ctx, none, none, none⟩

/-- The messages of a chain before one. -/
def messagesBefore (s : State) (d : Nat) (m : Ingest) : List Ingest := (s.die d).ingest.takeWhile (fun x => x.ticket != m.ticket)

/-- Room in the queue of 64 KiB before transcode, and in that before tokenise (R323). -/
def room1 (s : State) (d : Nat) : Nat := 65536 - ((s.die d).ingest.map (fun m => m.q1.length)).sum
def room2 (s : State) (d : Nat) : Nat := 65536 - ((s.die d).ingest.map (fun m => m.q2.length)).sum

/-- What inflate has made of a message's source so far, and the bytes of it that it has still to put out. -/
def inflated (s : State) (d : Nat) (m : Ingest) : List Byte × Nat :=
  let conf := if m.skipInflate then (0, 0) else ((profileIn s d m).inflate).getD (0, 0)
  let made := inflateStage conf.1 conf.2 (if m.skipInflate then m.len else m.outmax) (decide (m.len ≤ m.raw.length)) m.raw
  (made.1.drop m.put, made.2)

/-- The message on which inflate works now: the oldest that it is not done with, one from the input queue once the release at its fork is
made and no earlier message has a cause still to be dealt with; it waits while bytes find no room (R318, R323, R324). -/
def inflating (s : State) (d : Nat) : Option Ingest :=
  match (s.die d).ingest.find? (fun m => decide (m.stage ≤ 1) && !m.inDone) with
  | none => none
  | some m =>
    if m.stage = 0 then
      (if !(messagesBefore s d m).any (fun x => x.cause != 0 && x.stage == 3) && forked s m.task m.fork m.hor true then some m else none)
    else if (inflated s d m).1.isEmpty || decide (0 < room1 s d) then some m
    else none

/-- The next part of a message's source, up to the end of its piece, read for its context (R318). -/
def sourceNext (s : State) (m : Ingest) : State × Option (Except Flt (List Byte)) :=
  let a : Actor := ⟨m.core, m.ctx, m.asid, m.priv⟩
  let p := ptrAdd m.src m.raw.length
  let n := Nat.min (m.len - m.raw.length) (pieceLeft p)
  match hardSegs s a 1 p n with
  | (s, .error f) => (s, some (.error f))
  | (s, .ok segs) =>
    if !segsFree s segs then (s, none)
    else let (s, r) := readSegs s a p segs; (s, some r)

/-- INGEST_INFLATE: the inflate stage of die `a` goes on with its message: it passes on the bytes that it has, as far as there is room, or
reads on in the source; it stops with its cause, cause 7 for a fault on the source, or is done (R318, R319). -/
def execIngestInflate (s : State) : Host.Outcome State Fault Refusal :=
  let d := s.subj.a
  match inflating s d with
  | none => event s
  | some m =>
    let (out, stop) := inflated s d m
    if !out.isEmpty then
      let l := out.take (room1 s d)
      event (putIngest s d { m with q1 := m.q1 ++ l, put := m.put + l.length })
    else if 1 ≤ stop ∧ stop ≤ 8 then event (quarantine s d m stop 0)
    else if m.raw.length < m.len then
      match sourceNext s m with
      | (s, none) => event s
      | (s, some (.error _)) => event (quarantine s d m 7 0)
      | (s, some (.ok l)) => event (putIngest s d { m with stage := 1, raw := m.raw ++ l })
    else if stop = 0 then event (putIngest s d { m with inDone := true })
    else event (quarantine s d m (if stop = 10 then 2 else 1) 0)

/-- The message on which transcode works now: the oldest past which inflate has begun; it waits for bytes, of which a whole character needs
at most four, and for room (R318, R323). -/
def transcoding (s : State) (d : Nat) : Option Ingest :=
  match (s.die d).ingest.find? (fun m => m.stage == 1 && !m.trDone) with
  | none => none
  | some m => if m.inDone || (decide (4 ≤ m.q1.length) && decide (4 ≤ room2 s d)) then
      (if m.q1.isEmpty || decide (4 ≤ room2 s d) then some m else none) else none

/-- INGEST_TRANSCODE: the transcode stage of die `a` goes on with its message: the characters that have come become UTF-8, as far as there
is room; cause 3 stops it (R320). -/
def execIngestTranscode (s : State) : Host.Outcome State Fault Refusal :=
  let d := s.subj.a
  match transcoding s d with
  | none => event s
  | some m =>
    if m.q1.isEmpty then event (putIngest s d { m with trDone := true })
    else
      let conf := if m.skipTranscode then none else (profileIn s d m).transcode
      match conf with
      | none =>
        let n := Nat.min m.q1.length (room2 s d)
        event (putIngest s d { m with q1 := m.q1.drop n, q2 := m.q2 ++ m.q1.take n })
      | some (cs, strict, table) =>
        let (cs, l) := match m.cs with | some cs => (cs, m.q1) | none => textStart cs table m.q1
        let (out, rest, e) := transcodeRun cs strict table m.inDone m.q1.length (room2 s d) l
        let m := { m with cs := some cs, q1 := rest, q2 := m.q2 ++ out }
        event (if e = 0 then putIngest s d m else quarantine s d m e 1)

/-- The message on which tokenise works now, with its next piece: the oldest that it is not done with, every earlier one having pushed its
rows; it waits while ids for 64 rows stand (R318, R323). -/
def tokenising (s : State) (d : Nat) : Option (Ingest × Option (List Byte × List Byte)) :=
  match (s.die d).ingest.find? (fun m => decide (m.stage ≤ 1) && !m.tkDone) with
  | none => none
  | some m =>
    if m.stage = 0 ∨ (messagesBefore s d m).any (fun x => x.stage != 4) ∨ 896 ≤ m.ids.length then none
    else
      match nextPiece m.trDone m.q2 [] 0 with
      | some x => some (m, some x)
      | none => if m.trDone && m.q2.isEmpty then some (m, none) else none

/-- INGEST_TOKENISE: the tokenise stage of die `a` goes on with its message: its next piece becomes ids, or it is done (R321). -/
def execIngestTokenise (s : State) : Host.Outcome State Fault Refusal :=
  let d := s.subj.a
  match tokenising s d with
  | none => event s
  | some (m, none) => event (putIngest s d { m with tkDone := true })
  | some (m, some (l, rest)) =>
    event (putIngest s d { m with q2 := rest, ids := m.ids ++ pieceIds (((profileIn s d m).tokenise).getD []) l })

/-- The stage that a message is at: the first that is not done with it. -/
def firstStage (m : Ingest) : Nat := if !m.inDone then 0 else if !m.trDone then 1 else 2

/-- Whether a message has had more stage work than its TIMEOUT allows (R323). -/
def overworked (m : Ingest) : Bool := decide (m.stage ≤ 1) && decide (m.timeout * 1000 < m.work)

/-- INGEST_TIMEOUT: a message of die `a` has had more stage work than its TIMEOUT allows: cause 5, at the first stage that is not done with
it, the model's choice where several work on it (R323, log 14). -/
def execIngestTimeout (s : State) : Host.Outcome State Fault Refusal :=
  match (s.die s.subj.a).ingest.find? overworked with
  | none => event s
  | some m => event (quarantine s s.subj.a m 5 (firstStage m))

/-! ## Rows, permits and the end of a message (R322-R324) -/

/-- A request of the chain to the home of a queue object for its message's context: what the home answers, nothing where it refuses. -/
def chainCall (s : State) (d : Nat) (m : Ingest) (h : Word) (k : OpKind) (serve : State → Op → Nat → State) :
    State × Option (List Nat) × Nat :=
  let o : Op := { id := s.nextId, kind := k, core := 8192 + d, slot := 0, task := 0, ctx := m.ctx, asid := m.asid, priv := m.priv,
                  pc := 0, ptr := h }
  match elementKey s o 2 h with
  | .error _ => (s, none, 0)
  | .ok line =>
    let o := { o with pieces := [{ key := line, n := 64, ptr := h }] }
    let s := serve { s.fresh with ops := s.ops ++ [o] } o line
    (dropOp s o.id, (findOp s o.id).bind (fun o => if (opFault o).isSome then none else o.answer), ((findOp s o.id).map (·.tc)).getD 0)

/-- Permits asked for: how many are granted (R194, R323). -/
def chainPermit (s : State) (d : Nat) (m : Ingest) (h : Word) (want : Nat) : State × Nat :=
  match chainCall s d m h (.permit want) (fun s o line => servePermit s o line want) with
  | (s, some [g], _) => (s, g)
  | (s, _, _) => (s, 0)

/-- An element of 64 bytes pushed: whether the home took it, and the completion time (R195). -/
def chainPush (s : State) (d : Nat) (m : Ingest) (h : Word) (n : Nat) : State × Bool × Nat :=
  let data := (List.range 8).map (fun i => word (n / 2 ^ (64 * i)))
  match chainCall s d m h (.qpush 64 data 0 none) (fun s o line => servePush s o line 64 data none) with
  | (s, some [1], tc) => (s, true, tc)
  | (s, _, _) => (s, false, 0)

/-- A row (R322). -/
def rowNat (tag flags : Nat) (ids : List Nat) : Nat :=
  tag % 2 ^ 32 + ids.length * 2 ^ 32 + flags * 2 ^ 48 + 2 ^ 64 * packNat 32 ids

/-- Rows of a message that stand to be pushed: fourteen ids each; while more ids may come the last of them is not known, and once no more
come there is one at least (R322). -/
def rowsReady (m : Ingest) : Nat := if m.tkDone then Nat.max 1 ((m.ids.length + 13) / 14) else (m.ids.length - 1) / 14

/-- The quarantine record (Table 16.6); the offset reached in the source is free, up to its end (log 14). -/
def quarantineNat (m : Ingest) (offset : Nat) : Nat :=
  m.tag + m.cause * 2 ^ 32 + m.failed * 2 ^ 40 + m.ticket % 2 ^ 64 * 2 ^ 64 + m.src.toNat * 2 ^ 128 + offset % (m.len + 1) * 2 ^ 192 +
    m.emitted % 2 ^ 64 * 2 ^ 256 + m.causeTime % 2 ^ 64 * 2 ^ 320

/-- The DONE write, a release store, and the end of the message (R318). -/
def finishIngest (s : State) (d : Nat) (m : Ingest) : State :=
  let v := (if m.cause = 0 then 1 else 2) + m.cause * 2 ^ 8 + m.emitted % 2 ^ 32 * 2 ^ 32
  let s := if m.doneP = 0 then s else storeStatus s ⟨m.core, m.ctx, m.asid, m.priv⟩ m.doneP (word v)
  s.onDie d (fun x => { x with ingest := x.ingest.filter (fun y => y.ticket != m.ticket) })

/-- The record of a quarantined message, where QUARQ is given and a permit granted; its rows are then over (R324). -/
def quarantineRecord (s : State) (d : Nat) (m : Ingest) : State :=
  let m := { m with stage := 4, permits := 0, waitFrom := none }
  if m.quarq = 0 then putIngest s d m
  else
    match chainPermit s d m m.quarq 1 with
    | (s, 0) => putIngest s d m
    | (s, _ + 1) =>
      let (s, _, tc) := chainPush s d m m.quarq (quarantineNat m (Config.ingestOffset s.tick))
      putIngest s d { m with tc := Nat.max m.tc tc }

/-- The final row of a quarantined message, under a permit that it holds or asks for; refused, it is asked for again each microsecond, and
at `last` the chain goes on without it (R323, R324; log 14). -/
def finalRow (s : State) (d : Nat) (m : Ingest) (last : Bool) : State :=
  let (s, g) := if m.permits = 0 then chainPermit s d m m.outq 1 else (s, m.permits)
  let (s, ok, tc) := if g = 0 then (s, false, 0) else chainPush s d m m.outq (rowNat m.tag 3 [])
  if ok ∨ last then quarantineRecord s d { m with tc := Nat.max m.tc tc }
  else putIngest s d { m with permits := 0, waitFrom := some (m.waitFrom.getD s.devtime), retryAt := s.devtime + 1000 }

/-- Permits taken for the rows that stand to be pushed, at most 64 at a time; a refusal begins the message's wait, asked again each
microsecond (R323). -/
def askPermits (s : State) (d : Nat) (m : Ingest) : State :=
  match chainPermit s d m m.outq (Nat.min 64 (rowsReady m)) with
  | (s, 0) => putIngest s d { m with waitFrom := some (m.waitFrom.getD s.devtime), retryAt := s.devtime + 1000 }
  | (s, g) => putIngest s d { m with permits := g, waitFrom := none }

/-- Whether the row that a message pushes next is its last. -/
def lastRow (m : Ingest) : Bool := m.tkDone && decide (m.ids.length ≤ 14)

/-- The next row pushed under a permit; one that the home does not take, its permits having lapsed, is pushed again under new ones. -/
def pushRow (s : State) (d : Nat) (m : Ingest) : State :=
  let row := m.ids.take 14
  match chainPush s d m m.outq (rowNat m.tag (if lastRow m then 1 else 0) row) with
  | (s, true, tc) => putIngest s d { m with
      rows := m.rows + 1, permits := m.permits - 1, emitted := m.emitted + row.length, tc := Nat.max m.tc tc, ids := m.ids.drop 14
      stage := if lastRow m then 4 else 1 }
  | (s, false, _) => putIngest s d { m with permits := 0 }

/-- INGEST_ROW_PUSH: the message at the head of the chain of die `a` pushes its next row, takes permits, goes through the quarantine
steps, or ends with its DONE write once its rows are visible (R318, R322-R324). -/
def execIngestRowPush (s : State) : Host.Outcome State Fault Refusal :=
  let d := s.subj.a
  match (s.die d).ingest with
  | [] => event s
  | m :: _ =>
    if m.stage = 4 then (if m.tc ≤ s.devtime then event (finishIngest s d m) else event s)
    else if m.stage = 0 ∨ m.waitFrom.isSome then event s
    else if m.cause ≠ 0 then event (finalRow s d m false)
    else if rowsReady m = 0 then event s
    else if m.permits ≠ 0 then event (pushRow s d m)
    else event (askPermits s d m)

/-- Whether a message has waited more than 10 ms for permits (R323). -/
def outputStalled (now : Nat) (m : Ingest) : Bool := match m.waitFrom with | some t => decide (t + 10000000 < now) | none => false

/-- INGEST_PERMIT_RETRY: the message at the head of the chain of die `a` asks for permits again (R323). -/
def execIngestPermitRetry (s : State) : Host.Outcome State Fault Refusal :=
  match (s.die s.subj.a).ingest with
  | [] => event s
  | m :: _ =>
    if m.waitFrom.isNone ∨ s.devtime < m.retryAt ∨ outputStalled s.devtime m then event s
    else if m.cause ≠ 0 then event (finalRow s s.subj.a m false)
    else event (askPermits s s.subj.a m)

/-- INGEST_OUTPUT_STALL: the message at the head of the chain of die `a` has waited more than 10 ms for permits: cause 6, and its final row
is tried once, so that it holds the chain no longer; a final row that has waited so long is given up (R323, R324; log 14). -/
def execIngestOutputStall (s : State) : Host.Outcome State Fault Refusal :=
  let d := s.subj.a
  match (s.die d).ingest with
  | [] => event s
  | m :: _ =>
    if !outputStalled s.devtime m then event s
    else
      let s := if m.cause = 0 then quarantine s d m 6 2 else s
      match (s.die d).ingest with
      | m :: _ => event (finalRow s d m true)
      | [] => event s

/-- Stage work of a die in some nanoseconds: each stage works on one message; what a stage waits for is no work (R323). -/
def ingestWork (s : State) (ns d : Nat) : State :=
  let busy := ([inflating s d, transcoding s d, (tokenising s d).map (·.1)].filterMap (fun m => m.map (·.ticket))).dedup
  if busy.isEmpty then s
  else s.onDie d (fun x => { x with ingest := x.ingest.map (fun m => if busy.contains m.ticket then { m with work := m.work + ns } else m) })

end Sys2Proof.Machine
end

