-- ==== Sys2Proof/Machine/Launching.lean ====
section
/-!
DEFINITION. The launch unit: untimed launches, their dimension records and fences, and launches that the host names (R46, R255, R256,
R262, R414, R531).
-/

namespace Sys2Proof.Machine

open Sys2Proof

/-- The launch of a number and its die. -/
def findLaunch (s : State) (id : Nat) : Option (Nat × Launch) :=
  s.dies.findSome? (fun p => (p.2.launches.find? (fun l => l.id == id)).map (fun l => (p.1, l)))

/-- A launch replaced. -/
def putLaunch (s : State) (d : Nat) (l : Launch) : State :=
  s.onDie d (fun x => { x with launches := x.launches.map (fun y => if y.id = l.id then l else y) })

/-- A launch ended, with the monitor that it may have. -/
def endLaunch (s : State) (d : Nat) (l : Launch) : State :=
  { s with monitors := s.monitors.filter (fun m => m.op != l.id) }.onDie d (fun x => { x with launches := x.launches.filter (fun y => y.id != l.id) })

/-- A launch ended with its outcome in STATUS, where the record gives one (R256). -/
def finishLaunch (s : State) (d : Nat) (l : Launch) (code : Nat) : State :=
  let s := endLaunch s d l
  if l.status = 0 then s
  else storeStatus s (launchActor s l.core l.ctx l.asid) l.status (word (l.delivered % 2 ^ 32 * 2 ^ 32 + code))

/-- What the hardware reads for a launch at a pointer: a number of `n` bytes with the key of its first, or a fault. The spaces and the
alignment of the FENCE and DIMS pointers are not stated: the model takes 0x0 to 0x4 and a multiple of 8, and gives code 4 for another, its
own choice (R256, log 98). -/
def launchRead (s : State) (l : Launch) (p : Word) (n : Nat) : State × Except Flt (Nat × Nat) :=
  if 4 < tagOf p then (s, .error (.space, 0, p))
  else if p.toNat % n ≠ 0 then (s, .error (.align, 0, p))
  else
    let a := launchActor s l.core l.ctx l.asid
    match hardSegs s a 1 p n with
    | (s, .error f) => (s, .error f)
    | (s, .ok segs) =>
      match readSegs s a p segs with
      | (s, .error f) => (s, .error f)
      | (s, .ok b) => (s, .ok (leNat b, (segKey segs 0).getD 0))

/-- Whether the bank of what the hardware reads for a launch can serve it (R140, R146). -/
def launchFree (s : State) (l : Launch) (p : Word) (n : Nat) : Bool := rangeFree s (launchActor s l.core l.ctx l.asid) 1 p n

/-- What the hardware reads of a dimension record: in space 0x0 or 0x4 and aligned to 64 bytes, as LAUNCH has checked it; a host's record
pointer is checked here (R255, log 89). -/
def recordRead (s : State) (l : Launch) : State × Except Flt (Nat × Nat) :=
  if tagOf l.record = 0 ∨ tagOf l.record = 4 then launchRead s l l.record 64 else (s, .error (.space, 0, l.record))

/-- DIMENSION_RECORD_READ: the launch unit reads the record of launch `a`; one that cannot be read is reported (R256, R531). -/
def execDimensionRecordRead (s : State) : Host.Outcome State Fault Refusal :=
  match findLaunch s s.subj.a with
  | none => event s
  | some (d, l) =>
    if l.phase ≠ 0 ∨ !launchFree s l l.record 64 then event s
    else
      match recordRead s l with
      | (s, .error f) => event (recordReport (endLaunch s d l) l.host l.sup l.ctx l.core l.slot l.chan l.msgid l.seq l.pc f l.record)
      | (s, .ok (n, _)) =>
        event (putLaunch s d { l with
          phase := 1, since := s.devtime, fence := word (nbits n 63 0), target := word (nbits n 127 64), dims := word (nbits n 191 128)
          status := word (nbits n 255 192), timeout := if nbits n 287 256 = 0 then 1000 else nbits n 287 256
          maxTasks := nbits n 319 288 })

/-- The grid of a launch as its DIMS doubleword gives it: none where it is invalid or above MAXTASKS (R256). -/
def gridOf (l : Launch) (n : Nat) : Option Launch :=
  let g := { l with gx := nbits n 15 0, gy := nbits n 31 16, gz := nbits n 47 32 }
  let tasks := g.gx * g.gy * g.gz
  if nbits n 63 48 ≠ 0 ∨ 2 ^ 24 < tasks ∨ (l.maxTasks ≠ 0 ∧ l.maxTasks < tasks) then none else some g

/-- The fence of a launch is met: DIMS is read and the posting begins; a fault on DIMS is code 4, invalid dimensions code 3 (R256). -/
def fenceMet (s : State) (d : Nat) (l : Launch) : State :=
  match launchRead s l l.dims 8 with
  | (s, .error _) => finishLaunch s d l 4
  | (s, .ok (n, _)) =>
    match gridOf l n with
    | none => finishLaunch s d l 3
    | some g => if g.gx * g.gy * g.gz = 0 then finishLaunch s d g 1 else putLaunch s d { g with phase := 2 }

/-- Whether a launch's fence monitor is registered. -/
def fenceWatched (s : State) (l : Launch) : Bool := s.monitors.any (fun m => m.op == l.id)

/-- Whether a launch is to read its fence now: it never has, or 1 us has passed since it found the monitor table full (R186, R256). -/
def fenceDue (s : State) (l : Launch) : Bool := l.met.isNone && !fenceWatched s l && decide (l.retryAt ≤ s.devtime)

/-- A launch reads its fence: met, it is so recorded; else a monitor is registered, or with the table full it reads again in 1 us. A fault
on the fence is code 4 (R185, R186, R256). -/
def readFence (s : State) (d : Nat) (l : Launch) : State :=
  match launchRead s l l.fence 8 with
  | (s, .error _) => finishLaunch s d l 4
  | (s, .ok (v, k)) =>
    if l.target.toNat ≤ v then putLaunch s d { l with met := some v, metAt := s.devtime }
    else if monitorsAt s k < (if isHbm k then 1024 else 64) then { s with monitors := s.monitors ++ [⟨l.id, k, 2, l.target⟩] }
    else putLaunch s d { l with retryAt := s.devtime + 1000 }

/-- Whether a launch's time for its fence is over, unmet (R256). -/
def fenceLate (s : State) (l : Launch) : Bool :=
  l.phase == 1 && l.met.isNone && decide (l.since + 1000 * l.timeout ≤ s.devtime)

/-- LAUNCH_FENCE_MET: a step of launch `a`'s wait for its fence: it reads the fence, as WAITC does; once an application has met it, the
posting begins (R256). -/
def execLaunchFenceMet (s : State) : Host.Outcome State Fault Refusal :=
  match findLaunch s s.subj.a with
  | none => event s
  | some (d, l) =>
    if l.phase ≠ 1 ∨ fenceLate s l then event s
    else if l.met.isSome then (if launchFree s l l.dims 8 then event (fenceMet s d l) else event s)
    else if fenceDue s l && launchFree s l l.fence 8 then event (readFence s d l)
    else event s

/-- LAUNCH_FENCE_TIMEOUT: the fence of launch `a` has not been met in time: code 2 (R256). -/
def execLaunchFenceTimeout (s : State) : Host.Outcome State Fault Refusal :=
  match findLaunch s s.subj.a with
  | none => event s
  | some (d, l) => if fenceLate s l then event (finishLaunch s d l 2) else event s

/-- The message of a launch's next task (R262). -/
def launchPay (l : Launch) : Vector Word 8 :=
  let t := l.next
  let x := t % l.gx
  let y := t / l.gx % l.gy
  let z := t / l.gx / l.gy
  payload ([word t, word (x + 2 ^ 16 * y + 2 ^ 32 * z), word (l.gx + 2 ^ 16 * l.gy + 2 ^ 32 * l.gz)] ++ l.args)

/-- Whether tasks of a launch to a peer are still on their way. -/
def peerTasks (s : State) (l : Launch) : Bool := s.net.any (fun p => match p.body with | .peer _ _ _ _ n _ _ => n == l.id | _ => false)

/-- A launch whose tasks have all been posted ends, once those to a peer have been delivered or dropped (R256, R414). -/
def settleLaunch (s : State) (d : Nat) (l : Launch) : State :=
  if l.phase = 2 ∧ l.gx * l.gy * l.gz ≤ l.next ∧ !peerTasks s l then finishLaunch s d l 1 else s

/-- A task of a launch posted: it observes what the acquire of its launch observed, if that waited for a fence (R256). -/
def postTask (s : State) (src dst acq : Nat) (b : Body) : State :=
  let s := sendPacket s src dst 0 none b
  { s with net := s.net.map (fun p => if p.pid + 1 = s.nextId then { p with acq := acq } else p) }

/-- LAUNCH_TASK_POST: the launch unit of die `a` posts the next task of its oldest launch (R262, R414). -/
def execLaunchTaskPost (s : State) : Host.Outcome State Fault Refusal :=
  let d := s.subj.a
  match (s.die d).launches.find? (fun l => l.phase == 2 && decide (l.next < l.gx * l.gy * l.gz)) with
  | none => event s
  | some l =>
    let c := l.c0 + l.next % l.nc
    let b : Body := match l.peer with
      | some dev => .peer dev c 0 (launchPay l) l.id l.host (if l.host then 0 else l.core)
      | none => .message 0 (launchPay l) l.host s.fabid.toNat (if l.host then 0 else l.core) false none 0
    let l' := { l with next := l.next + 1, delivered := if l.peer.isSome then l.delivered else l.delivered + 1 }
    event (settleLaunch (putLaunch (postTask s (8192 + d) c l.metAt b) d l') d l')

/-- HOST_LAUNCH: the host launches for context `a`: with `b` 0 the timed record at the pointer in `d` bits [63:0]; with `b` 1 an untimed grid
and with `b` 2 one with a dimension record: the core-set word in `d` bits [63:0], the grid in [127:64], the record pointer in [191:128], the
argument words in [511:192] (R46, R262, R263). A malformed core-set word or a grid above 2^24 launches nothing (log 89). -/
def execHostLaunch (s : State) : Host.Outcome State Fault Refusal :=
  let x := s.subj.a % 8192
  let w := fun (i : Nat) => word (s.subj.d.toNat / 2 ^ (64 * i))
  if s.subj.b = 0 then
    let j : TimedJob := { id := s.nextId, core := 0, slot := 0, chan := 0, ctx := x, asid := ctxAsid s x, pc := 0, host := true,
                          msgid := 0, seq := 0, record := w 0, since := s.devtime }
    event { s.fresh with timedJobs := s.timedJobs ++ [j] }
  else
    let cset := w 0
    let record := if s.subj.b = 1 then 0 else w 2
    let l := launchOf s (launchActor s 0 x (ctxAsid s x)) 0 0 0 0 0 true false record cset (w 1).toNat
      ((List.range 5).map (fun k => w (3 + k)))
    if !coreSetOk cset ∨ bits cset 27 27 = 1 ∨ 2 ^ 24 < l.gx * l.gy * l.gz then event s
    else event (addLaunch s (dieOf l.c0) l)

end Sys2Proof.Machine
end

