-- ==== Sys2Proof/Machine/System.lean ====
section
/-!
DEFINITION. The system forms of major 0x1C: control registers, RETT, TLBINV, save images written and loaded by a strand, PERFR
and PREEMPT (R79-R85, R155, R157, R279, R287, R378-R384, R443, R448, R467, R487, R488).
-/

namespace Sys2Proof.Machine

open Sys2Proof

/-! ## Control registers (R79-R85, R378-R380) -/

/-- A bit as a number. -/
def bitNat (b : Bool) (i : Nat) : Nat := if b then 2 ^ i else 0

/-- STATUS (Table 4.5). -/
def statusWord (s : State) : Word :=
  let t := s.me
  word (bitNat t.spdisc 15 + bitNat (s.ctx t.ctx).mapkeep 14 + bitNat t.fromTimed 11 + t.level % 8 * 2 ^ 8 + bitNat t.priv 7 +
    bitNat t.pub 6 + bitNat t.sub 5 + bitNat t.uns 4 + s.cur.2 % 4)

/-- DIEORIENT of a die (Tables 1.1, 1.2). -/
def dieOrient (d : Nat) : Word := word (d % 4 * 2 ^ 6 + d % 2 * 2 ^ 2 + d % 4)

/-- The set of SPREG0-SPREG7 of a context on a core; without a region it reads zero (R84). -/
def spregSet (k : Core) (x : Nat) : List Word := mapGet (List.replicate 8 0) k.spregs x

/-- The value of the control register of a number (Table 4.4, R378). CAUSE, EPC and TVAL read zero in a task that no report started (R82).
Every core reads the same DEVTIME at an instant: of the skew of up to 2 ns that R19 leaves open the model takes none (log 90). -/
def csrRead (s : State) (n : Nat) : Word :=
  let t := s.me
  let k := s.myCore
  match n with
  | 0x000 => statusWord s
  | 0x001 => t.fmt.setWidth 64
  | 0x002 => if t.supervisor then t.cause else 0
  | 0x003 => if t.supervisor then t.epc else 0
  | 0x004 => if t.supervisor then t.tval else 0
  | 0x005 => t.msgid
  | 0x006 => word (t.nS * 2 ^ 16 + t.nV * 2 ^ 8 + t.nK)
  | 0x007 => (s.ctx t.ctx).tdies.setWidth 64
  | 0x008 => dieOrient (dieOf s.cur.1)
  | 0x009 => coreIdWord s s.cur.1
  | 0x00A => word s.devtime
  | 0x00B => word (bitNat t.unb 32 + t.budget.toNat)
  | 0x00C => k.paircnt
  | 0x00D => k.dupcnt
  | 0x018 => t.watch[0]
  | 0x019 => t.watch[1]
  | n =>
    if 0x010 ≤ n ∧ n ≤ 0x017 then ((spregSet k t.ctx)[n - 0x010]?).getD 0
    else if 0x100 ≤ n ∧ n ≤ 0x107 then (k.pmc[n - 0x100]?).getD 0
    else ((k.pmsel[n - 0x120]?).getD 0).setWidth 64

/-- CSRR (R378): a number outside Table 4.4 does not decode. -/
def execCsrr (d : BitVec 5) (r : BitVec 12) (s : State) : Host.Outcome State Fault Refusal :=
  finish 4 (guard [wrS s.me d false] (fun s => .ok (s.onMe (fun t => t.ws d false (csrRead s r.toNat)))) s)

/-- Whether a value for an SPREG traps with BOUND: a valid region of size 0, or one that runs past the scratchpad (R84). -/
def spregBad (v : Word) : Bool := (bits v 31 31 == 1 && bits v 24 16 == 0) || decide (256 < bits v 7 0 + bits v 24 16)

/-- A region register written: a set exists while the context has a region on the core; a seventeenth set traps (R84). -/
def writeSpreg (i : Nat) (v : Word) (s : State) : Res :=
  let k := s.myCore
  let x := s.me.ctx
  let isNew := (mapGet? k.spregs x).isNone
  let regs' := (spregSet k x).set i (v &&& 0xC1FF00FF)
  if spregBad v || (isNew && bits v 31 31 == 1 && decide (16 ≤ k.spregs.length)) then .trap s .bound 0 v
  else
    let sets := if regs'.any (fun w => bits w 31 31 == 1) then mapSet k.spregs x regs' else mapDel k.spregs x
    .ok (s.onCore s.cur.1 (fun k => { k with spregs := sets }))

/-- A control register written from a value, its checks made (R379). -/
def csrWrite (i : Instr) (n : Nat) (v : Word) (s : State) : Res :=
  let me := fun (f : Strand → Strand) => Res.ok (s.onMe f)
  let core := fun (f : Core → Core) => Res.ok (s.onCore s.cur.1 f)
  match n with
  | 0x000 => .ok ((s.onCtx s.me.ctx (fun c => { c with mapkeep := v.getLsbD 14 })).onMe (fun t =>
      { t with spdisc := t.spdisc && v.getLsbD 15 }))
  | 0x001 => if fmtBad v then .trap s .illop 0 (instrWord i) else me (fun t => { t with fmt := csrwFmt t.fmt v })
  | 0x002 => me (fun t => { t with cause := v &&& 0x8000FFFF })
  | 0x003 => me (fun t => { t with epc := v &&& 0xFFFFFFFFFFFE })
  | 0x004 => me (fun t => { t with tval := v })
  | 0x00C => core (fun k => { k with paircnt := v })
  | 0x00D => core (fun k => { k with dupcnt := v })
  | 0x018 => me (fun t => { t with watch := t.watch.set 0 (v &&& ~~~0x3C) })
  | 0x019 => me (fun t => { t with watch := t.watch.set 1 (v &&& ~~~0x3C) })
  | n =>
    if 0x010 ≤ n ∧ n ≤ 0x017 then writeSpreg (n - 0x010) v s
    else if 0x100 ≤ n ∧ n ≤ 0x107 then core (fun k => { k with pmc := k.pmc.setIfInBounds (n - 0x100) v })
    else if 0x120 ≤ n ∧ n ≤ 0x127 then core (fun k => { k with pmsel := k.pmsel.setIfInBounds (n - 0x120) (v.setWidth 8) })
    else .ok s

/-- CSRW (R379, R380): a register marked priv traps with PRIV in a strand that is not privileged; RO registers ignore it. -/
def execCsrw (a : BitVec 5) (r : BitVec 12) (s : State) : Host.Outcome State Fault Refusal :=
  let body := guard [rdS s.me a false] (fun s => csrWrite (.csrw a r) r.toNat (s.me.rs a false) s)
  finish 4 (if 0x100 ≤ r.toNat then privOnly (.csrw a r) body s else body s)

/-- PERFR (R443). -/
def execPerfr (d : BitVec 5) (n : BitVec 3) (x : Bool) (s : State) : Host.Outcome State Fault Refusal :=
  finish 4 (guard [wrS s.me d x] (fun s => .ok (s.onMe (fun t => t.ws d x ((s.myCore.pmc[n.toNat]?).getD 0)))) s)

/-! ## RETT and PREEMPT -/

/-- RETT (R279, R467): the outstanding report of an id, then the action; it does not end the task. -/
def execRett (a b : BitVec 5) (y : Bool) (s : State) : Host.Outcome State Fault Refusal :=
  finish 4 (privOnly (.rett a b y) (guard [rdS s.me a y, rdS s.me b false] (fun s =>
    let id := s.me.rs a y
    let v := s.me.rs b false
    match findReport s id with
    | none => .trap s .bound 0 id
    | some r => if bits v 63 2 ≠ 0 then .trap s .bound 0 v else .ok (releaseReport s r (bits v 1 0)))) s)

/-- PREEMPT of the own strand: `d` gets its outcome and the strand begins to be saved, or ends as a trap for want of an image, at the
instruction after it (R282, R287). -/
def preemptSelf (d : BitVec 5) (s : State) : State :=
  match beginSave s s.cur.1 s.cur.2 .preempt with
  | some s => s.onMe (fun t => t.ws d false 1)
  | none => s.onMe (fun t => (t.ws d false 2).trapTo
      { cause := .budget, code := causeCode .budget, sub := 1, async := false, epc := (t.pc + 4).toNat, tval := 0, time := s.devtime })

/-- PREEMPT (R287, R448): a short stall until the target is saved or ended; one that is STARTING reaches its first instruction boundary
before; its own strand is saved after it. -/
def execPreempt (d a : BitVec 5) (y : Bool) (s : State) : Host.Outcome State Fault Refusal :=
  finish 4 (privOnly (.preempt d a y) (guard [rdS s.me a y, wrS s.me d false] (awaiting (fun s =>
    let v := s.me.rs a y
    let c := bits v 12 0
    let i := bits v 14 13
    let t := s.slot c i
    if bits v 63 15 ≠ 0 then .trap s .bound 0 v
    else if (c, i) = s.cur then .ok (preemptSelf d s)
    else if t.st = .free ∨ t.st = .trapping ∨ t.st = .saving then .ok (s.onMe (fun t => t.ws d false 0))
    else if t.st = .starting then .stall s .retry
    else
      .stall (preemptSlot ((startOp s { myOp s .preempt with pend := true }).setSlot c i { t with preempt := some s.nextId }) c i
        .preempt) (.op s.nextId))
    (fun _ l s => .ok (s.onMe (fun t => t.ws d false (word (l.headD 0))))) (fun s o => .stall s (.op o.id)))) s)

/-! ## TLBINV (R155, R157, R487, R488) -/

/-- The page of a translation: its first 4 KiB page and their number; a fragment's is the page of 1 GiB that it is of (R154). -/
def wholePage (x : Xlat) : Nat × Nat := if x.big then (x.page / 2 ^ 18 * 2 ^ 18, 2 ^ 18) else (x.page, x.pages)

/-- Whether a TLBINV's operands select a translation: its ASID, its map, and a page that overlaps the range (R487). -/
def invHits (sel range : Word) (x : Xlat) : Bool :=
  let m := bits sel 14 13
  let (page, pages) := wholePage x
  x.asid == bits sel 12 0 && (m == 0 || (m == 1 && x.space == 0) || (m == 2 && x.space == 4)) &&
    (bits sel 15 15 == 0 ||
      (decide (page < bits range 47 12 + bits range 11 0 + 1) && decide (bits range 47 12 < page + pages)))

/-- The die whose second-level cache holds a translation (R154, R293). -/
def xlatHome (s : State) (x : Xlat) : Nat := xlatDie s x.asid (x.page * 4096)

/-- Whether a TLBINV's operands select a translation of this device's own export map that a gateway of it holds (R136, R157). -/
def gatewayHits (s : State) (sel range : Word) (x : Xlat) : Bool :=
  x.asid == s.fabid.toNat && invHits sel range { x with asid := (mapGet (0, false) s.exports s.fabid.toNat).1, space := 4 }

/-- The cores whose TLB holds a selected translation. -/
def coreHolders (s : State) (sel range : Word) : List Nat :=
  (s.cores.filter (fun p => p.2.tlb.any (invHits sel range))).map (·.1)

/-- The holders of selected translations: dies as 8,192 + d, peers as 8,196 + device, and cores. -/
def holders (s : State) (sel range : Word) : List Nat :=
  ((List.range 4).filter (fun d => s.tlb2.any (fun x => invHits sel range x && xlatHome s x == d))).map (8192 + ·) ++
    ((s.gens.filter (fun g => invHits sel range g.1)).flatMap (fun g => g.2.2)).dedup.map (8196 + ·) ++ coreHolders s sel range

/-- The generations of the selected global pages that peers hold raised, modulo 2^16 (R157, R488). -/
def raiseGens (s : State) (sel range : Word) : State :=
  { s with gens := s.gens.map (fun g =>
      if invHits sel range g.1 ∧ g.2.2 ≠ [] then (g.1, (g.2.1 + 1) % 2 ^ 16, g.2.2) else g) }

/-- TLBINV (R487, R488): a short stall until every holder has acknowledged. -/
def execTlbinv (a b : BitVec 5) (y : Bool) (s : State) : Host.Outcome State Fault Refusal :=
  finish 4 (privOnly (.tlbinv a b y) (guard [rdS s.me a y, rdS s.me b false] (awaiting (fun s =>
    let sel := s.me.rs a y
    let range := s.me.rs b false
    if bits sel 14 13 = 3 ∨ bits sel 63 16 ≠ 0 then .trap s .bound 0 sel
    else if (if bits sel 15 15 = 1 then bits range 63 48 != 0 else range != 0) then .trap s .bound 0 range
    else
      let l := holders s sel range
      if l.isEmpty then .ok s
      else .stall (startOp (raiseGens s sel range) { myOp s (.tlbinv sel range) with pend := true, todo := l }) (.op s.nextId))
    (fun _ _ s => .ok s) (fun s o => .stall s (.op o.id)))) s)

/-- Holders that a TLBINV has still to hear from; with none it is answered, and over where a save has overtaken it (R39, R488). -/
def invLeft (s : State) (id : Nat) (todo : List Nat) : State :=
  onOp (if todo.isEmpty then forget s id else s) id (fun o => { o with todo := todo, answer := if todo.isEmpty then some [] else none })

/-- Whether a TLBINV's invalidation reaches a holder now: the second-level caches come before the cores, so that no core takes a removed
translation from them again; a peer over a READY port (R303, R488). -/
def invReaches (s : State) (o : Op) (h : Nat) : Bool :=
  o.todo.contains h && !(decide (h < 8192) && o.todo.any (fun x => decide (8192 ≤ x) && decide (x < 8196))) &&
    (decide (h < 8196) || linkReady s o.core (h - 8196) 0)

/-- TRANSLATION_INVALIDATION: the invalidation of TLBINV `a` reaches holder `b`, which removes the translations and acknowledges (R488). -/
def execTranslationInvalidation (s : State) : Host.Outcome State Fault Refusal :=
  match findOp s s.subj.a with
  | none => event s
  | some o =>
    match o.kind with
    | .tlbinv sel range =>
      let h := s.subj.b
      if !invReaches s o h then event s
      else
        let rest := o.todo.filter (· != h)
        let (s, more) :=
          if h < 8192 then (s.onCore h (fun k => { k with tlb := k.tlb.filter (fun x => !invHits sel range x) }), [])
          else if h < 8196 then
            ({ s with tlb2 := s.tlb2.filter (fun x => !(invHits sel range x && xlatHome s x == h - 8192)) },
             (coreHolders s sel range).filter (fun c => !rest.contains c))
          else ({ s with
                    gens := s.gens.map (fun g => if invHits sel range g.1 then (g.1, g.2.1, g.2.2.filter (· != h - 8196)) else g)
                    rtlb := if h - 8196 = s.fabid.toNat then s.rtlb.filter (fun x => !gatewayHits s sel range x.2.1) else s.rtlb }, [])
        event (invLeft s o.id (rest ++ more))
    | _ => event s

/-! ## CTXSAVE and CTXLOAD (R381-R384) -/

/-- The checks of an image's pointer: SPACE unless it lies in space 0x0 or 0x4, BOUND, ALIGN to 64 bytes (R381). -/
def imagePtrOk (p : Word) (k : State → Res) (s : State) : Res :=
  if tagOf p ≠ 0 ∧ tagOf p ≠ 4 then .trap s .space 0 p
  else if !fieldsOk p then .trap s .bound 0 p
  else if p.toNat % 64 ≠ 0 then .trap s .align 0 p
  else k s

/-- Whether the strand's counters, horizon, SFU results and pops let CTXSAVE go on (R383). -/
def ctxsaveReady (s : State) : Bool :=
  let t := s.me
  t.cLd == 0 && t.cSt == 0 && t.cCp == 0 && t.cTl == 0 && decide (t.hor ≤ s.devtime) &&
    !s.ops.any (fun o => o.task == t.task && (match o.kind with | .sfu | .qpop _ _ _ _ => true | _ => false))

/-- The image that CTXSAVE writes: the strand as it stands, with s(d) = 1 and the PC after the instruction (R384). -/
def ctxsaveImage (d : BitVec 5) (x : Bool) (s : State) : List Byte :=
  imageBytes { s.me.ws d x 1 with pc := s.me.pc + 4 } s.cur.2 false false

/-- The operation of a CTXSAVE: the range of its image, the image as words, and how many of its lines have been sent. -/
def ctxsaveOp (d : BitVec 5) (x : Bool) (p : Word) (segs : List Seg) (s : State) : Op :=
  { myOp s .ctxsave with
    pend := true, ptr := p, dst := segs, args := (unpack 8 2048 (ctxsaveImage d x s)).map word }

/-- Line `n` of a CTXSAVE's image as the piece of a plain store (R384). -/
def ctxsaveLine (o : Op) (n : Nat) : Piece :=
  { key := (segKey o.dst (64 * n)).getD 0, n := 64, ptr := ptrAdd o.ptr (64 * n)
    data := packNat 64 (((o.args.drop (8 * n)).take 8).map (·.toNat)), en := 2 ^ 64 - 1 }

/-- A CTXSAVE whose waits are over: it sends its lines, each a store and a remote request of its own, while the core's are fewer than 64,
and completes with s(d) = 0 once every one is acknowledged (R156, R384). -/
def ctxsaveGo (d : BitVec 5) (x : Bool) (o : Op) (s : State) : Res :=
  if 256 ≤ o.pos then
    if s.me.cSt = 0 then .ok ((dropOp s o.id).onMe (fun t => t.ws d x 0)) else .stall s .retry
  else if 64 ≤ remoteCount s s.cur.1 then .stall s .retry
  else
    .stall (startOp (onOp s o.id (fun o => { o with pos := o.pos + 1 }))
      { myOp s .store with ctr := some .st, pieces := [ctxsaveLine o o.pos] }) .retry

/-- CTXSAVE (R383, R384): the image holds s(d) = 1 and the PC after it; the strand goes on with s(d) = 0. -/
def execCtxsave (d a : BitVec 5) (x y : Bool) (s : State) : Host.Outcome State Fault Refusal :=
  finish 4 (privOnly (.ctxsave d a x y) (guard [rdS s.me a y, wrS s.me d x] (notNested (fun s =>
    match pending s with
    | some o => ctxsaveGo d x o s
    | none =>
      let p := s.me.rs a y
      imagePtrOk p (translated (rangePages p 16384) (fun s =>
        match rangeSegs s s.actor 2 p 16384 with
        | .error (c, sub, tval) => .trap s c sub tval
        | .ok segs =>
          if !ctxsaveReady s then .stall s .retry else .stall (startOp s (ctxsaveOp d x p segs s)) .retry)) s)))
    s)

/-- Whether some bytes of an image are zero. -/
def zeroAt (l : List Byte) (off n : Nat) : Bool := ((l.drop off).take n).all (· == 0)

/-- Whether a stream entry keeps to Table 14.7 and to what BIND and COPY leave (R381). -/
def streamEntryOk (l : List Byte) : Bool :=
  let kind := imgNat l 0 1
  let wptr := imgNat l 16 8
  let rptr := imgNat l 24 8
  if kind = 0 then zeroAt l 0 128
  else
    decide (kind ≤ 3) && decide (imgNat l 1 1 ≤ if kind = 1 then 2 else 0) && zeroAt l 2 6 && zeroAt l 112 16 &&
      decide (rptr ≤ wptr) && decide (wptr - rptr ≤ 72) && zeroAt l (40 + (wptr - rptr)) (72 - (wptr - rptr)) &&
      (kind != 2 || decide (imgNat l 32 8 ≤ wptr))

/-- Whether BIND would refuse a channel for the running strand's context, its own streams unbound (R363). -/
def channelRefused (s : State) (w : Word) : Bool :=
  let k := s.myCore
  let e := k.entry (bits w 5 0)
  bits w 5 0 == 0 || bits w 63 6 != 0 || (entBits e 0 0 == 1 && entBits e 76 64 != s.me.ctx) ||
    channelBound (k.setSlot s.cur.2 { k.slot s.cur.2 with strm := Vector.replicate 8 {} }) (bits w 5 0)

/-- The channels that an image binds with KIND 3. -/
def imageChannels (l : List Byte) : List Word :=
  (List.range 8).filterMap (fun i =>
    let e := (l.drop (1152 + 128 * i)).take 128
    if imgNat e 0 1 % 4 = 3 then some (word (imgNat e 8 8)) else none)

/-- Whether a buffered-send record keeps to Table 14.8. -/
def sendRecordOk (l : List Byte) : Bool :=
  let d := imgNat l 64 8
  let net := nbits d 41 40
  nbits d 63 42 == 0 &&
    (match nbits d 39 32 with
     | 0 => decide (net ≤ 2)
     | 1 => net == 0 && nbits d 31 19 == 0
     | 2 => net == 0 && zeroAt l 16 48 && nbits d 31 0 == 0
     | 3 => net == (if nbits (imgNat l 8 8) 13 13 = 1 then 1 else 0) && zeroAt l 24 40 && nbits d 31 0 == 0
     | 4 => net == 0 && zeroAt l 22 2 && nbits d 31 0 == 0
     | _ => false)

/-- Whether an image may be loaded by the running strand (R381). -/
def imageOk (s : State) (l : List Byte) : Bool :=
  let t := s.me
  let count := fun (i : Nat) => imgNat l (2304 + 2 * i) 2
  let n := count 0 + count 1 + count 2
  let chans := imageChannels l
  zeroAt l 55 1 && zeroAt l 1120 32 && zeroAt l 2310 58 && zeroAt l 9280 7104 &&
    zeroAt l (64 + 8 * t.nS) (512 - 8 * t.nS) && zeroAt l (576 + 16 * t.nV) (512 - 16 * t.nV) &&
    zeroAt l (1088 + 2 * t.nK) (16 - 2 * t.nK) &&
    imgNat l 35 1 / 8 == 0 && nbits (imgNat l 32 4) 5 4 != 3 && nbits (imgNat l 32 4) 7 6 != 3 &&
    decide (count 0 ≤ 32) && decide (count 1 ≤ 32) && decide (count 2 ≤ 32) && decide (n ≤ 96) &&
    (List.range 8).all (fun i => streamEntryOk ((l.drop (1152 + 128 * i)).take 128)) &&
    chans.all (fun w => !channelRefused s w) && chans.dedup.length == chans.length &&
    (List.range n).all (fun i => sendRecordOk ((l.drop (2368 + 72 * i)).take 72))

/-- The image applied in one step (R382): what belongs to the running task stays. -/
def applyImage (s : State) (l : List Byte) : State :=
  let s := freeStreams s s.cur.1 s.me
  s.onMe (fun t => { imageStrand l t with
    msgid := t.msgid, seq := t.seq, budget := t.budget, unb := t.unb, capped := t.capped, hor := Nat.max t.hor (imgNat l 56 8), flr := s.devtime })

/-- CTXLOAD (R381, R382). It reads its image after the strand's own accesses to it and after an acquire load, once the banks can serve it
(R146, R161, R164). -/
def execCtxload (a : BitVec 5) (y : Bool) (s : State) : Host.Outcome State Fault Refusal :=
  finish 4 (privOnly (.ctxload a y) (guard [rdS s.me a y] (notNested (fun s =>
    let p := s.me.rs a y
    imagePtrOk p (translated (rangePages p 16384) (fun s =>
      match rangeSegs s s.actor 1 p 16384 with
      | .error (c, sub, tval) => .trap s c sub tval
      | .ok segs =>
        if acquiring s || !segs.all (fun x => settled s x.key x.len) || !segsFree s segs then .stall s .retry else
        match readSegs s s.actor p segs with
        | (s, .error (c, sub, tval)) => .trap s c sub tval
        | (s, .ok l) =>
          let pc := imgNat l 0 8
          if !imageOk s l then .trap s .bound 0 p
          else
            match sendsFit (s.onMe (fun t => { t with sends := [] })) s.cur.1 s.cur.2 (sendsOf l) with
            | some n => .trap s .sqfull 0 (word n)
            | none =>
              if s.ops.any (fun o => o.task == s.me.task && (!o.regs.isEmpty || o.kind == .sfu)) then .stall s .retry
              else if pc % 2 = 1 then .trap s .align 0 (word pc)
              else .jump (applyImage s l) pc)) s))) s)

end Sys2Proof.Machine
end

