-- ==== Sys2Proof/Machine/Outside.lean ====
section
/-!
DEFINITION. What comes from outside the cores: errors and the loss of a die (R288-R294), the Ocotte Link and the fabric (R295-R303),
bring-up, thermal trips and the host (R168, R280, R304-R308, R313, R528).
-/

namespace Sys2Proof.Machine

open Sys2Proof

/-! ## Errors (R288, R289, R308) -/

/-- The raw place of the thermal sensor of a cluster (R12, R14). -/
def sensorPlace (g : Nat) : ErrPlace := .sensor (flipX (g / 128) (g % 8)) (g % 128 / 8)

/-- The raw stack and pseudo-channel of a line of main memory (R14, Table 1.3); which pseudo-channel holds it is open (log 86). -/
def hbmPlace (pa : Nat) : ErrPlace :=
  let d := stackOf pa / 4
  let ch := Config.channelOf pa % 64
  .hbm ((stackOf pa + 4 - dieRot d) % 4) (if dieMirror d then 63 - ch else ch)

/-- The raw place of something at the router of a cluster (R12, R14). -/
def meshPlace (g unit loc : Nat) : ErrPlace := .mesh (flipX (g / 128) (g % 8)) (g % 128 / 8) unit loc

/-- The router at which a location is served: its home bank's, that of cluster-in-die 2 x bank, or its core's (R15). -/
def keyPlace (k loc : Nat) : ErrPlace :=
  if isScratch k then meshPlace (clusterOf (keyCore k)) (keyCore k % 16) loc
  else meshPlace (stackOf k / 4 * 128 + 2 * bankOf k) (bankOf k) loc

/-- The location of an entry of a home bank's tables (R288), by the kinds of `tableOwners`. -/
def tableKey (s : State) (kind n : Nat) : Option Nat :=
  match kind with
  | 0 => (s.monitors[n]?).map (·.key)
  | 1 => (findOp s n).bind (fun o => o.pieces.head?.map (·.key))
  | 2 => some (n * 64)
  | 3 => some n
  | _ => (s.permRecs[n]?).map (·.line)

/-- The raw place of an error of a row of Table 14.6 as the log names it (R14, R308): of a core's structure by its router and core, of a
home bank's by its router and bank, of a cluster's by its router, of a line of main memory by its stack and pseudo-channel. -/
def errorPlace (s : State) (row site loc : Nat) : ErrPlace :=
  match row with
  | 0 | 1 | 2 | 3 => meshPlace (clusterOf site) (site % 16) loc
  | 4 => keyPlace loc loc
  | 5 => (match tableKey s (site / 4) loc with | some k => keyPlace k loc | none => .unit site loc)
  | 6 | 7 => meshPlace site 16 loc
  | 8 => hbmPlace loc
  | _ => .unit site loc

/-- The die of an error's place. -/
def errorDie (row site loc : Nat) : Nat :=
  match row with
  | 0 | 1 | 2 | 3 => dieOf site
  | 4 | 8 => stackOf loc / 4
  | 6 | 7 => site / 128
  | _ => site % 4

/-- An entry of the error log, dropped where the ring is full; an uncorrectable error raises vector 2 (R308). -/
def logError (s : State) (die row : Nat) (loc : ErrPlace) (corrected : Bool) : State :=
  { s with
    errlog := if s.errlog.length < s.errSize.toNat then
        s.errlog ++ [{ time := s.devtime, die := die, row := row, loc := loc, corrected := corrected }] else s.errlog
    msi := if corrected then s.msi else s.msi ++ [2] }

/-- CORRECTABLE_ERROR: an error of row `a` of Table 14.6 at place `b`, `c` is corrected: it is logged and counted on its die
(R288, R308). -/
def execCorrectableError (s : State) : Host.Outcome State Fault Refusal :=
  let die := errorDie s.subj.a s.subj.b s.subj.c
  event ((logError s die s.subj.a (errorPlace s s.subj.a s.subj.b s.subj.c) true).onDie die (fun x =>
    { x with errcount := x.errcount + 1 }))

/-- A failing register row or queue entry mapped to one of the two spares of its class, 0 scalar, 1 vector, 2 mask, 3 the rest; with
none left the slot is retired (R289). -/
def useSpare (k : Core) (i cls : Nat) : Core :=
  let used := mapGet 0 k.spares (i * 4 + cls)
  if used < 2 then { k with spares := mapSet k.spares (i * 4 + cls) (used + 1) }
  else { k with retired := i :: k.retired.filter (· != i) }

/-- A task aborted because its slot failed (R289). -/
def abortFailed (s : State) (c i cls : Nat) : State :=
  let t := s.slot c i
  let s := s.onCore c (fun k => useSpare k i cls)
  if t.st = .free then s else replayOrFence (abortStrand s c i) c t.chan t.seq t.ctx

/-- The context of a queued message: the owner of its channel's entry. -/
def queuedOwner (s : State) (c n : Nat) : Option Nat := ((s.core c).rx[n]?).map (fun m => entBits ((s.core c).entry m.chan) 76 64)

/-- What a copy that fails its parity loses: an L1 line, an instruction line, or a TLB entry by its place. -/
def dropCopy (k : Core) (kind n : Nat) : Core :=
  match kind with
  | 0 => { k with l1 := k.l1.filter (fun x => x.line != n) }
  | 1 => { k with icache := k.icache.filter (fun x => x.line != n) }
  | _ => { k with tlb := k.tlb.eraseIdx n }

/-- The owner of an accumulator, a map key or an operand slot's claim. -/
def entryOwner (g : Cluster) (kind n : Nat) : Option Nat :=
  match kind with
  | 0 => mapGet? g.accOwner n
  | 1 => (mapGet? g.maps n).map (fun _ => n / 32)
  | _ => mapGet? g.slotOwner n

/-- The context for which an operation or a launch waits at a monitor. -/
def monitorOwner (s : State) (id : Nat) : Option Nat :=
  match findOp s id with
  | some o => some o.ctx
  | none => (findLaunch s id).map (fun p => p.2.ctx)

/-- The contexts that own an entry of a home bank's tables (R288): 0 a monitor by its place, 1 a waiting QPOP.w by its operation, 2 the
reduction slots of a line, 3 a queue descriptor by the key of its line, 4 a permit record by its place. -/
def tableOwners (s : State) (kind n : Nat) : List Nat :=
  match kind with
  | 0 => ((s.monitors[n]?).bind (fun m => monitorOwner s m.op)).toList
  | 1 => ((findOp s n).map (·.ctx)).toList
  | 2 => ((s.redLines.filter (fun r => r.line == n)).flatMap (fun r => r.slots.flatMap (·.ctxs))).dedup
  | 3 => (mapGet? s.queueOwners n).toList
  | _ => ((s.permRecs[n]?).map (·.ctx)).toList

/-- What an uncorrectable error does, by the row of Table 14.6 and its place: a core or cluster, or the kind of a home-bank table; then a
slot and class, an entry, an offset, a kind and number, or an address. -/
def uncorrectable (s : State) (row site loc : Nat) : State :=
  match row with
  | 0 => abortFailed s site (loc % 4) (loc / 4 % 4)
  | 1 => if loc % 2 = 0 then abortFailed s site (loc / 2 % 4) 3 else (match queuedOwner s site (loc / 2) with | some x => fence s x | none => s)
  | 2 => setBad s (unitOf (spKey site (loc % 2 ^ 18))) true
  | 3 => s.onCore site (fun k => dropCopy k (loc % 4) (loc / 4))
  | 4 | 8 => if isHbm loc then setBad s (unitOf loc) true else s
  | 5 => (tableOwners s (site / 4) loc).foldl fence s
  | 6 => s.onCluster site (fun g => { g with marks := mapSet g.marks (loc % 256) (.poison, 0) })
  | 7 => (match entryOwner (s.cluster site) (loc % 4) (loc / 4) with | some x => fence s x | none => s)
  | _ => s

/-- UNCORRECTABLE_ERROR: an error of row `a` of Table 14.6 at place `b`, `c` (R288, R289, R308): it is logged, a link's apart, which is
not visible, and does what its structure gives. -/
def execUncorrectableError (s : State) : Host.Outcome State Fault Refusal :=
  let row := s.subj.a
  let s' := uncorrectable s row s.subj.b s.subj.c
  event (if 8 < row then s'
    else logError s' (errorDie row s.subj.b s.subj.c) row (errorPlace s row s.subj.b s.subj.c) false)

/-! ## Loss of a die (R293, R294) -/

/-- A context that a lost die has touched: its strands aborted and their channels suspended, its reservations ended, and reported. -/
def loseContext (d : Nat) (s : State) (x : Nat) : State :=
  let l := strandsOf s x
  let chans := l.map (fun p => (p.1, (s.slot p.1 p.2).chan))
  let s := l.foldl (fun s p => abortStrand s p.1 p.2) s
  let s := (s.resvs.filter (fun r => r.ctx == x)).foldl killResv s
  let s := chans.foldl (fun s p => s.onCore p.1 (fun k => { k with suspended := p.2 :: k.suspended.filter (· != p.2) })) s
  let s := s.onCtx x (fun c => { c with tdies := c.tdies &&& ~~~(BitVec.ofNat 4 (2 ^ d)) })
  wideReport s x .dielost (word (2 ^ d)) chans

/-- Whether the tree of a channel has its root, its publisher or a port on a die, or passes through it (R53, R293, R525). -/
def treeCrosses (s : State) (d c : Nat) (x : IChan) : Bool :=
  let root := c / 64
  let hit := fun (e : Nat) => e == d || (e == (root + 2) % 4 && d == passDie s root)
  root == d || (match x.pub with | some (k, _, _) => hit (dieOf k) | none => false) || x.ports.any (fun p => hit (dieOf p.core))

/-- A published channel broken: its publisher, still in a slot, publishes no more (R68). -/
def breakChannel (s : State) (x : IChan) : State :=
  match x.pub with
  | none => s
  | some (c, i, task) =>
    let s' := endPublication s task 2 (s.slot c i).pc.toNat
    if (s.slot c i).task = task then s'.setSlot c i { s'.slot c i with pub := false } else s'

/-- The die that a packet leaves: of its core, or of the launch unit or gateway that sent it; none for the host, the device or a peer. -/
def sourceDie (p : Packet) : Option Nat :=
  if p.src < 8192 then some (dieOf p.src) else if p.src < 8196 then some (p.src - 8192) else none

/-- The die by one of whose ports a packet for a core of a peer leaves. -/
def portDie (s : State) (src dev core : Nat) : Option Nat := (linkPort s src dev core).map (· / 4)

/-- Whether something that goes from a die to another passes a third, or leaves at it (R525). -/
def passes (s : State) (d a b : Nat) : Bool := b == (a + 2) % 4 && passDie s a == d

/-- Whether a packet between opposite dies, or for a port of another die, is lost with the die that it passes through or leaves by: some may
have passed it already, which is open (R525, log 82). Where both dies beside them are lost the spec names no path: the model goes on
delivering, its own choice (log 82). -/
def lostOnTheWay (s : State) (d : Nat) (p : Packet) : Bool :=
  match sourceDie p with
  | none => false
  | some a =>
    (match p.body with
     | .peer dev core _ _ _ _ _ => (match portDie s p.src dev core with | some b => b == d || passes s d a b | none => false)
     | _ => passes s d a (dieOf p.dst)) && Config.lostTransit s.tick p.pid

/-- Whether a packet is bound for a core of a die. -/
def boundFor (d : Nat) (p : Packet) : Bool := match p.body with | .peer _ _ _ _ _ _ _ => false | _ => dieOf p.dst == d

/-- Whether a packet is lost with a die: one of its own, one bound for it, or one on its way through it (R293, R525). -/
def lostPacket (s : State) (d : Nat) (p : Packet) : Bool := sourceDie p == some d || boundFor d p || lostOnTheWay s d p

/-- The die at which a request of a core is served, or by whose port it leaves for a peer. -/
def requestDie (s : State) (core k : Nat) : Option Nat :=
  if isPeer k then portDie s core (nbits (k - 2 ^ 60) 59 48) (peerCore k) else keyDie k

/-- Whether a request from a core to a die, or its reply, is lost with another die: on its way between opposite dies, or at a port of the
die; which of those under way are is open (R525, log 82). -/
def lostBetween (s : State) (d : Nat) (o : Op) (b : Nat) : Bool :=
  decide (o.core < 8192) && (passes s d (dieOf o.core) b || passes s d b (dieOf o.core)) && Config.lostTransit s.tick o.id

/-- Whether a piece of an operation is lost with a die: one still to be performed there, or held there in a Glover stage; or a request or
reply on its way through it. -/
def lostPiece (s : State) (d : Nat) (o : Op) (p : Piece) : Bool :=
  (!p.done && (keyDie p.key == some d || (s.clusters.any (fun g => g.1 / 128 == d && g.2.glover.contains o.id)))) ||
    (!p.hit && (match requestDie s o.core p.key with
      | some b => lostBetween s d o b || (isPeer p.key && b == d && Config.lostTransit s.tick o.id)
      | none => false))

/-- The die of the router or core that an operation without pieces asks: a group's root, or the core of a handler table. -/
def askedDie (o : Op) : Option Nat :=
  match o.kind with
  | .join | .leave | .gsize => some (groupRoot (groupKey o.ctx o.ptr.toNat) / 128)
  | .mcast _ _ => if o.phase = 0 then some (groupRoot (opGroup o) / 128) else none
  | .handler _ _ => some (dieOf (targetCore o.ptr))
  | _ => none

/-- Whether such a request, or its reply, is lost with a die (R293, R400, R525). -/
def lostAsking (s : State) (d : Nat) (o : Op) : Bool :=
  match askedDie o with
  | some b => (b == d && o.answer.isNone) || lostBetween s d o b
  | none => false

/-- An operation as the loss of a die leaves it: what it has lost there or on the way through faults with DIELOST, a pop in a Glover stage
or a request at its home having taken nothing; a TLBINV waits no longer for the caches of the die. -/
def loseOp (s : State) (d : Nat) (o : Op) : Op :=
  let bad := lostPiece s d o
  let f := (.dielost, 0, word (lostMask s))
  { o with
    phase := if isQueue o.kind && o.pieces.any bad then 4 else o.phase
    pieces := o.pieces.map (fun p => if bad p then { p with done := true, fault := some f } else p)
    answer := if lostAsking s d o || (isQueue o.kind && o.pieces.any bad) then none else o.answer
    fault := if lostAsking s d o then some f else o.fault
    todo := match o.kind with
      | .tlbinv _ _ => o.todo.filter (fun h => h != 8192 + d && !(decide (h < 8192) && dieOf h == d))
      | _ => o.todo }

/-- Whether an operation ends with a die: one of a core of it, a peer's that it was to serve, and one that faults with nobody waiting. -/
def opGone (s : State) (d : Nat) (o : Op) : Bool :=
  (decide (o.core < 8192) && dieOf o.core == d) || (decide (peerSrc ≤ o.core) && o.pieces.any (lostPiece s d o)) ||
    (lostAsking s d o && !o.pend && o.ctr.isNone)

/-- What stands in the clusters of a lost die, which is fenced: its queued tile operations, reloads, barrier credits, SFU requests and held
pops go on no more (R293). -/
def fenceCluster (g : Cluster) : Cluster :=
  { g with tileq := [], tileWant := [], reloads := [], credits := [], sfuq := [], sfuWait := [], glover := [] }

/-- What is under way at a lost die: its cores' operations end; accesses to its banks fault, having applied nothing; `before` is the module
before the loss, by whose paths it is told what passed through the die. -/
def loseOps (before s : State) (d : Nat) : State :=
  let mask := fun (o : Op) => loseOp { before with dies := s.dies } d o
  let gone := (s.ops.filter (opGone before d)).map (·.id)
  { s with
    ops := ((s.ops.filter (fun o => !gone.contains o.id)).map mask).map (fun o =>
      match o.kind with | .tlbinv _ _ => { o with answer := if o.todo.isEmpty then some [] else o.answer } | _ => o)
    cores := s.cores.map (fun p => if dieOf p.1 = d then (p.1, { p.2 with bankq := [] }) else p)
    clusters := s.clusters.map (fun p =>
      (p.1, if p.1 / 128 = d then fenceCluster p.2 else { p.2 with glover := p.2.glover.filter (fun i => !gone.contains i) }))
    monitors := s.monitors.filter (fun m => keyDie m.key != some d)
    redLines := s.redLines.filter (fun r => keyDie (r.line * 64) != some d)
    permRecs := s.permRecs.filter (fun r => keyDie r.line != some d)
    queueOwners := s.queueOwners.filter (fun p => keyDie p.1 != some d)
    leases := s.leases.filter (fun p => keyDie (p.1 * 64) != some d)
    fills := s.fills.filter (fun x => keyDie (x.1 * 64) != some d && dieOf x.2.1 != d)
    homeLines := s.homeLines.filter (fun l => keyDie (l * 64) != some d)
    tlb2 := s.tlb2.filter (fun x => xlatHome before x != d) }

/-- A packet for a peer that has been delivered or dropped: a task of a launch is counted, and the launch may end (R303, R414). -/
def peerGone (s : State) (p : Packet) (launch : Nat) (delivered : Bool) : State :=
  let s := { s with net := s.net.filter (fun q => q.pid != p.pid) }
  match findLaunch s launch with
  | none => s
  | some (d, l) =>
    let l' := { l with delivered := if delivered then l.delivered + 1 else l.delivered }
    settleLaunch (putLaunch s d l') d l'

/-- A packet lost with a die, which a launch of another die may count. -/
def packetGone (s : State) (p : Packet) : State :=
  match p.body with
  | .peer _ _ _ _ launch _ _ => peerGone s p launch false
  | _ => { s with net := s.net.filter (fun q => q.pid != p.pid) }

/-- A die lost (R293): what was on its way there or through it is lost, what the loss itself sends is not. -/
def dieLoss (s : State) (d : Nat) : State :=
  if (s.die d).lost ∨ 4 ≤ d then s
  else
    let before := s
    let gone := s.net.filter (lostPacket s d)
    let crossed := (s.chans.filter (fun p => treeCrosses s d p.1 p.2)).map (·.1)
    let dead := (s.die d).launches.map (·.id)
    let s := { s with monitors := s.monitors.filter (fun m => !dead.contains m.op) }
    let s := s.onDie d (fun x => { x with lost := true, wasReset := false, launches := [], profiles := [], ingest := [] })
    let s := gone.foldl packetGone s
    let s := ((s.ctxs.filter (fun p => p.2.tdies.getLsbD d)).map (·.1)).foldl (loseContext d) s
    let s := crossed.foldl (fun s c => breakChannel s (s.chan c)) s
    let s := { s with
      chans := s.chans.filter (fun p => p.1 / 64 != d || p.2.st == .ending)
      groups := s.groups.filter (fun p => groupRoot p.1 / 128 != d) }
    loseOps before s d

/-- DIE_LOSS: die `a` is lost (R293). -/
def execDieLoss (s : State) : Host.Outcome State Fault Refusal := event (dieLoss s s.subj.a)

/-- A core of a re-admitted die: as after reset, but for the slots retired and the spares used, which stand until module reset (R289,
R294). -/
def readmitted (k : Core) : Core := { retired := k.retired, spares := k.spares }

/-- DIE_READMISSION: die `a`, lost and reset, has come through bring-up: its cores and clusters are as after reset, and every line of
its stacks is poisoned (R294). -/
def execDieReadmission (s : State) : Host.Outcome State Fault Refusal :=
  let d := s.subj.a
  if !(s.die d).lost ∨ !(s.die d).wasReset ∨ (s.die d).boot ≠ 5 then event s
  else
    event ({ s with
      cores := s.cores.map (fun (p : Nat × Core) => if dieOf p.1 = d then (p.1, readmitted p.2) else p)
      clusters := s.clusters.filter (fun p => p.1 / 128 != d)
      mem := s.mem.filter (fun p => keyDie p.1 != some d)
      poison := s.poison.filter (fun u => keyDie u != some d) }.onDie d (fun x => { x with lost := false, wasReset := false, wiped := true }))

/-! ## Ports (R295-R301) -/

/-- A port, by 4 x die + raw port. -/
def State.port (s : State) (n : Nat) : Port := mapGet {} s.ports n

/-- A port changed. -/
def State.onPortN (s : State) (n : Nat) (f : Port → Port) : State := { s with ports := mapSet s.ports n (f (s.port n)) }

/-- The state of a port (Table 15.2). -/
def portState (p : Port) : Nat := bits p.stat 2 0

/-- Bits [h:l] of PORTSTAT replaced. -/
def putStat (p : Port) (h l v : Nat) : Port :=
  let m := 2 ^ (h + 1 - l)
  { p with stat := word (p.stat.toNat % 2 ^ l + v % m * 2 ^ l + p.stat.toNat / 2 ^ (h + 1) * 2 ^ (h + 1)) }

/-- A port that enters a state. -/
def enterPort (now st : Nat) (p : Port) : Port := { putStat p 2 0 st with since := now }

/-- A failure of training: DETECT again, or FAILED at the third within 1 ms (R296, R300). -/
def failPort (now : Nat) (p : Port) : Port :=
  let fails := now :: p.fails.filter (fun t => decide (now < t + 1000000))
  enterPort now (if 3 ≤ fails.length then 7 else 1) { p with fails := fails }

/-- An event of a port that is in a state; in another the event does nothing. -/
def portEvent (st : Nat) (f : State → Port → Port) (s : State) : Host.Outcome State Fault Refusal :=
  let p := s.port s.subj.a
  event (if s.subj.a < 16 ∧ portState p = st then s.onPortN s.subj.a (f s) else s)

/-- PORT_PARTNER_SEEN: port `a` in DETECT sees a partner, device `b`, within 10 ms (R296). -/
def execPortPartnerSeen (s : State) : Host.Outcome State Fault Refusal :=
  portEvent 1 (fun s p => if s.devtime ≤ p.since + 10000000 then enterPort s.devtime 2 (putStat p 43 32 s.subj.b) else p) s

/-- PORT_DETECT_TIMEOUT: port `a` in DETECT has seen no partner within 10 ms (R296). -/
def execPortDetectTimeout (s : State) : Host.Outcome State Fault Refusal :=
  portEvent 1 (fun s p => if p.since + 10000000 ≤ s.devtime then enterPort s.devtime 0 p else p) s

/-- LANE_TRAINING: port `a` in LANES finds the usable raw lanes `b` and whether the lanes were reversed, `c` (R296). -/
def execLaneTraining (s : State) : Host.Outcome State Fault Refusal :=
  portEvent 2 (fun s p =>
    if s.subj.b % 256 = 0 then failPort s.devtime p
    else enterPort s.devtime 3 (putStat (putStat p 23 16 s.subj.b) 8 8 s.subj.c)) s

/-- The highest speed of a mask of those that both partners offer and at which a lane meets the target. -/
def bestSpeed (mask : Nat) : Option Nat := [2, 1, 0].find? (fun i => mask / 2 ^ i % 2 == 1)

/-- SPEED_SETTLE: port `a` in SPEED takes the highest common speed of mask `b`; RS(544,514) is dropped only at 56 Gb/s, where `c` says
that both partners meet the tighter target (R297). -/
def execSpeedSettle (s : State) : Host.Outcome State Fault Refusal :=
  portEvent 3 (fun s p =>
    match bestSpeed s.subj.b with
    | none => failPort s.devtime p
    | some v => enterPort s.devtime 4 (putStat (putStat p 4 3 v) 5 5 (if v = 0 ∧ s.subj.c = 1 then 0 else 1))) s

/-- The widest aligned group within some lanes (R295, R297). -/
def bestWidth (mask : Nat) : Option Nat :=
  let has := fun (l n : Nat) => decide (mask / 2 ^ l % 2 ^ n = 2 ^ n - 1)
  if has 0 8 then some 0
  else if has 0 4 || has 4 4 then some 1
  else if has 0 2 || has 2 2 || has 4 2 || has 6 2 then some 2
  else if mask % 256 ≠ 0 then some 3
  else none

/-- The aligned groups of lanes of a width code (Table 15.1); mirroring takes each to another of its width (Table 1.3). -/
def laneGroups (w : Nat) : List Nat :=
  match w with
  | 0 => [255]
  | 1 => [15, 240]
  | 2 => [3, 12, 48, 192]
  | _ => [1, 2, 4, 8, 16, 32, 64, 128]

/-- The lowest aligned group of a width within some lanes that meets a condition; which of several a port uses is the model's choice
(log 91). -/
def groupIn (lanes w : Nat) (ok : Nat → Bool) : Option Nat := (laneGroups w).find? (fun g => g &&& lanes == g && ok g)

/-- WIDTH_SETTLE: port `a` in WIDTH takes the widest group of the lanes `b` that meet the target, among those found usable (R297). -/
def execWidthSettle (s : State) : Host.Outcome State Fault Refusal :=
  portEvent 4 (fun s p =>
    let lanes := s.subj.b &&& bits p.stat 23 16
    match bestWidth lanes with
    | none => failPort s.devtime p
    | some v => enterPort s.devtime 5 { putStat p 7 6 v with lanes := lanes, inUse := (groupIn lanes v (fun _ => true)).getD 0 }) s

/-- ATTESTATION: port `a` in ATTEST has exchanged identities; `b` says whether both were verified (R298). -/
def execAttestation (s : State) : Host.Outcome State Fault Refusal :=
  portEvent 5 (fun s p => enterPort s.devtime (if s.subj.b = 1 then 6 else 7) p) s

/-- FLIT_CRC_FAILURE: a flit on port `a` fails its CRC and is sent again from the retry buffer (`b` 0), or such a resend fails (`b` 1); a
resend that succeeds ends the row (R300). -/
def execFlitCrcFailure (s : State) : Host.Outcome State Fault Refusal :=
  portEvent 6 (fun s p => if 8 ≤ p.resends then p else { p with resends := if s.subj.b = 1 then p.resends + 1 else 0 }) s

/-- Whether BAR 0 answers more than its first registers: every die has reached stage 5 or a failure, or is out of service (R306). -/
def barOpen (s : State) : Bool := (List.range 4).all (fun d => (s.die d).boot == 5 || decide (0x80 < (s.die d).boot) || (s.die d).lost)

/-- A retrain counted in RETRAINS (Table 15.1). -/
def countRetrain (p : Port) : Port := putStat p 31 24 (bits p.stat 31 24 + 1)

/-- PORT_RETRAIN: eight resends in a row on port `a` have failed, and it retrains from LANES (R300); a port that is DOWN and not disabled
is told from outside to retrain, and looks for a partner (Table 15.2, log 91). -/
def execPortRetrain (s : State) : Host.Outcome State Fault Refusal :=
  let p := s.port s.subj.a
  if s.subj.a < 16 ∧ portState p = 0 ∧ bits p.stat 63 63 = 0 ∧ barOpen s then
    event (s.onPortN s.subj.a (fun p => enterPort s.devtime 1 (countRetrain p)))
  else
    portEvent 6 (fun s p =>
      if 8 ≤ p.resends then
        enterPort s.devtime 2 { countRetrain p with resends := 0 }
      else p) s

/-- WIDTH_MARKER: port `a` changes to width `b` at the next flit boundary: it narrows, within the lanes in use, as raw lane `c` of them fails
its error target; it widens, keeping those lanes, once lane `c`, which had failed, has passed a retrain of its own group (R301). -/
def execWidthMarker (s : State) : Host.Outcome State Fault Refusal :=
  portEvent 6 (fun s p =>
    let bit := 2 ^ (s.subj.c % 8)
    let w := s.subj.b % 4
    let now := bits p.stat 7 6
    if now < w then
      match (if p.inUse &&& bit = bit then groupIn (p.inUse - bit) w (fun _ => true) else none) with
      | some g => { putStat p 7 6 w with lanes := p.lanes - bit, inUse := g }
      | none => p
    else if w < now then
      match (if p.lanes &&& bit = bit then none
             else groupIn (p.lanes + bit) w (fun g => g &&& bit == bit && g &&& p.inUse == p.inUse)) with
      | some g => { putStat (putStat p 7 6 w) 23 16 (bits p.stat 23 16 ||| bit) with lanes := p.lanes + bit, inUse := g }
      | none => p
    else p) s

/-- PORTSTAT_DISABLE: the host sets (`b` = 1) or clears DISABLE of port `a`: a disabled port is DOWN, one set free looks for a partner
(R295, R296). -/
def execPortstatDisable (s : State) : Host.Outcome State Fault Refusal :=
  if 16 ≤ s.subj.a ∨ !barOpen s then event s
  else
    event (s.onPortN s.subj.a (fun p =>
      let p' := putStat p 63 63 s.subj.b
      if s.subj.b % 2 = 1 then enterPort s.devtime 0 p'
      else if bits p.stat 63 63 = 1 then enterPort s.devtime 1 p'
      else p'))

/-! ## Packets of the fabric (R157, R299, R302, R303) -/

/-- A packet for a peer leaves: to another device it is delivered; for the own device it comes back as a message (R136, R299, R472). -/
def deliverPeer (s : State) (p : Packet) : State :=
  match p.body with
  | .peer dev core chan pay launch host srccore =>
    if !linkReady s p.src dev core || s.net.any (fun q => decide (q.pid < p.pid) && q.src == p.src && q.net == p.net &&
        (match q.body with | .peer dev' core' _ _ _ _ _ => dev' == dev && core' == core | _ => false)) then s
    else
      let s' := peerGone s p launch true
      if dev = s.fabid.toNat then
        sendPacket s' p.src core p.net none (.message chan pay host dev (if host then 0 else srccore) false none 0)
      else s'
  | _ => s

/-- The atomics that a peer's packet may name. -/
def peerAmo (n : Nat) : AmoOp :=
  match n with | 2 => .add | 3 => .and | 4 => .or | 5 => .xor | 6 => .min | 7 => .max | _ => .swap

/-- What a peer's access of an operation code does at its target: 0 a load, 1 a store, 2 to 8 an AMO, 9 CAS, 11 the update function of a
number. -/
def peerKind (op n old data f : Nat) : OpKind :=
  match op with
  | 0 => .load n false
  | 1 => .store
  | 9 => .cas n (word old) (word data)
  | 11 => .ufn f (word old) (word data)
  | _ => .amo (peerAmo op) n (word data)

/-- A peer's access to some bytes here as requests of one bank each: at a scratchpad of at most 16 bytes, in one row (R139). -/
def peerPieces (p : Piece) : List Piece :=
  if isScratch p.key then
    (List.range ((p.n + 15) / 16)).map (fun i =>
      let n := Nat.min 16 (p.n - 16 * i)
      { p with key := p.key + 16 * i, n := n, data := p.data / 2 ^ (128 * i) % 2 ^ (8 * n), en := 2 ^ n - 1 })
  else [p]

/-- A peer's access here: `d` holds the pointer in [63:0], its bytes in [71:64], the operation in [79:72] (0 load, 1 store, 2 to 8 an AMO,
9 CAS, 10 a request for a translation, 11 UFN), the generation in [95:80], the old value of CAS or OPA in [159:96], the data or OPB from
[671:160], and the function's number in [675:672]. It is an operation of no task, which its banks serve as any request (R139, R140, R146);
UFN applies this device's own function, and nothing where there is none (R500). A refused access applies nothing (R136, R152, R157). -/
def peerAccess (s : State) (dev d : Nat) : State :=
  let p : Piece := { key := 2 ^ 60 + nbits d 59 0, n := nbits d 71 64, ptr := word (nbits d 63 0), data := d / 2 ^ 160 % 2 ^ 512,
                     en := 2 ^ nbits d 71 64 - 1 }
  let op := nbits d 79 72
  if op = 10 then giveXlat s dev (nbits d 43 0)
  else if p.n = 0 ∨ 64 < p.n ∨ p.key % p.n ≠ 0 ∨ (nbits d 47 44 = 4 ∧ !genFresh s dev (nbits d 43 0) (nbits d 95 80)) then s
  else
    match peerTargetOf s dev (if op = 0 then 1 else 2) p with
    | .error _ => s
    | .ok k =>
      if onLostDie s k then s
      else
        { s.fresh with ops := s.ops ++ [{ id := s.nextId, kind := peerKind op p.n (nbits d 159 96) p.data (nbits d 675 672)
                                          core := peerSrc + dev, slot := 0, task := 0, ctx := 8192, asid := 0, priv := false, pc := 0
                                          since := s.devtime
                                          pieces := peerPieces { p with key := k, ptr := word (5 * 2 ^ 60 + nbits d 59 0) } }] }

/-- A packet from another device: `b` is the device; `c` holds the target core in [12:0], the channel in [18:13], the network in
[20:19], whether it is an access in [21], the source core in [34:22], and whether its device's host launched it in [35] (R528); `d` a
message's payload or the access. -/
def inbound (s : State) (dev c d : Nat) : State :=
  if nbits c 21 21 = 1 then peerAccess s dev d
  else
    sendPacket s (2 ^ 20 + dev * 8192 + nbits c 34 22) (nbits c 12 0) (nbits c 20 19 % 3) none
      (.message (nbits c 18 13) (Vector.ofFn (fun i : Fin 8 => word (d / 2 ^ (64 * i.val)))) (nbits c 35 35 == 1) dev
        (if nbits c 35 35 = 1 then 0 else nbits c 34 22) false none 0)

/-- Piece `i` of an operation, at the own device as a peer, comes back over the link, where it has a port (R136). -/
def arriveSelf (s : State) (id i : Nat) : State :=
  match findOp s id with
  | none => s
  | some o =>
    match o.pieces[i]? with
    | none => s
    | some p => if !p.done && isSelfPeer s p.key && keyReady s o.core p.key && pieceReady s o i p then selfArrive s o i p else s

/-- LINK_PACKET_ARRIVAL: packet `a` of this device, or piece `b` of its access `a` to itself, arrives over the link; or, with `a` = 0, a
packet from device `b` arrives here and goes on as a mesh packet (R136, R299). -/
def execLinkPacketArrival (s : State) : Host.Outcome State Fault Refusal :=
  if s.subj.a = 0 then (if s.subj.b < 4096 ∧ s.subj.b ≠ s.fabid.toNat then event (inbound s s.subj.b s.subj.c s.subj.d.toNat) else event s)
  else match s.net.find? (fun p => p.pid == s.subj.a) with
    | some p => event (deliverPeer s p)
    | none => event (arriveSelf s s.subj.a s.subj.b)

/-- The wait of a packet, or of part `n` of an operation, for a READY port: a piece by its place, a TLBINV's holder by its number. -/
def waitKey (id n : Nat) : Nat := id * 2 ^ 20 + n

/-- Whether a packet for a peer finds no READY port. -/
def unlinked (s : State) (p : Packet) : Bool := match p.body with | .peer dev core _ _ _ _ _ => !linkReady s p.src dev core | _ => false

/-- The parts of an operation that find no READY port; an engine's waits are its own (R303). -/
def unlinkedParts (s : State) (o : Op) : List Nat :=
  match o.kind with
  | .copy | .copym => []
  | .tlbinv _ _ => o.todo.filter (fun h => decide (8196 ≤ h) && !linkReady s o.core (h - 8196) 0)
  | _ => (o.pieces.zipIdx.filter (fun (p, _) => !p.done && !keyReady s o.core p.key)).map (·.2)

/-- What finds no READY port now. -/
def waitsNow (s : State) : List Nat :=
  (s.net.filter (unlinked s)).map (fun p => waitKey p.pid 0) ++ s.ops.flatMap (fun o => (unlinkedParts s o).map (waitKey o.id))

/-- What finds no READY port, each since the instant from which it has not (R303). -/
def noteWaits (s : State) : State :=
  { s with linkWaits := (waitsNow s).map (fun k => (k, mapGet s.devtime s.linkWaits k)) }

/-- Whether something has found no READY port for 1 ms. -/
def waitedOut (s : State) (k : Nat) : Bool := match mapGet? s.linkWaits k with | some t => decide (t + 1000000 ≤ s.devtime) | none => false

/-- ROUTE_WAIT_TIMEOUT: packet or operation `a` has found no READY port for 1 ms: a message is dropped; each access of the operation that
has waited so is refused with REMOTE, having performed nothing, while its others go on; a peer that a TLBINV has not reached counts as
acknowledged (R303, R481, R488). -/
def execRouteWaitTimeout (s : State) : Host.Outcome State Fault Refusal :=
  match s.net.find? (fun p => p.pid == s.subj.a), findOp s s.subj.a with
  | some p, _ =>
    (match p.body with
     | .peer _ _ _ _ launch _ _ => event (if unlinked s p && waitedOut s (waitKey p.pid 0) then peerGone s p launch false else s)
     | _ => event s)
  | none, some o =>
    let l := (unlinkedParts s o).filter (fun n => waitedOut s (waitKey o.id n))
    (match o.kind with
     | .tlbinv _ _ => event (if l.isEmpty then s else invLeft s o.id (o.todo.filter (fun h => !l.contains h)))
     | _ => event (l.foldl (fun s i => donePiece s o.id i 0 s.devtime (some (noPort o))) s))
  | none, none => event s

/-! ## Bring-up (R306, R307) -/

/-- MODULE_RESET: the module as after reset; its steps go on being counted (R306). -/
def execModuleReset (s : State) : Host.Outcome State Fault Refusal := event { State.reset with tick := s.tick, agenda := s.agenda }

/-- A die in a stage of bring-up goes on to the next, or fails and is held out of service (Table 15.4); vector 0 is raised once the last
die has settled. -/
def stageOver (s : State) (d code : Nat) (ok : Bool) : State :=
  if (s.die d).boot ≠ code ∨ 4 ≤ d ∨ ((s.die d).lost ∧ !(s.die d).wasReset) then s
  else
    let s' := s.onDie d (fun x => { x with boot := if ok then code + 1 else code + 0x80, lost := if ok then x.lost else true })
    if barOpen s' && !barOpen s then { s' with msi := s'.msi ++ [0] } else s'

/-- The ports of a die that begins stage 4 look for partners; a disabled port stays DOWN (R295, R306). -/
def startPorts (s : State) (d : Nat) : State :=
  if (s.die d).boot = 4 ∧ s.modReady then
    (List.range 4).foldl (fun s i => s.onPortN (4 * d + i) (fun p =>
      if portState p = 0 ∧ bits p.stat 63 63 = 0 then enterPort s.devtime 1 p else p)) s
  else s

/-- FIRMWARE_STAGE: the boot ROM of die `a` has checked its image; `b` says whether it passed (Table 15.4). -/
def execFirmwareStage (s : State) : Host.Outcome State Fault Refusal := event (stageOver s s.subj.a 1 (s.subj.b == 1))

/-- MEMORY_STAGE: the stacks of die `a` have been trained; `b` is the mask of the four that passed (Table 15.4). -/
def execMemoryStage (s : State) : Host.Outcome State Fault Refusal := event (stageOver s s.subj.a 2 (s.subj.b % 16 == 15))

/-- MESH_STAGE: the self-test of die `a` has ended, DEVTIME is set, and the ports begin once the module is ready (Table 15.4, R302). -/
def execMeshStage (s : State) : Host.Outcome State Fault Refusal :=
  let s' := stageOver s s.subj.a 3 (s.subj.b == 1)
  event (if (s.die s.subj.a).boot = 3 then startPorts s' s.subj.a else s')

/-- LINKS_STAGE: every port of die `a` is READY, DOWN or FAILED, and its cores are released (Table 15.4). -/
def execLinksStage (s : State) : Host.Outcome State Fault Refusal :=
  let d := s.subj.a
  let settled := (List.range 4).all (fun i => [0, 6, 7].contains (portState (s.port (4 * d + i))))
  event (if s.modReady && settled then stageOver s d 4 true else s)

/-- MODCTL_READY: the host sets the module ready, which holds until module reset; dies that wait at stage 4 begin it (R302). -/
def execModctlReady (s : State) : Host.Outcome State Fault Refusal :=
  if s.modReady then event s else event ((List.range 4).foldl startPorts { s with modReady := true })

/-- A lost die reset: it begins bring-up again, its ports and configuration as after reset (R307). -/
def resetDie (s : State) (d : Nat) : State :=
  if (s.die d).lost then
    { s with ports := s.ports.filter (fun p => p.1 / 4 != d) }.onDie d (fun x => { lost := true, errcount := x.errcount, wiped := x.wiped, wasReset := true })
  else s

/-- DIERESET: the host resets the dies of mask `a`; a die that is not lost ignores it (R307). -/
def execDiereset (s : State) : Host.Outcome State Fault Refusal :=
  if barOpen s then event ((List.range 4).foldl (fun s d => if s.subj.a / 2 ^ d % 2 = 1 then resetDie s d else s) s) else event s

/-! ## Thermal (R313) -/

/-- THERMAL_TRIP: the sensor of cluster `a` reads 105 degrees or more: the cluster, or its lock domain, goes to 9; logged as row 10. -/
def execThermalTrip (s : State) : Host.Outcome State Fault Refusal :=
  let g := s.subj.a
  if (s.cluster g).tripped ∨ 512 ≤ g then event s
  else event (retarget (logError (s.onCluster g (fun c => { c with tripped := true })) (g / 128) 10 (sensorPlace g) true) g)

/-- THERMAL_RECOVERY: the sensor of cluster `a` reads 95 degrees or less. -/
def execThermalRecovery (s : State) : Host.Outcome State Fault Refusal :=
  let g := s.subj.a
  if (s.cluster g).tripped then event (retarget (s.onCluster g (fun c => { c with tripped := false })) g) else event s

/-- THERMAL_SHUTDOWN: a sensor of die `a` reads 125 degrees, and the die is treated as lost. -/
def execThermalShutdown (s : State) : Host.Outcome State Fault Refusal := event (dieLoss s s.subj.a)

/-! ## The host (R168, R280, R304, R528) -/

/-- HOST_POSTED_MESSAGE: the host posts a message, `d` bits [511:0], to channel `b` of core `a` (R528). -/
def execHostPostedMessage (s : State) : Host.Outcome State Fault Refusal :=
  event (sendPacket s (2 ^ 19) (s.subj.a % 8192) 0 none
    (.message (s.subj.b % 64) (Vector.ofFn (fun i : Fin 8 => word (s.subj.d.toNat / 2 ^ (64 * i.val)))) true s.fabid.toNat 0 false none 0))

/-- HOST_POSTED_WRITE: the host's next posted write, eight bytes `d` to device memory at physical address `a`, is applied; where its home
bank has no way for the line it waits there, and those behind it with it (R146, R168). -/
def execHostPostedWrite (s : State) : Host.Outcome State Fault Refusal :=
  let k := s.subj.a / 8 * 8
  if !isHbm k || onLostDie s k then event s
  else if !homeRoom s (k / 64) then event { s with agenda := (2, .hostPostedWrite, s.subj) :: s.agenda }
  else event (applyWrite (homeTake s (k / 64)) k 8 (s.subj.d.toNat % 2 ^ 64) 255)

/-- REPORT_DOORBELL: the host releases the report whose id is in `d` with action `a`; one that names no outstanding report, or has a bit
above [1:0] set, is ignored (R280). -/
def execReportDoorbell (s : State) : Host.Outcome State Fault Refusal :=
  if !barOpen s ∨ 4 ≤ s.subj.a then event s
  else match findReport s (s.subj.d.setWidth 64) with | some r => event (releaseReport s r s.subj.a) | none => event s

/-- A BAR 0 register that only stores what the host writes (Table 15.3). -/
def barWrite (s : State) (off : Nat) (v : Word) : State :=
  if off = 0x10 then (if s.modReady then s else { s with fabid := v.setWidth 12 })
  else if !barOpen s then s
  else
    match off with
    | 0x100 => { s with ctxtable := v }
    | 0x108 => { s with ringBase := v }
    | 0x110 => { s with ringSize := v }
    | 0x200 => { s with errBase := v }
    | 0x208 => { s with errSize := v }
    | _ =>
      if 0x40000 ≤ off ∧ off < 0x40400 ∧ off % 0x100 = 0 then
        s.onDie (off / 0x100 % 4) (fun d => { d with tailorcfg := v &&& 0x800003FF })
      else s

/-- What the host reads at an offset of BAR 0: reserved bits and write-only registers read zero (R4, Table 15.3). A read of the report
doorbell, 0x118, returns 0, the model's choice (log 98). -/
def barRead (s : State) (off : Nat) : Word :=
  if off = 0 then word Config.idRegister.toNat
  else if off = 0x08 then word ((List.range 4).map (fun d => (s.die d).boot * 256 ^ d)).sum
  else if off = 0x10 then s.fabid.setWidth 64
  else if off = 0x20 then word (if s.modReady then 1 else 0)
  else if !barOpen s then 0
  else
    match off with
    | 0x100 => s.ctxtable
    | 0x108 => s.ringBase
    | 0x110 => s.ringSize
    | 0x200 => s.errBase
    | 0x208 => s.errSize
    | _ =>
      if 0x300 ≤ off ∧ off < 0x320 ∧ off % 8 = 0 then (s.die ((off - 0x300) / 8)).errcount
      else if 0x400 ≤ off ∧ off < 0x480 ∧ off % 8 = 0 then (s.port ((off - 0x400) / 8)).stat
      else if 0x40000 ≤ off ∧ off < 0x40400 ∧ off % 0x100 = 0 then (s.die (off / 0x100 % 4)).tailorcfg
      else 0

/-- HOST_REGISTER_WRITE: the host writes `d` to offset `a` of BAR 0, FABID only until the module is ready (R302, R304). Its driver also
writes the export table, `b` = 1, entry `a` of the route table of the gateway of die `c`, `b` = 2, and ASID record `a`, `b` = 3, which
also a privileged strand does, `b` = 4, slot `c` mod 4 of core `c` / 4 (R150, R152, R153, R302): the spec does not say how they are
reached (log 16). -/
def execHostRegisterWrite (s : State) : Host.Outcome State Fault Refusal :=
  let v : Word := s.subj.d.setWidth 64
  match s.subj.b with
  | 0 => event (barWrite s s.subj.a v)
  | 1 => event { s with exports := mapSet s.exports (s.subj.a % 4096) (bits v 12 0, bits v 13 13 == 1) }
  | 2 => event { s with routes := mapSet s.routes (s.subj.c % 4 * 4096 + s.subj.a % 4096) (v.setWidth 16) }
  | 3 => event (writeAsid s (s.subj.a % 8192) (s.subj.d.setWidth 256))
  | 4 => if byPrivileged s then event (writeAsid s (s.subj.a % 8192) (s.subj.d.setWidth 256)) else event s
  | _ => event s

end Sys2Proof.Machine
end

