-- ==== Sys2Proof/Machine/Routing.lean ====
section
/-!
DEFINITION. Expert routing: the score mailbox, replicas, rows as active messages, row queues and the combine (major 0x1A):
R245-R254, R427-R430, R465.
-/

namespace Sys2Proof.Machine

open Sys2Proof

/-! ## The mailbox (R246-R249) -/

/-- The module with the mailbox of a core changed. -/
def onMbox (s : State) (c : Nat) (f : Mailbox → Mailbox) : State := s.onCore c (fun k => { k with mbox := f k.mbox })

/-- MBOXK (R246, R427). -/
def execMboxk (a : BitVec 5) (y : Bool) (s : State) : Host.Outcome State Fault Refusal :=
  finish 4 (guard [rdS s.me a y] (fun s =>
    let v := s.me.rs a y
    let k := v.toNat
    if 8 < k then .trap s .bound 0 v
    else
      match s.myCore.mbox.owner with
      | some x =>
        if x ≠ s.me.ctx then .trap s .slot 0 48
        else .ok (onMbox s s.cur.1 (fun _ => if k = 0 then {} else { owner := some s.me.ctx, k := k }))
      | none => .ok (onMbox s s.cur.1 (fun _ => if k = 0 then {} else { owner := some s.me.ctx, k := k }))) s)

/-- MBPUT (R247, R428). -/
def execMbput (a b : BitVec 5) (y : Bool) (s : State) : Host.Outcome State Fault Refusal :=
  finish 4 (guard [rdS s.me a y, rdS s.me b false] (fun s =>
    let v := s.me.rs a y
    if bits v 31 13 ≠ 0 then .trap s .bound 0 v
    else buffer { form := 2, net := 0, dest := 0, data := [v, s.me.rs b false], pc := s.me.pc.toNat } s) s)

/-- A score as a number that orders f32 values other than NaN, -0 equal to +0 (R248). -/
def scoreKey (n : Nat) : Int := if n / 2 ^ 31 % 2 = 1 then -((n % 2 ^ 31 : Nat) : Int) else ((n % 2 ^ 31 : Nat) : Int)

/-- Whether a score is a NaN. -/
def scoreNan (n : Nat) : Bool := decide (0x7F800000 < n % 2 ^ 31)

/-- The order of a token's list: score descending, then expert ascending (R248). -/
def listBefore (a b : Nat × Nat × Nat) : Bool :=
  decide (scoreKey b.1 < scoreKey a.1) || (scoreKey a.1 == scoreKey b.1 && decide (a.2.1 < b.2.1))

/-- An element put into a list in its order. -/
def listInsert (x : Nat × Nat × Nat) : List (Nat × Nat × Nat) → List (Nat × Nat × Nat)
  | [] => [x]
  | y :: t => if listBefore x y then x :: y :: t else y :: listInsert x t

/-- A put of score, expert and key in a list of at most `k` (R248). -/
def listPut (k : Nat) (x : Nat × Nat × Nat) (l : List (Nat × Nat × Nat)) : List (Nat × Nat × Nat) :=
  match l.find? (fun y => y.2.1 == x.2.1) with
  | some y => if scoreKey y.1 < scoreKey x.1 then listInsert x (l.filter (fun z => z.2.1 != x.2.1)) else l
  | none => (listInsert x l).take k

/-- The index of the entry that holds a token. -/
def entryOf (m : Mailbox) (token : Nat) : Option Nat := m.entries.findIdx? (fun e => e.st != 0 && e.token == token)

/-- The module after a put on a mailbox; none where it finds no entry free and waits (R248). -/
def applyPut (m : Mailbox) (token : Nat) (x : Nat × Nat × Nat) : Option Mailbox :=
  match entryOf m token with
  | some i =>
    some { m with entries := m.entries.modify i (fun e =>
      if e.st = 2 then e else { e with puts := Nat.min (e.puts + 1) 255, list := listPut m.k x e.list }) }
  | none =>
    (m.entries.findIdx? (fun e => e.st == 0)).map (fun i =>
      { m with entries := m.entries.set i { st := 1, token := token, puts := 1, list := listPut m.k x [] } })

/-- MAILBOX_PUT: the put of packet `a` reaches its mailbox: dropped where the mailbox is not of the sender's context or the score is
a NaN, applied, or left waiting in the network, whose request input at the core it holds, while no entry is FREE (R247, R248). -/
def execMailboxPut (s : State) : Host.Outcome State Fault Refusal :=
  match s.net.find? (fun p => p.pid == s.subj.a) with
  | none => event s
  | some p =>
    match p.body with
    | .put ctx sa sb =>
      let m := (s.core p.dst).mbox
      if !firstOfFlow s p || !inputOpen s p then event s
      else if m.owner ≠ some ctx ∨ scoreNan (bits sb 31 0) then event (perf (dropPacket s p.pid) p.dst 0x14 1)
      else
        match applyPut m (bits sa 63 32) (bits sb 31 0, bits sb 47 32, bits sb 63 48) with
        | some m => event (onMbox (dropPacket s p.pid) p.dst (fun _ => m))
        | none => event (holdInput s p)
    | _ => event s

/-- The first result word of MBTAKE. -/
def takeHead (n puts token : Nat) : Nat := n + puts * 2 ^ 8 + token * 2 ^ 32

/-- The result word of a kept expert. -/
def takeWord (x : Nat × Nat × Nat) : Nat := x.1 + x.2.1 * 2 ^ 32 + x.2.2 * 2 ^ 48

/-- MBTAKE (R245, R249, R429): BOUND on sb, SLOT, then REGBOUND on d + k; it blocks until enough puts have come; then its entry is
COMBINING, and the list is on its way to its registers, counted in ld until they are written. -/
def execMbtake (d a b : BitVec 5) (x y : Bool) (s : State) : Host.Outcome State Fault Refusal :=
  finish 4 (guard [rdS s.me a y, rdS s.me b false, wrS s.me d x] (fun s =>
    let v := s.me.rs b false
    let m := s.myCore.mbox
    if 255 < v.toNat then .trap s .bound 0 v
    else if m.owner ≠ some s.me.ctx then .trap s .slot 0 48
    else
      guard (⟨0, s.me.idx d.toNat x + m.k, false, true⟩ :: wrRange s.me d x (m.k + 1)) (fun s =>
        let token := bits (s.me.rs a y) 31 0
        let i := m.entries.findIdx? (fun e => e.st == 1 && e.token == token)
        let e := (i.bind (fun i => m.entries[i]?)).getD {}
        if e.puts < v.toNat then .block s (.puts token v.toNat)
        else
          let n := e.list.length
          let vals := takeHead n (if n = 0 then 0 else e.puts) token :: (e.list.map takeWord ++ List.replicate (m.k - n) 0)
          let regs := (List.range (m.k + 1)).map (fun j => Reg.s (s.me.reg d.toNat x + j))
          let s := startOp s { myOp s .mbtake with ctr := some .ld, regs := regs, answer := some vals }
          match i with
          | some i =>
            if n = 0 then .ok s
            else .ok (onMbox s s.cur.1 (fun m => { m with entries := m.entries.modify i (fun e =>
              { e with st := 2, list := [], experts := e.list.map (fun z => z.2.1), got := List.replicate n false }) }))
          | none => .ok s) s) s)

/-- The hash of a token id (R250). -/
def tokenHash (t : Nat) : Nat := t * 0x9E3779B1 % 2 ^ 32

/-- REPL (R250, R465). -/
def execRepl (d a b : BitVec 5) (x y : Bool) (s : State) : Host.Outcome State Fault Refusal :=
  finish 4 (guard [rdS s.me a y, rdS s.me b false, wrS s.me d x] (fun s =>
    let v := s.me.rs b false
    let n := bits v 8 0
    if bits v 15 9 ≠ 0 ∨ bits v 63 24 ≠ 0 ∨ n = 0 ∨ 256 < n then .trap s .bound 0 v
    else
      let h := tokenHash (bits (s.me.rs a y) 31 0)
      .ok (s.onMe (fun t => t.ws d x (word ((h * n / 2 ^ 32 + bits v 23 16) % n))))) s)

/-! ## Rows (R251-R253) -/

/-- The destination word of a row is well formed (R251). -/
def rowDestOk (w : Word) : Bool :=
  bits w 63 50 == 0 && decide (1 ≤ bits w 25 14) && decide (bits w 25 14 ≤ 512) && bits w 49 32 % 64 == 0

/-- EXPSEND (R251). -/
def execExpsend (d a b : BitVec 5) (x y : Bool) (s : State) : Host.Outcome State Fault Refusal :=
  finish 4 (guard [rdS s.me a y, rdS s.me b false, rdS s.me d x] (fun s =>
    let w := s.me.rs a y
    let p := s.me.rs b false
    if !rowDestOk w then .trap s .bound 0 w
    else if 4 < tagOf p then .trap s .space 0 p
    else if p.toNat % 16 ≠ 0 then .trap s .align 0 p
    else
      translated (rangePages p (16 * bits w 25 14)) (fun s =>
        match rangeSegs s s.actor 1 p (16 * bits w 25 14) with
        | .error (c, sub, tval) => .trap s c sub tval
        | .ok _ =>
          buffer { form := 3, net := if bits w 13 13 = 1 then 1 else 0, dest := 0, data := [s.me.rs d x, w, p],
                   pc := s.me.pc.toNat } s) s) s)

/-- A bounce: a message on the reply network from a core to the bounce channel of the source core, where the row names one (R253). -/
def bounce (s : State) (core src : Nat) (tag dst : Word) (code : Nat) : State :=
  if bits dst 31 26 = 0 then s
  else sendPacket s core src 1 none
    (.message (bits dst 31 26) (payload [tag, dst, word code, word s.devtime]) false s.fabid.toNat core false none 0)

/-- A packet's body replaced where it stands. -/
def setBody (s : State) (pid : Nat) (b : Body) : State :=
  { s with net := s.net.map (fun p => if p.pid = pid then { p with body := b } else p) }

/-- EXPSEND_ROW_READ: the sending core reads the row of packet `a` at its banks, once they can serve it; a fault cancels the send and
bounces it with code 6 (R140, R146, R251, R253). -/
def execExpsendRowRead (s : State) : Host.Outcome State Fault Refusal :=
  match s.net.find? (fun p => p.pid == s.subj.a) with
  | none => event s
  | some p =>
    match p.body with
    | .rowRead ctx asid priv tag dst ptr _ =>
      let fail := fun (s : State) => bounce (dropPacket s p.pid) p.src p.src tag dst 6
      match hardSegs s ⟨p.src, ctx, asid, priv⟩ 1 ptr (16 * bits dst 25 14) with
      | (s, .error _) => event (fail s)
      | (s, .ok segs) =>
        if !segsFree s segs then event s
        else
        match readSegs s ⟨p.src, ctx, asid, priv⟩ ptr segs with
        | (s, .error _) => event (fail s)
        | (s, .ok l) => event (setBody s p.pid (.row ctx asid priv tag dst l none))
    | _ => event s

/-- A row-queue header (Table 12.3). -/
structure RowHeader where
  slots : Nat
  rowb : Nat
  thresh : Nat
  timer : Nat
  ch : Nat
  head : Nat
  ann : Nat
  tail : Nat
  drops : Nat
  reserved : Bool
  deriving DecidableEq, Repr

/-- The header of a line's bits. -/
def headerOf (n : Nat) : RowHeader :=
  { slots := nbits n 15 0, rowb := nbits n 31 16, thresh := nbits n 47 32, timer := nbits n 63 48, ch := nbits n 69 64,
    head := nbits n 127 96, ann := nbits n 159 128, tail := nbits n 191 160, drops := nbits n 223 192,
    reserved := nbits n 95 70 != 0 || nbits n 511 224 != 0 }

/-- Whether a header can be used (R253). -/
def headerOk (h : RowHeader) : Bool :=
  !h.reserved && h.ch != 0 && decide (1 ≤ h.slots) && decide (h.slots ≤ 4096) && decide (1 ≤ h.rowb) && decide (h.rowb ≤ 512) &&
    decide (1 ≤ h.thresh) && decide (h.thresh ≤ h.slots)

/-- The header at an offset of a core's scratchpad. -/
def headerAt (s : State) (c off : Nat) : RowHeader := headerOf (readNat s (spKey c off) 64)

/-- A 32-bit count of a header written. -/
def putCount (s : State) (c off at' v : Nat) : State := applyWrite s (spKey c off + at') 4 (v % 2 ^ 32) 15

/-- The offset of the slot that the next row takes. -/
def slotOff (h : RowHeader) (off : Nat) : Nat := off + 64 + h.tail % h.slots * (16 + 16 * h.rowb)

/-- Rows not yet announced. -/
def unannounced (h : RowHeader) : Nat := (h.tail + 2 ^ 32 - h.ann) % 2 ^ 32

/-- Whether the rows present and `n` more can be announced: there is one, and the receive store has room (R253). -/
def announces (s : State) (c off n : Nat) : Bool :=
  let h := headerAt s c off
  decide (unannounced { h with tail := (h.tail + n) % 2 ^ 32 } ≠ 0) && rxRoom (s.core c) h.ch

/-- The announcement of every row present and of `n` rows that come with it, where the receive store has room: TAIL and ANN are written in
one bank application (R253, R528). -/
def announce (s : State) (c off n : Nat) : State :=
  let h := headerAt s c off
  let h := { h with tail := (h.tail + n) % 2 ^ 32 }
  if !announces s c off n then s
  else
    let s := applyWrite s (spKey c off + 16) 8 (h.tail + h.tail * 2 ^ 32) (if n = 0 then 15 else 255)
    let s := s.onCore c (fun k => { k with rings := mapDel k.rings off })
    takeMessage s c { chan := h.ch, seq := 0, pay := payload [word off, word h.ann, word (unannounced h), word s.devtime],
                      msgid := msgidOf s.fabid.toNat c h.ch false (s.core c).nextSeq } false

/-- Whether a row's header and slot lie in valid regions of the sender's ASID on the target. -/
def rowRegions (s : State) (c ctx asid : Nat) (priv : Bool) (off n : Nat) : Bool :=
  decide (off + n ≤ 2 ^ 18) && regionOk s c ctx asid priv off n

/-- Whether the fields that place a header's slots are in range. -/
def headerPlaces (h : RowHeader) : Bool :=
  decide (1 ≤ h.slots) && decide (h.slots ≤ 4096) && decide (1 ≤ h.rowb) && decide (h.rowb ≤ 512)

/-- Why a row queue refuses a row: the cause code, and whether its header is usable: region, header, length, full, in that order (R253). A
poisoned header, for which the rule has no cause, is not usable and refuses with code 2: the model's choice (log 95). The bytes that the
region check takes for the slot are 16 + 16 x ROWB of the header, also where the row's L differs: the model's choice (log 98). -/
def rowRefused (s : State) (c ctx asid : Nat) (priv : Bool) (dst : Word) : Option (Nat × Bool) :=
  let off := bits dst 49 32
  let h := headerAt s c off
  let usable := !poisoned s (spKey c off) 64 && headerOk h
  if !rowRegions s c ctx asid priv off 64 then some (1, false)
  else if !poisoned s (spKey c off) 64 && headerPlaces h && !rowRegions s c ctx asid priv (slotOff h off) (16 + 16 * h.rowb) then
    some (1, usable)
  else if !usable then some (2, false)
  else if bits dst 25 14 ≠ h.rowb then some (3, true)
  else if (h.tail + 2 ^ 32 - h.head) % 2 ^ 32 = h.slots then some (4, true)
  else none

/-- A combined result's bit set; with every bit set the entry is FREE (R254). -/
def gotResult (token j : Nat) (m : Mailbox) : Mailbox :=
  { m with entries := m.entries.map (fun e =>
      if e.st = 2 ∧ e.token = token then
        let got := e.got.set j true
        if got.all id then {} else { e with got := got }
      else e) }

/-- The rank of a tag's expert in the COMBINING entry of its token, where that bit of the received mask is clear (R254). -/
def resultRank (m : Mailbox) (tag : Word) : Option Nat :=
  (m.entries.find? (fun e => e.st == 2 && e.token == bits tag 31 0)).bind (fun e =>
    (e.experts.findIdx? (· == bits tag 47 32)).bind (fun j => if e.got[j]? = some false then some j else none))

/-- A duplicate result discarded and counted, with its bounce (R253, R254). -/
def duplicateRow (s : State) (p : Packet) (tag dst : Word) : State :=
  bounce ((dropPacket s p.pid).onCore p.dst (fun k => { k with dupcnt := k.dupcnt + 1 })) p.dst p.src tag dst 5

/-- Whether a row's header and slot can be served at once by their banks (R140). -/
def rowFree (s : State) (c off : Nat) : Bool :=
  let h := headerAt s c off
  bankFree s (spKey c off) 64 && (!headerPlaces h || bankFree s (spKey c (slotOff h off)) (16 + 16 * h.rowb))

/-- A row counted in TAIL; once THRESH rows wait they are announced with it. The first unannounced one starts TIMER (R253). -/
def countRow (s : State) (c off : Nat) : State :=
  let h := headerAt s c off
  if decide (h.thresh ≤ unannounced { h with tail := (h.tail + 1) % 2 ^ 32 }) && announces s c off 1 then announce s c off 1
  else
    (putCount s c off 20 (h.tail + 1)).onCore c (fun k => { k with
      rings := if unannounced h ≠ 0 ∧ (mapGet? k.rings off).isSome then k.rings else mapSet k.rings off s.devtime })

/-- A row written into its slot, with its tag, source core and rank, and counted (R252, R253). The tag's bits [79:77] and [127:83], and
the rank of a row with RESULT 0, for which the rule gives no value, are written 0: the model's choice (log 98). -/
def writeRow (s : State) (c src : Nat) (tag dst : Word) (l : List Byte) (rank : Option Nat) : State :=
  let off := bits dst 49 32
  let h := headerAt s c off
  let k := spKey c (slotOff h off)
  let s := applyBytes s k (leBytes 8 tag.toNat ++ leBytes 8 (src % 2 ^ 13 + rank.getD 0 * 2 ^ 16))
  countRow (putRun s (k + 16) l (l.length / 16 + 2)) c off

/-- RESULT_COMBINE: the row of packet `a`, a result, reaches the mailbox of its token's home core: it goes on to its row queue with
its rank, or is discarded as a duplicate (R254). -/
def execResultCombine (s : State) : Host.Outcome State Fault Refusal :=
  match s.net.find? (fun p => p.pid == s.subj.a) with
  | none => event s
  | some p =>
    match p.body with
    | .row ctx asid priv tag dst l none =>
      if bits dst 13 13 = 0 ∨ !firstOfFlow s p ∨ !inputOpen s p then event s
      else
        match resultRank (s.core p.dst).mbox tag with
        | some j => event (setBody s p.pid (.row ctx asid priv tag dst l (some j)))
        | none => event (duplicateRow s p tag dst)
    | _ => event s

/-- ROW_ARRIVAL: the row of packet `a` reaches its row queue once its banks can serve it: refused, with DROPS counted and a bounce, or
written, and announced once THRESH rows wait (R140, R252-R254). A result whose rank another copy has taken meanwhile is a duplicate. -/
def execRowArrival (s : State) : Host.Outcome State Fault Refusal :=
  match s.net.find? (fun p => p.pid == s.subj.a) with
  | none => event s
  | some p =>
    match p.body with
    | .row ctx asid priv tag dst l rank =>
      let c := p.dst
      let off := bits dst 49 32
      if !firstOfFlow s p || !inputOpen s p || (bits dst 13 13 == 1 && rank.isNone) || !rowFree s c off then event s
      else if rank.isSome && resultRank (s.core c).mbox tag != rank then event (duplicateRow s p tag dst)
      else
        let s := touchDie (dropPacket s p.pid) ctx (dieOf c)
        match rowRefused s c ctx asid priv dst with
        | some (code, usable) =>
          let s := if usable then putCount s c off 24 ((headerAt s c off).drops + 1) else s
          event (bounce s c p.src tag dst code)
        | none =>
          let s := writeRow s c p.src tag dst l rank
          event (match rank with | some j => onMbox s c (gotResult (bits tag 31 0) j) | none => s)
    | _ => event s

/-- ROW_QUEUE_TIMER: TIMER of the row queue at offset `b` of core `a` has run since its first unannounced row: it is announced (R253). -/
def execRowQueueTimer (s : State) : Host.Outcome State Fault Refusal :=
  let h := headerAt s s.subj.a s.subj.b
  match mapGet? (s.core s.subj.a).rings s.subj.b with
  | none => event s
  | some t =>
    if headerOk h ∧ h.timer ≠ 0 ∧ t + 1000 * h.timer ≤ s.devtime then event (announce s s.subj.a s.subj.b 0) else event s

/-- ANNOUNCEMENT: an announcement of the row queue at offset `b` of core `a` that waited for a receive entry is posted (R253). -/
def execAnnouncement (s : State) : Host.Outcome State Fault Refusal :=
  let h := headerAt s s.subj.a s.subj.b
  if (mapGet? (s.core s.subj.a).rings s.subj.b).isSome ∧ headerOk h ∧ h.thresh ≤ unannounced h then
    event (announce s s.subj.a s.subj.b 0)
  else event s

end Sys2Proof.Machine
end

