-- ==== Sys2Proof/Machine/Choice.lean ====
section
/-!
DEFINITION. Which thing steps next: the strands that can issue, the events inside the module that may come about, inputs from outside,
and how time passes (log 2, log 3). An event that is offered and not due leaves the machine as it is, so that only time passes.
-/

namespace Sys2Proof.Machine

open Sys2Proof

/-! ## Strands that can issue (R22) -/

/-- Whether the strand in a slot can issue: READY, or in a short stall whose condition is met; with budget; a subscriber's cluster is not
switching its clock; no request of it waits at the SFU (R25, R39, R42, R56, R273). -/
def canIssue (s : State) (c i : Nat) : Bool :=
  let t := s.slot c i
  (t.st == .ready || (t.st == .stalled && t.walk.isNone && waitOver s c t)) && (t.unb || t.budget != 0) &&
    !(t.sub && (s.cluster (clusterOf c)).lockSwitch.isSome) && !(s.cluster (clusterOf c)).sfuWait.any (fun r => r.task == t.task)

/-- The slot from which a core issues: the first in round-robin order that can, one that has yielded only where no other can (R22,
R523). -/
def issueSlot (s : State) (c : Nat) : Option Nat :=
  let k := s.core c
  let l := ((List.range 4).map (fun n => (k.rr + n) % 4)).filter (canIssue s c)
  match l.find? (fun i => !k.yielded.any (fun p => p.1 == i)) with
  | some i => some i
  | none => l.head?

/-! ## Events inside the module -/

/-- A step that may come next. -/
inductive Choice where
  | issue (c i : Nat)
  | event (i : Instr) (x : Subject)
  deriving DecidableEq, Repr

/-- An event of something. -/
def ev (i : Instr) (a : Nat) (b : Nat := 0) (c : Nat := 0) : Choice := .event i { a := a, b := b, c := c }

/-- Choices that are offered under a condition. -/
def offer (p : Bool) (l : List Choice) : List Choice := if p then l else []

/-- Events of the strand slots that meet a condition. -/
def slotDue (s : State) (i : Instr) (p : Strand → Bool) : List Choice :=
  s.cores.flatMap (fun c => ((List.range 4).filter (fun n => p (c.2.slot n))).map (fun n => ev i c.1 n))

/-- Operations that the clock, or a slot come free, has made due: a RED that waited for a slot is applied or refused, a pop leaves its
stage (R184, R198). -/
def opDue (s : State) (o : Op) : List Choice :=
  match o.kind with
  | .red i64 _ =>
    offer (redRefused s o) [ev .redSlotTimeout o.id] ++
    (match homePiece s o.id 0 (fun _ => true) with
     | some (_, p) => offer (o.phase == 2 && !redWaited s o && !redFull s o p i64) [ev .redApply o.id 0]
     | none => [])
  | .qpop .. => offer ((stageOf s o.id).isSome && windowOver s o) [ev .gloverWindowExpiry o.id]
  | _ => []

/-- What has waited 1 ms for a READY port (R303). -/
def linkDue (s : State) : List Choice :=
  ((s.net.filter (fun p => unlinked s p && waitedOut s (waitKey p.pid 0))).map (fun p => ev .routeWaitTimeout p.pid)) ++
  ((s.ops.filter (fun o => (unlinkedParts s o).any (fun n => waitedOut s (waitKey o.id n)))).map (fun o => ev .routeWaitTimeout o.id))

/-- What the clock has made due in the launch units and the ingest chains of the dies (R256, R323). -/
def dieDue (s : State) (p : Nat × Die) : List Choice :=
  ((p.2.launches.filter (fenceLate s)).map (fun l => ev .launchFenceTimeout l.id)) ++
  offer (p.2.ingest.any overworked) [ev .ingestTimeout p.1] ++
  offer (match p.2.ingest with | m :: _ => outputStalled s.devtime m | [] => false) [ev .ingestOutputStall p.1]

/-- What has become due, in the order in which it takes place: budgets that have run out, blocked allowances, the ends of run frames,
reservations that end, frames that start, untimed strands capped, governors' windows, channels that rise a level, waits that are over,
and SFU queues at the end of a cycle (R42, R184, R198, R256, R257, R260, R268, R270-R273, R303, R310, R323). It comes before anything
else, and no time passes with it. -/
def dueEvents (s : State) : List Choice :=
  slotDue s .budgetExpiry budgetDue ++ slotDue s .timedWaitLapse lapseDue ++ slotDue s .deadline (deadlineDue s.devtime) ++
  ((s.resvs.filter (endDue s)).map (fun r => ev .reservationEnd r.rid)) ++
  ((s.resvs.filter (fun r => runDue s r || refillDue s r)).map (fun r => ev .runFrameStart r.rid)) ++
  ((s.cores.filter (fun p => capFrameDue s p.2)).map (fun p => ev .untimedCapExpiry p.1)) ++
  ((s.clusters.filter (fun p => sampleDue s.devtime p.2)).map (fun p => ev .governorSample p.1)) ++
  s.cores.flatMap (fun p => ((List.range 64).filter (ageDue s p.1)).map (fun ch => ev .ageingStep p.1 ch)) ++
  s.ops.flatMap (opDue s) ++ linkDue s ++ s.dies.flatMap (dieDue s) ++
  ((s.clusters.filter (fun p => sfuDue p.2)).map (fun p => ev .sfuAccept p.1))

/-- Events of a strand slot. -/
def slotEvents (s : State) (c i : Nat) : List Choice :=
  let t := s.slot c i
  if t.st = .free then []
  else
    offer t.walk.isSome [ev .translationWalk c i] ++
    offer (t.st == .saving) [ev .taskSave c i] ++
    offer (t.st == .trapping) [ev .trapReport c i] ++
    offer (t.st == .blocked) (offer (waitOver s c t) [ev .wakeUp c i] ++
      (match t.wait with
       | .idle _ _ => [ev .idleTimeLimit c i]
       | .stream q _ => [ev .streamEnginePop c i q, ev .streamPopRetry c i q]
       | _ => []))

/-- What a core's selection starts next, by the message that it chooses (R36). -/
def selectEvents (s : State) (c : Nat) : List Choice :=
  match choose s c with
  | none => []
  | some (_, _, m) => [ev (if m.mig.isSome then .migrationArrival else if m.image.isSome then .taskResume else .taskStart) c]

/-- Events of a core. -/
def coreEvents (s : State) (p : Nat × Core) : List Choice :=
  let c := p.1
  let k := p.2
  offer (!k.rx.isEmpty) (selectEvents s c ++ offer (arrivalVictim s c).isSome [ev .preemptionByArrival c]) ++
  (List.range 4).flatMap (slotEvents s c) ++
  ((List.range k.fwd.length).map (fun n => ev .forwardingEntryExpiry c n)) ++
  ((k.bankq.filter (fun b => !b.2.isEmpty)).map (fun b => ev .scratchpadBankAccess c b.1)) ++
  (k.rings.flatMap (fun r => [ev .rowQueueTimer c r.1, ev .announcement c r.1]))

/-- The causes that a peer may refuse an operation with (R158): POISON but to a store, which never takes it (R480), and REMOTE where it
lacks an update function (R500). -/
def peerCodes (o : Op) : List Nat :=
  [0x07, 0x08, 0x1C] ++ (match o.kind with | .store => [] | .ufn _ _ _ => [0x09, 0x18] | _ => [0x09])

/-- Events of a piece of an operation at its home bank. -/
def homeEvents (o : Op) (i : Nat) : List Choice :=
  match o.kind with
  | .load .. | .loadVec .. | .gather .. | .pref _ => [ev .leaseGrant o.id i]
  | .store => [ev .storeApply o.id i]
  | .amo .. | .cas .. => [ev .atomicApply o.id i]
  | .ufn .. => [ev .ufnApply o.id i]
  | .red .. => [ev .redApply o.id i]
  | _ => []

/-- Events of an operation's pieces: at their home banks, on arrival at a scratchpad bank, and on coming back to the own device over the
link (R136, R140). -/
def pieceEvents (s : State) (o : Op) : List Choice :=
  (o.pieces.zipIdx).flatMap (fun (p, i) =>
    if p.done then []
    else if isHbm p.key then homeEvents o i
    else if isScratch p.key then offer (!p.queued) [ev .scratchpadBankAccess (keyCore p.key) (spBank (keyOff p.key)) o.id]
    else offer (isSelfPeer s p.key) [ev .linkPacketArrival o.id i])

/-- Events of an operation by its kind. -/
def kindEvents (s : State) (o : Op) : List Choice :=
  match o.kind with
  | .waitc .. => [ev .monitorRegistration o.id, ev .waitcRetry o.id]
  | .qinit .. => [ev .queueHomeQinit o.id]
  | .qpush .. => ev .queueHomePush o.id :: s.clusters.flatMap (fun g => g.2.glover.map (fun w => ev .gloverMatch o.id w))
  | .qpop .. => offer (o.phase == 0 || o.phase == 5) [ev .queueHomePop o.id] ++
      offer (o.phase == 3) [ev .qpopWRetry o.id]
  | .qsteal .. => [ev .queueHomeSteal o.id]
  | .qavail => [ev .queueHomeAvail o.id]
  | .permit .. => [ev .queueHomePermit o.id]
  | .pret .. => [ev .queueHomePret o.id]
  | .copy => [ev .copyDone o.id, ev .copyStreamDelivery o.id]
  | .copym => [ev .mcastSerialise o.id, ev .copyDone o.id]
  | .join | .leave | .gsize => [ev .groupRootUpdate o.id]
  | .mcast .. => ev .mcastSerialise o.id :: o.todo.map (fun c => ev .mcastMemberApply o.id c)
  | .handler .. => [ev .handlerTableEntryWrite o.id]
  | .tlbinv .. => o.todo.map (fun h => ev .translationInvalidation o.id h)
  | .subscribe _ => [ev .subscriptionRegistration o.id]
  | .flush => [ev .loadReply o.id, ev .hostReadTimeout o.id, ev .hostReadTimeout o.id 1]
  | _ => []

/-- Events of an operation: at its target, its reply or acknowledgement, and what a peer, the fabric or the host may do with it. -/
def opEvents (s : State) (o : Op) : List Choice :=
  pieceEvents s o ++ kindEvents s o ++
    offer (replyReady s o && reachable s o) [ev .loadReply o.id] ++ offer (ackReady s o && reachable s o) [ev .storeAck o.id] ++
    offer (o.pieces.any (fun p => !p.done && isPeer p.key)) ((peerCodes o).map (fun n => ev .deferredFaultArrival o.id n)) ++
    offer (o.pieces.any (fun p => !p.done && isHost p.key) && !writes o.kind) [ev .hostReadTimeout o.id, ev .hostReadTimeout o.id 1]

/-- Events of a packet. -/
def packetEvents (p : Packet) : List Choice :=
  match p.body with
  | .message .. | .migration .. => [ev .messageArrival p.pid]
  | .put .. => [ev .mailboxPut p.pid]
  | .rowRead .. => [ev .expsendRowRead p.pid]
  | .row .. => [ev .resultCombine p.pid, ev .rowArrival p.pid]
  | .peer .. => [ev .linkPacketArrival p.pid]

/-- Events of a cluster. -/
def clusterEvents (p : Nat × Cluster) : List Choice :=
  let g := p.1
  let k := p.2
  offer (!k.sfuq.isEmpty) [ev .sfuResult g] ++
  k.tileq.flatMap (fun e => [ev .tileOpComplete g e.n, ev .fullerOpComplete g e.n]) ++
  offer (!k.reloads.isEmpty) [ev .mapReload g] ++ offer (!k.credits.isEmpty) [ev .barrierCredit g] ++
  offer k.change.isSome [ev .regulatorSettled g] ++ offer k.lockSwitch.isSome [ev .frequencyLockSwitch g]

/-- Events of a die: bring-up, whose checks may pass or fail, its launch unit and its ingest chain. -/
def dieEvents (s : State) (d : Nat) : List Choice :=
  let k := s.die d
  offer (!k.lost || k.wasReset) (
    offer (k.boot == 1) [ev .firmwareStage d 1, ev .firmwareStage d 0] ++ offer (k.boot == 2) [ev .memoryStage d 15, ev .memoryStage d 0] ++
    offer (k.boot == 3) [ev .meshStage d 1, ev .meshStage d 0] ++ offer (k.boot == 4 && s.modReady) [ev .linksStage d] ++
    offer (k.boot == 5 && k.lost) [ev .dieReadmission d]) ++
  k.launches.flatMap (fun l => [ev .dimensionRecordRead l.id, ev .launchFenceMet l.id]) ++
  offer (!k.launches.isEmpty) [ev .launchTaskPost d] ++
  offer (!k.ingest.isEmpty) [ev .ingestInflate d, ev .ingestTranscode d, ev .ingestTokenise d, ev .ingestRowPush d,
    ev .ingestPermitRetry d]

/-- Events of an instruction channel's ports. -/
def chanEvents (p : Nat × IChan) : List Choice :=
  p.2.ports.flatMap (fun q =>
    offer (!q.flight.isEmpty || p.2.st == .ending) [ev .streamInstructionArrival p.1 q.core q.slot] ++
    offer (decide (q.reported < q.issued)) [ev .issueCountReport p.1 q.core q.slot])

/-- Events of a port of the link. -/
def portEvents (p : Nat × Port) : List Choice :=
  offer (portState p.2 == 1) [ev .portDetectTimeout p.1] ++ offer (decide (8 ≤ p.2.resends)) [ev .portRetrain p.1]

/-- Every event inside the module that is offered. -/
def events (s : State) : List Choice :=
  s.cores.flatMap (coreEvents s) ++ s.clusters.flatMap clusterEvents ++ (List.range 4).flatMap (dieEvents s) ++
  s.ops.flatMap (opEvents s) ++ s.net.flatMap packetEvents ++ s.chans.flatMap chanEvents ++ s.ports.flatMap portEvents ++
  ((s.leases.filter (fun p => decide (p.2 ≤ s.devtime))).map (fun p => ev .leaseEnd p.1)) ++
  s.fills.map (fun x => ev .hbmLineFill x.1) ++
  ((List.range s.permRecs.length).filter (fun n =>
    ((s.permRecs[n]?).bind (·.expiry)).any (fun e => decide (e ≤ s.devtime)))).map (fun n => ev .permitExpiry n) ++
  s.timedJobs.flatMap (fun j => [ev .tailorAdmission j.id, ev .tailorCancel j.id])

/-- Every strand that can issue. -/
def issues (s : State) : List Choice := s.cores.filterMap (fun p => (issueSlot s p.1).map (fun i => .issue p.1 i))

/-- The step taken where nothing is due: a free choice among what is offered (log 3). -/
def pick (s : State) : Option Choice :=
  match issues s ++ events s with
  | [] => none
  | [c] => some c
  | l => l[Config.freeChoice s.tick % l.length]?

/-! ## Inputs from outside -/

/-- Whether an event comes from outside the module: the host, the links, sensors, errors. -/
def isInput (i : Instr) : Bool :=
  match i with
  | .contextCreate | .contextDestroy | .correctableError | .uncorrectableError | .dieLoss | .linkPacketArrival | .flitCrcFailure
  | .widthMarker | .portRetrain | .portPartnerSeen | .laneTraining | .speedSettle | .widthSettle | .attestation | .moduleReset | .firmwareStage
  | .memoryStage | .meshStage | .thermalTrip | .thermalRecovery | .thermalShutdown | .hostPostedMessage | .hostLaunch
  | .hostPostedWrite | .modctlReady | .diereset | .reportDoorbell | .portstatDisable | .hostRegisterWrite => true
  | _ => false

/-- The input that is due, and the module without it. -/
def dueInput (s : State) : Option (Instr × Subject × State) :=
  match s.agenda with
  | (0, i, x) :: t => some (i, x, { s with agenda := t })
  | _ => none

/-! ## How time passes -/

/-- Core cycles taken from a strand's budget (R42). -/
def Strand.spend (t : Strand) (cyc : Nat) : Strand := if t.unb then t else { t with budget := BitVec.ofNat 32 (t.budget.toNat - cyc) }

/-- Core cycles taken from a strand's budget (R42); a STARTING strand READY once its cycles are over (Table 2.1); nanoseconds added to a
timed strand's blocked time (R271). -/
def passSlot (ns cyc : Nat) (t : Strand) : Strand :=
  match t.st with
  | .starting => { t.spend cyc with startLeft := t.startLeft - cyc, st := if t.startLeft ≤ cyc then .ready else .starting }
  | .ready | .stalled => t.spend cyc
  | .blocked => (match t.timing with | some x => { t with timing := some { x with used := x.used + ns } } | none => t)
  | _ => t

/-- The time for which the runnable channels of a core have been runnable (R257). -/
def passAges (s : State) (ns c : Nat) (k : Core) : AMap (Nat × Nat) :=
  if k.rx.isEmpty then k.ages
  else (List.range 64).foldl (fun a ch => if ages s c ch then (let (n, t) := mapGet (0, 0) a ch; mapSet a ch (n, t + ns)) else a) k.ages

/-- Whether a slot lets its core's clock stop: FREE or in IDLE (R405). -/
def slotIdle (t : Strand) : Bool := t.st == .free || (t.st == .blocked && (match t.wait with | .idle _ _ => true | _ => false))

/-- Strand cycles of a core in a state. -/
def strandCycles (k : Core) (st : SlotState) (cyc : Nat) : Nat := (k.slots.toList.filter (fun t => t.st == st)).length * cyc

/-- The READY cycle in which the strand of this step issued its instruction. -/
def issuedCycle (s : State) (c cyc : Nat) : Nat :=
  if (s.last = .completed ∨ s.last = .branched) ∧ s.cur.1 = c ∧ s.me.st = .ready then Nat.min 1 cyc else 0

/-- Whether a strand of a core is held by a full SFU queue (R273). -/
def sfuHolds (s : State) (c : Nat) : Bool :=
  let q := s.cluster (clusterOf c)
  decide (32 ≤ q.sfuq.length) && q.sfuWait.any (fun r => r.core == c)

/-- The cycle counts of a core (Table 13.7). -/
def countCycles (s : State) (c cyc : Nat) : State :=
  let k := s.core c
  if k.pmsel.toList.all (· == 0) then s
  else
    let s := if k.slots.toList.all slotIdle then s else perf s c 0x01 cyc
    let s := perf s c 0x03 (strandCycles k .ready cyc - issuedCycle s c cyc)
    let s := perf (perf s c 0x04 (strandCycles k .stalled cyc)) c 0x05 (strandCycles k .blocked cyc)
    if sfuHolds s c then perf s c 0x10 cyc else s

/-- The cycles that the governor of a core's cluster counts (R310). -/
def countGovernor (s : State) (c cyc : Nat) : State :=
  let stalled := strandCycles (s.core c) .stalled cyc
  if (s.core c).slots.toList.any (fun t => t.st == .ready || t.st == .stalled) then
    s.onCluster (clusterOf c) (fun q => { q with
      stalls := q.stalls + stalled, busy := q.busy + (strandCycles (s.core c) .ready cyc + stalled) })
  else s

/-- The passing of some nanoseconds and core cycles, with the model's own counters: what finds no READY port is noted first. -/
def pass (s : State) (ns cyc : Nat) : State :=
  let s := noteWaits s
  let s : State := { s with
    cores := s.cores.map (fun p => (p.1, { p.2 with slots := p.2.slots.map (passSlot ns cyc), ages := passAges s ns p.1 p.2 }))
    devtime := s.devtime + ns
    tick := s.tick + 1
    elects := s.elects.filter (fun e => (s.chan e.chan).st != .free)
    agenda := match s.agenda with | (n, x) :: t => (n - 1, x) :: t | [] => [] }
  let s := (s.cores.map (·.1)).foldl (fun s c => countGovernor (countCycles s c cyc) c cyc) s
  let s : State := { s with clusters := s.clusters.map (fun p => (p.1, { p.2 with sfuBusy := p.2.sfuBusy && decide (cyc = 0) })) }
  ((s.dies.filter (fun p => !p.2.ingest.isEmpty)).map (·.1)).foldl (fun s d => ingestWork s ns d) s

/-- No time passes. -/
def still (s : State) : State := pass s 0 0

/-- Time passes by a free amount, not beyond the next boundary of 10 us (log 2). -/
def passTime (s : State) : State := pass s (Nat.min (Config.freeNs s.tick) (10000 - s.devtime % 10000)) (Config.freeCycles s.tick)

end Sys2Proof.Machine
end

