-- ==== Sys2Proof/Machine/Address.lean ====
section
/-!
DEFINITION. Address arithmetic, the index and extension registers (major 0x06 and EXT), and FMT read and written by name:
R350, R351, R390, R399, R421, R446, R451, R473, R474.
-/

namespace Sys2Proof.Machine

open Sys2Proof

/-- LEA: plain arithmetic, the offset shifted (R421). -/
def execLea (d a b : BitVec 5) (x y : Bool) (sh : BitVec 2) (s : State) : Host.Outcome State Fault Refusal :=
  finish 4 (guard [rdS s.me a y, rdS s.me b false, wrS s.me d x]
    (fun s => .ok (s.onMe (fun t => t.ws d x (t.rs a y + (t.rs b false <<< sh.toNat))))) s)

/-- A pointer moved by an offset with its tag kept (R350). -/
def addPtr (p v : Word) : Word := ptrAdd p (bits v 59 0)

/-- ADDP (R350). -/
def execAddp (d a b : BitVec 5) (x y : Bool) (s : State) : Host.Outcome State Fault Refusal :=
  finish 4 (guard [rdS s.me a y, rdS s.me b false, wrS s.me d x]
    (fun s => .ok (s.onMe (fun t => t.ws d x (addPtr (t.rs a y) (t.rs b false))))) s)

/-- PMAKE: the space tag set (R446). -/
def execPmake (d a : BitVec 5) (tag : BitVec 4) (x y : Bool) (s : State) : Host.Outcome State Fault Refusal :=
  finish 4 (guard [rdS s.me a y, wrS s.me d x]
    (fun s => .ok (s.onMe (fun t => t.ws d x (word (tag.toNat * 2 ^ 60 + bits (t.rs a y) 59 0))))) s)

/-- PTAG: the space tag read (R451). -/
def execPtag (d a : BitVec 5) (x y : Bool) (s : State) : Host.Outcome State Fault Refusal :=
  finish 4 (guard [rdS s.me a y, wrS s.me d x]
    (fun s => .ok (s.onMe (fun t => t.ws d x (word (tagOf (t.rs a y)))))) s)

/-- SETXI (R474). -/
def execSetxi (a : BitVec 5) (y : Bool) (s : State) : Host.Outcome State Fault Refusal :=
  finish 4 (guard [rdS s.me a y] (fun s => .ok (s.onMe (fun t => { t with xi := (t.rs a y).setWidth 16 }))) s)

/-- ADDXI (R351). -/
def execAddxi (i : BitVec 10) (s : State) : Host.Outcome State Fault Refusal :=
  finish 4 (.ok (s.onMe (fun t => { t with xi := t.xi + BitVec.ofInt 16 i.toInt })))

/-- An extension register written; a subscriber's e0-e3 take the values that the publisher's EXT produced (R58, R390). -/
def writeExt (n : BitVec 2) (v : BitVec 32) (s : State) : Res :=
  match s.carried with
  | some p => .ok (s.onMe (fun t => { t with ereg := p.ereg, fmt := carryFmt p.fmt t.fmt }))
  | none => .ok (s.onMe (fun t => { t with ereg := t.ereg.setIfInBounds n.toNat v }))

/-- EXT: the immediate zero-extended (R89, R390). -/
def execExt (n : BitVec 2) (i : BitVec 26) (s : State) : Host.Outcome State Fault Refusal :=
  finish 4 (writeExt n (i.setWidth 32) s)

/-- EXT.hi: bits [31:26] set, the others kept (R89, R390). -/
def execExtHi (n : BitVec 2) (i : BitVec 6) (s : State) : Host.Outcome State Fault Refusal :=
  finish 4 (writeExt n (BitVec.ofNat 32 (i.toNat * 2 ^ 26 + (s.me.e n.toNat).toNat % 2 ^ 26)) s)

/-- SETFMT: ILLOP for NXA or NXB of 3; in a subscriber the control fields are carried and the sticky flags are its own
(R473). -/
def execSetfmt (a : BitVec 5) (y : Bool) (s : State) : Host.Outcome State Fault Refusal :=
  finish 4 (guard [rdS s.me a y] (fun s =>
    match s.carried with
    | some p => .ok (s.onMe (fun t => { t with fmt := carryFmt p.fmt (setFmt (t.rs a y)), ereg := p.ereg }))
    | none =>
      if fmtBad (s.me.rs a y) then .trap s .illop 0 (instrWord (.setfmt a y))
      else .ok (s.onMe (fun t => { t with fmt := setFmt (t.rs a y) }))) s)

/-- GETFMT (R399). -/
def execGetfmt (d : BitVec 5) (x : Bool) (s : State) : Host.Outcome State Fault Refusal :=
  finish 4 (guard [wrS s.me d x] (fun s => .ok (s.onMe (fun t => t.ws d x (t.fmt.setWidth 64)))) s)

/-- MSGID (R438). -/
def execMsgid (d : BitVec 5) (x : Bool) (s : State) : Host.Outcome State Fault Refusal :=
  finish 4 (guard [wrS s.me d x] (fun s => .ok (s.onMe (fun t => t.ws d x t.msgid))) s)

end Sys2Proof.Machine
end

