-- ==== Sys2Proof/Machine/Int.lean ====
section
/-!
DEFINITION. The integer register and immediate forms, MOV, SEL and LI, and their compact equivalents (majors 0x01, 0x02, 0x03
and 0x05; R91, R348-R349, R354-R355, R365, R370, R387, R422, R426, R437, R439, R441-R442, R447, R464, R470, R475-R478, R483,
R521-R522, R524).
-/

namespace Sys2Proof.Machine

open Sys2Proof

/-! ## What the forms compute -/

/-- The high half of the signed product (R439). -/
def mulHigh (a b : Word) : Word := wordZ (a.toInt * b.toInt / 2 ^ 64)

/-- The high half of the unsigned product (R439). -/
def mulHighN (a b : Word) : Word := word (a.toNat * b.toNat / 2 ^ 64)

/-- Signed division, truncated; a zero divisor gives all ones (R387). -/
def divS (a b : Word) : Word := if b = 0 then BitVec.allOnes 64 else wordZ (a.toInt.tdiv b.toInt)

/-- Unsigned division; a zero divisor gives all ones (R387). -/
def divN (a b : Word) : Word := if b = 0 then BitVec.allOnes 64 else word (a.toNat / b.toNat)

/-- The remainder of signed division; a zero divisor gives the dividend (R464). -/
def remS (a b : Word) : Word := if b = 0 then a else wordZ (a.toInt.tmod b.toInt)

/-- The remainder of unsigned division (R464). -/
def remN (a b : Word) : Word := if b = 0 then a else word (a.toNat % b.toNat)

/-- A shift left by the low six bits of the amount (R476). -/
def shiftL (a b : Word) : Word := a <<< (b.toNat % 64)

/-- A logical shift right (R476). -/
def shiftR (a b : Word) : Word := a >>> (b.toNat % 64)

/-- An arithmetic shift right (R476). -/
def shiftA (a b : Word) : Word := a.sshiftRight (b.toNat % 64)

/-- 1 when the first is less as a signed number (R478). -/
def lessS (a b : Word) : Word := if a.toInt < b.toInt then 1 else 0

/-- 1 when the first is less as an unsigned number (R478). -/
def lessN (a b : Word) : Word := if a.toNat < b.toNat then 1 else 0

/-- The lesser as signed numbers (R426). -/
def minS (a b : Word) : Word := if b.toInt < a.toInt then b else a

/-- The lesser as unsigned numbers (R426). -/
def minN (a b : Word) : Word := if b.toNat < a.toNat then b else a

/-- The greater as signed numbers (R426). -/
def maxS (a b : Word) : Word := if a.toInt < b.toInt then b else a

/-- The greater as unsigned numbers (R426). -/
def maxN (a b : Word) : Word := if a.toNat < b.toNat then b else a

/-- The zero bits above the highest set bit; 64 for zero (R370). -/
def leadZeros (a : Word) : Word := if a = 0 then 64 else word (63 - Nat.log2 a.toNat)

/-- The set bits of a number, from the lowest of `n` bits. -/
def countBits (a : Nat) : Nat → Nat
  | 0 => 0
  | n + 1 => a % 2 + countBits (a / 2) n

/-- The number of set bits (R447). -/
def popCount (a : Word) : Word := word (countBits a.toNat 64)

/-- The bits in reverse order (R365). -/
def bitReverse (a : Word) : Word := a.reverse

/-- The low 8, 16 or 32 bits sign-extended (R475). -/
def sextTo (z : BitVec 2) (a : Word) : Word := wordZ (signExt a.toNat (8 * 2 ^ z.toNat))

/-- The low 8, 16 or 32 bits zero-extended (R524). -/
def zextTo (z : BitVec 2) (a : Word) : Word := word (a.toNat % 2 ^ (8 * 2 ^ z.toNat))

/-! ## The shapes of the forms -/

/-- A form of two source registers and a result, of `len` bytes (R75, R76). -/
def int3 (len : Nat) (f : Word → Word → Word) (d a b : BitVec 5) (x y : Bool) (s : State) :
    Host.Outcome State Fault Refusal :=
  finish len (guard [rdS s.me a y, rdS s.me b false, wrS s.me d x]
    (fun s => .ok (s.onMe (fun t => t.ws d x (f (t.rs a y) (t.rs b false))))) s)

/-- A form of one source register and a result. -/
def int2 (len : Nat) (f : Word → Word) (d a : BitVec 5) (x y : Bool) (s : State) : Host.Outcome State Fault Refusal :=
  finish len (guard [rdS s.me a y, wrS s.me d x] (fun s => .ok (s.onMe (fun t => t.ws d x (f (t.rs a y))))) s)

/-- A form that writes a value that depends on no register. -/
def int1 (len : Nat) (f : Strand → Word) (d : BitVec 5) (x : Bool) (s : State) : Host.Outcome State Fault Refusal :=
  finish len (guard [wrS s.me d x] (fun s => .ok (s.onMe (fun t => t.ws d x (f t)))) s)

/-! ## Stream reads (R149) -/

/-- The next bytes of a stream register consumed by the running strand: RPTR advances, and the messages whose last byte is
consumed leave the receive store. -/
def consume (s : State) (n : Nat) (q : Stream) (need : Nat) : State :=
  let rest := q.stage.drop need
  let left := q.msgs.drop (q.msgs.length - (rest.length + 63) / 64)
  let gone := q.msgs.take (q.msgs.length - (rest.length + 63) / 64)
  let s := s.onMe (fun t => t.setQ n { q with stage := rest, rptr := q.rptr + need, msgs := left })
  if q.kind = 3 then
    s.onCore s.cur.1 (fun k => { k with rx := k.rx.filter (fun m => !(m.chan == q.source.toNat && gone.contains m.seq)) })
  else s

/-- A read of `need` bytes of stream register `n`: BOUND when it is unbound or the read would pass LIMIT; the refusal of its
pop; blocked while the bytes are missing, with nothing consumed (R149, R364). -/
def streamRead (n need : Nat) (k : State → List Byte → State) (s : State) : Res :=
  let q := s.me.q n
  if q.kind = 0 then .trap s .bound 0 0
  else if q.kind = 2 ∧ q.limit < q.rptr + need then .trap s .bound 0 (word q.rptr)
  else
    match s.me.faults.find? (fun d => some d.op == q.pop) with
    | some d => .trap s d.cause d.sub d.tval
    | none =>
      if q.stage.length < need then .block s (.stream n need)
      else .ok (k (consume s n q need) (q.stage.take need))

/-! ## The instructions -/

/-- ADD (R348). -/
def execAdd (d a b : BitVec 5) (x y : Bool) (s : State) : Host.Outcome State Fault Refusal := int3 4 (· + ·) d a b x y s

/-- SUB (R483). -/
def execSub (d a b : BitVec 5) (x y : Bool) (s : State) : Host.Outcome State Fault Refusal := int3 4 (· - ·) d a b x y s

/-- MUL (R439). -/
def execMul (d a b : BitVec 5) (x y : Bool) (s : State) : Host.Outcome State Fault Refusal := int3 4 (· * ·) d a b x y s

/-- MULH (R439). -/
def execMulh (d a b : BitVec 5) (x y : Bool) (s : State) : Host.Outcome State Fault Refusal := int3 4 mulHigh d a b x y s

/-- MULHN (R439). -/
def execMulhn (d a b : BitVec 5) (x y : Bool) (s : State) : Host.Outcome State Fault Refusal := int3 4 mulHighN d a b x y s

/-- DIV (R387). -/
def execDiv (d a b : BitVec 5) (x y : Bool) (s : State) : Host.Outcome State Fault Refusal := int3 4 divS d a b x y s

/-- DIVN (R387). -/
def execDivn (d a b : BitVec 5) (x y : Bool) (s : State) : Host.Outcome State Fault Refusal := int3 4 divN d a b x y s

/-- REM (R464). -/
def execRem (d a b : BitVec 5) (x y : Bool) (s : State) : Host.Outcome State Fault Refusal := int3 4 remS d a b x y s

/-- REMN (R464). -/
def execRemn (d a b : BitVec 5) (x y : Bool) (s : State) : Host.Outcome State Fault Refusal := int3 4 remN d a b x y s

/-- AND (R354). -/
def execAnd (d a b : BitVec 5) (x y : Bool) (s : State) : Host.Outcome State Fault Refusal := int3 4 (· &&& ·) d a b x y s

/-- OR (R441). -/
def execOr (d a b : BitVec 5) (x y : Bool) (s : State) : Host.Outcome State Fault Refusal := int3 4 (· ||| ·) d a b x y s

/-- XOR (R521). -/
def execXor (d a b : BitVec 5) (x y : Bool) (s : State) : Host.Outcome State Fault Refusal := int3 4 (· ^^^ ·) d a b x y s

/-- SHL (R476). -/
def execShl (d a b : BitVec 5) (x y : Bool) (s : State) : Host.Outcome State Fault Refusal := int3 4 shiftL d a b x y s

/-- SHR (R476). -/
def execShr (d a b : BitVec 5) (x y : Bool) (s : State) : Host.Outcome State Fault Refusal := int3 4 shiftR d a b x y s

/-- SRA (R476). -/
def execSra (d a b : BitVec 5) (x y : Bool) (s : State) : Host.Outcome State Fault Refusal := int3 4 shiftA d a b x y s

/-- SLT (R478). -/
def execSlt (d a b : BitVec 5) (x y : Bool) (s : State) : Host.Outcome State Fault Refusal := int3 4 lessS d a b x y s

/-- SLTN (R478). -/
def execSltn (d a b : BitVec 5) (x y : Bool) (s : State) : Host.Outcome State Fault Refusal := int3 4 lessN d a b x y s

/-- MIN (R426). -/
def execMin (d a b : BitVec 5) (x y : Bool) (s : State) : Host.Outcome State Fault Refusal := int3 4 minS d a b x y s

/-- MINN (R426). -/
def execMinn (d a b : BitVec 5) (x y : Bool) (s : State) : Host.Outcome State Fault Refusal := int3 4 minN d a b x y s

/-- MAX (R426). -/
def execMax (d a b : BitVec 5) (x y : Bool) (s : State) : Host.Outcome State Fault Refusal := int3 4 maxS d a b x y s

/-- MAXN (R426). -/
def execMaxn (d a b : BitVec 5) (x y : Bool) (s : State) : Host.Outcome State Fault Refusal := int3 4 maxN d a b x y s

/-- CLZ (R370). -/
def execClz (d a : BitVec 5) (x y : Bool) (s : State) : Host.Outcome State Fault Refusal := int2 4 leadZeros d a x y s

/-- POPC (R447). -/
def execPopc (d a : BitVec 5) (x y : Bool) (s : State) : Host.Outcome State Fault Refusal := int2 4 popCount d a x y s

/-- BREV (R365). -/
def execBrev (d a : BitVec 5) (x y : Bool) (s : State) : Host.Outcome State Fault Refusal := int2 4 bitReverse d a x y s

/-- SEXT (R475). -/
def execSext (d a : BitVec 5) (x y : Bool) (z : BitVec 2) (s : State) : Host.Outcome State Fault Refusal :=
  int2 4 (sextTo z) d a x y s

/-- ZEXT (R524). -/
def execZext (d a : BitVec 5) (x y : Bool) (z : BitVec 2) (s : State) : Host.Outcome State Fault Refusal :=
  int2 4 (zextTo z) d a x y s

/-- MOV of a register (R437). -/
def execMov (d a : BitVec 5) (x y : Bool) (s : State) : Host.Outcome State Fault Refusal := int2 4 id d a x y s

/-- MOV of the next 8 bytes of a stream register (R437, R149). -/
def execMovStream (d : BitVec 5) (n : BitVec 3) (x : Bool) (s : State) : Host.Outcome State Fault Refusal :=
  finish 4 (guard [wrS s.me d x]
    (streamRead n.toNat 8 (fun s l => s.onMe (fun t => t.ws d x (word (leNat l))))) s)

/-- MOV of a window register (R74, R437). -/
def execMovWindow (d : BitVec 5) (n : BitVec 3) (x : Bool) (s : State) : Host.Outcome State Fault Refusal :=
  int1 4 (fun t => (t.win[n.toNat]?).getD 0) d x s

/-- ADDI (R349). -/
def execAddi (d a : BitVec 5) (i : BitVec 12) (s : State) : Host.Outcome State Fault Refusal :=
  int2 4 (fun v => v + simmW i) d a false false s

/-- ANDI (R355). -/
def execAndi (d a : BitVec 5) (i : BitVec 12) (s : State) : Host.Outcome State Fault Refusal :=
  int2 4 (fun v => v &&& simmW i) d a false false s

/-- ORI (R442). -/
def execOri (d a : BitVec 5) (i : BitVec 12) (s : State) : Host.Outcome State Fault Refusal :=
  int2 4 (fun v => v ||| simmW i) d a false false s

/-- XORI (R522). -/
def execXori (d a : BitVec 5) (i : BitVec 12) (s : State) : Host.Outcome State Fault Refusal :=
  int2 4 (fun v => v ^^^ simmW i) d a false false s

/-- SHLI (R477). -/
def execShli (d a : BitVec 5) (i : BitVec 6) (s : State) : Host.Outcome State Fault Refusal :=
  int2 4 (fun v => shiftL v (i.setWidth 64)) d a false false s

/-- SHRI (R477). -/
def execShri (d a : BitVec 5) (i : BitVec 6) (s : State) : Host.Outcome State Fault Refusal :=
  int2 4 (fun v => shiftR v (i.setWidth 64)) d a false false s

/-- SRAI (R477). -/
def execSrai (d a : BitVec 5) (i : BitVec 6) (s : State) : Host.Outcome State Fault Refusal :=
  int2 4 (fun v => shiftA v (i.setWidth 64)) d a false false s

/-- SLTI (R478). -/
def execSlti (d a : BitVec 5) (i : BitVec 12) (s : State) : Host.Outcome State Fault Refusal :=
  int2 4 (fun v => lessS v (simmW i)) d a false false s

/-- SEL (R470): all three sources are read before sd is written. -/
def execSel (d a b : BitVec 5) (x y : Bool) (c : BitVec 5) (s : State) : Host.Outcome State Fault Refusal :=
  finish 4 (guard [rdS s.me a y, rdS s.me b false, rdS s.me c false, wrS s.me d x]
    (fun s => .ok (s.onMe (fun t => t.ws d x (if t.rs c false ≠ 0 then t.rs a y else t.rs b false)))) s)

/-- LI of an immediate (R422). -/
def execLi (d : BitVec 5) (i : BitVec 18) (s : State) : Host.Outcome State Fault Refusal := int1 4 (fun _ => simmW i) d false s

/-- LI.w: e0 sign-extended (R422). -/
def execLiW (d : BitVec 5) (s : State) : Host.Outcome State Fault Refusal :=
  int1 4 (fun t => BitVec.ofInt 64 (t.e 0).toInt) d false s

/-- LI.d: e1 and e0 (R422). -/
def execLiD (d : BitVec 5) (s : State) : Host.Outcome State Fault Refusal :=
  int1 4 (fun t => word ((t.e 1).toNat * 2 ^ 32 + (t.e 0).toNat)) d false s

/-! ## Compact equivalents (R91) -/

/-- Compact opcode 1: ADD (R91). -/
def execCompactAdd (d a b : BitVec 3) (s : State) : Host.Outcome State Fault Refusal :=
  int3 2 (· + ·) (wide d) (wide a) (wide b) false false s

/-- Compact opcode 2: SUB (R91). -/
def execCompactSub (d a b : BitVec 3) (s : State) : Host.Outcome State Fault Refusal :=
  int3 2 (· - ·) (wide d) (wide a) (wide b) false false s

/-- Compact opcode 3: AND (R91). -/
def execCompactAnd (d a b : BitVec 3) (s : State) : Host.Outcome State Fault Refusal :=
  int3 2 (· &&& ·) (wide d) (wide a) (wide b) false false s

/-- Compact opcode 4: OR (R91). -/
def execCompactOr (d a b : BitVec 3) (s : State) : Host.Outcome State Fault Refusal :=
  int3 2 (· ||| ·) (wide d) (wide a) (wide b) false false s

/-- Compact opcode 5: XOR (R91). -/
def execCompactXor (d a b : BitVec 3) (s : State) : Host.Outcome State Fault Refusal :=
  int3 2 (· ^^^ ·) (wide d) (wide a) (wide b) false false s

/-- Compact opcode 7: SHL (R91). -/
def execCompactShl (d a b : BitVec 3) (s : State) : Host.Outcome State Fault Refusal :=
  int3 2 shiftL (wide d) (wide a) (wide b) false false s

/-- Compact opcode 8: SHR (R91). -/
def execCompactShr (d a b : BitVec 3) (s : State) : Host.Outcome State Fault Refusal :=
  int3 2 shiftR (wide d) (wide a) (wide b) false false s

/-- Compact opcode 9: SRA (R91). -/
def execCompactSra (d a b : BitVec 3) (s : State) : Host.Outcome State Fault Refusal :=
  int3 2 shiftA (wide d) (wide a) (wide b) false false s

/-- Compact opcode 27: SLT (R91). -/
def execCompactSlt (d a b : BitVec 3) (s : State) : Host.Outcome State Fault Refusal :=
  int3 2 lessS (wide d) (wide a) (wide b) false false s

/-- Compact opcode 6: MOV (R91). -/
def execCompactMov (d a : BitVec 3) (s : State) : Host.Outcome State Fault Refusal := int2 2 id (wide d) (wide a) false false s

/-- Compact opcode 10: ADDI, the immediate signed (R91). -/
def execCompactAddi (d a : BitVec 3) (i : BitVec 4) (s : State) : Host.Outcome State Fault Refusal :=
  int2 2 (fun v => v + simmW i) (wide d) (wide a) false false s

/-- Compact opcode 11: SHLI (R91). -/
def execCompactShli (d a : BitVec 3) (i : BitVec 4) (s : State) : Host.Outcome State Fault Refusal :=
  int2 2 (fun v => shiftL v (i.setWidth 64)) (wide d) (wide a) false false s

/-- Compact opcode 12: SHRI (R91). -/
def execCompactShri (d a : BitVec 3) (i : BitVec 4) (s : State) : Host.Outcome State Fault Refusal :=
  int2 2 (fun v => shiftR v (i.setWidth 64)) (wide d) (wide a) false false s

/-- Compact opcode 28: LI, the immediate signed (R91). -/
def execCompactLi (d : BitVec 3) (i : BitVec 7) (s : State) : Host.Outcome State Fault Refusal :=
  int1 2 (fun _ => simmW i) (wide d) false s

end Sys2Proof.Machine
end

