-- ==== Sys2Proof/Machine/Control.lean ====
section
/-!
DEFINITION. Control transfers, NOP, YIELD, the traps that instructions raise, BRK and WAIT: R360-R361, R366, R388, R408-R409,
R423, R440, R492, R518, R523 and their compact equivalents (R91).
-/

namespace Sys2Proof.Machine

open Sys2Proof

/-! ## Branches and jumps -/

/-- A conditional branch of `len` bytes on two registers (R360). -/
def branch {n : Nat} (len : Nat) (f : Word → Word → Bool) (a b : BitVec 5) (off : BitVec n) (s : State) :
    Host.Outcome State Fault Refusal :=
  finish len (guard [rdS s.me a false, rdS s.me b false]
    (fun s => transfer (f (s.me.rs a false) (s.me.rs b false)) (relTarget s.me.pc off) s) s)

/-- BEQ (R360). -/
def execBeq (a b : BitVec 5) (o : BitVec 12) (s : State) : Host.Outcome State Fault Refusal := branch 4 (· == ·) a b o s

/-- BNE (R360). -/
def execBne (a b : BitVec 5) (o : BitVec 12) (s : State) : Host.Outcome State Fault Refusal := branch 4 (· != ·) a b o s

/-- BLT, signed (R360). -/
def execBlt (a b : BitVec 5) (o : BitVec 12) (s : State) : Host.Outcome State Fault Refusal :=
  branch 4 (fun v w => decide (v.toInt < w.toInt)) a b o s

/-- BGE, signed (R360). -/
def execBge (a b : BitVec 5) (o : BitVec 12) (s : State) : Host.Outcome State Fault Refusal :=
  branch 4 (fun v w => decide (w.toInt ≤ v.toInt)) a b o s

/-- BLTN, unsigned (R360). -/
def execBltn (a b : BitVec 5) (o : BitVec 12) (s : State) : Host.Outcome State Fault Refusal :=
  branch 4 (fun v w => decide (v.toNat < w.toNat)) a b o s

/-- BGEN, unsigned (R360). -/
def execBgen (a b : BitVec 5) (o : BitVec 12) (s : State) : Host.Outcome State Fault Refusal :=
  branch 4 (fun v w => decide (w.toNat ≤ v.toNat)) a b o s

/-- Compact opcode 17: BEQ with s0 (R361). -/
def execCompactBeq (a : BitVec 3) (o : BitVec 7) (s : State) : Host.Outcome State Fault Refusal :=
  branch 2 (· == ·) (wide a) 0 o s

/-- Compact opcode 18: BNE with s0 (R361). -/
def execCompactBne (a : BitVec 3) (o : BitVec 7) (s : State) : Host.Outcome State Fault Refusal :=
  branch 2 (· != ·) (wide a) 0 o s

/-- The strand of a result with a register also written. -/
def resMap (r : Res) (f : State → State) : Res :=
  match r with
  | .ok s => .ok (f s)
  | .jump s t => .jump (f s) t
  | r => r

/-- LOOP: the register is decremented and the branch taken while it is not zero; on s0 it writes nothing and never branches
(R423). A subscriber whose outcome differs from the stream's traps with nothing written (R59, R347). -/
def execLoop (a : BitVec 5) (o : BitVec 12) (s : State) : Host.Outcome State Fault Refusal :=
  finish 4 (guard [rwS s.me a false] (fun s =>
    let v := s.me.rs a false - 1
    resMap (transfer (a.toNat ≠ 0 && v != 0) (relTarget s.me.pc o) s) (fun s => s.onMe (fun t => t.ws a false v))) s)

/-- JMP (R408). -/
def execJmp (o : BitVec 24) (s : State) : Host.Outcome State Fault Refusal :=
  finish 4 (transfer true (relTarget s.me.pc o) s)

/-- The return address of a jump of 4 bytes (R408). -/
def linkOf (t : Strand) : Word := (t.pc + 4).setWidth 64

/-- JAL (R408). -/
def execJal (d : BitVec 5) (o : BitVec 19) (s : State) : Host.Outcome State Fault Refusal :=
  finish 4 (guard [wrS s.me d false] (fun s =>
    let l := linkOf s.me
    resMap (transfer true (relTarget s.me.pc o) s) (fun s => s.onMe (fun t => t.ws d false l))) s)

/-- A register jump: BOUND for a tag other than 0x0 and 0x4 or a bit of [59:48] set, then ALIGN for an odd target (R409). -/
def jumpTo (p : Word) (s : State) : Res :=
  if (tagOf p ≠ 0 ∧ tagOf p ≠ 4) ∨ bits p 59 48 ≠ 0 then .trap s .bound 0 p
  else if p.toNat % 2 = 1 then .trap s .align 0 p
  else transfer true (bits p 47 0) s

/-- JR (R408, R409). -/
def execJr (a : BitVec 5) (y : Bool) (s : State) : Host.Outcome State Fault Refusal :=
  finish 4 (guard [rdS s.me a y] (fun s => jumpTo (s.me.rs a y) s) s)

/-- JALR: the target is read before the link is written (R408). -/
def execJalr (d a : BitVec 5) (x y : Bool) (s : State) : Host.Outcome State Fault Refusal :=
  finish 4 (guard [rdS s.me a y, wrS s.me d x] (fun s =>
    let l := linkOf s.me
    resMap (jumpTo (s.me.rs a y) s) (fun s => s.onMe (fun t => t.ws d x l))) s)

/-- Compact opcode 23: JR of register `a` (R91). -/
def compactJr (a : BitVec 3) (s : State) : Host.Outcome State Fault Refusal :=
  finish 2 (guard [rdS s.me (wide a) false] (fun s => jumpTo (s.me.rs (wide a) false) s) s)

/-- Compact JR s0 (R91). -/
def execCompactJrS0 (s : State) : Host.Outcome State Fault Refusal := compactJr 0 s
/-- Compact JR s1 (R91). -/
def execCompactJrS1 (s : State) : Host.Outcome State Fault Refusal := compactJr 1 s
/-- Compact JR s2 (R91). -/
def execCompactJrS2 (s : State) : Host.Outcome State Fault Refusal := compactJr 2 s
/-- Compact JR s3 (R91). -/
def execCompactJrS3 (s : State) : Host.Outcome State Fault Refusal := compactJr 3 s
/-- Compact JR s4 (R91). -/
def execCompactJrS4 (s : State) : Host.Outcome State Fault Refusal := compactJr 4 s
/-- Compact JR s5 (R91). -/
def execCompactJrS5 (s : State) : Host.Outcome State Fault Refusal := compactJr 5 s
/-- Compact JR s6 (R91). -/
def execCompactJrS6 (s : State) : Host.Outcome State Fault Refusal := compactJr 6 s
/-- Compact JR s7 (R91). -/
def execCompactJrS7 (s : State) : Host.Outcome State Fault Refusal := compactJr 7 s

/-! ## NOP and YIELD -/

/-- NOP (R440). -/
def execNop (s : State) : Host.Outcome State Fault Refusal := finish 4 (.ok s)

/-- Compact opcode 25: NOP (R91). -/
def execCompactNop (s : State) : Host.Outcome State Fault Refusal := finish 2 (.ok s)

/-- The running strand is passed over until every other READY strand of its core has issued once (R523); in a subscriber a no
operation (Table 3.5). -/
def passOver (s : State) : State :=
  if s.me.sub then s
  else
    s.onCore s.cur.1 (fun k => { k with
      yielded := k.yielded.filter (fun p => p.1 != s.cur.2) ++
        [(s.cur.2, (List.range 4).filter (fun i => i != s.cur.2 && (k.slot i).st == .ready))] })

/-- YIELD (R523). -/
def execYield (s : State) : Host.Outcome State Fault Refusal := finish 4 (.ok (passOver s))

/-- Compact opcode 26: YIELD (R91). -/
def execCompactYield (s : State) : Host.Outcome State Fault Refusal := finish 2 (.ok (passOver s))

/-! ## Traps that instructions raise, and BRK -/

/-- ECALL: cause ECALL, TVAL the code (R388). -/
def execEcall (c : BitVec 10) (s : State) : Host.Outcome State Fault Refusal :=
  finish 4 (.trap s .ecall 0 (c.setWidth 64))

/-- The cause of a code of Table 4.17. -/
def causeOf (n : Nat) : Option Cause :=
  [Cause.illop, .priv, .regbound, .align, .space, .bound, .page, .prot, .poison, .sqfull, .budget, .metabad, .slot, .maplost,
   .mapbad, .mcastpart, .dielost, .rtfull, .suberr, .brk, .watch, .fpx, .ecall, .remote, .deadline, .permit, .fenced,
   .stalexlat].find? (fun c => causeCode c == n)

/-- TRAP: the cause that sa names, but for DIELOST, DEADLINE and FENCED, with TVAL sb; any other sa traps with BOUND (R492). -/
def execTrap (a b : BitVec 5) (y : Bool) (s : State) : Host.Outcome State Fault Refusal :=
  finish 4 (guard [rdS s.me a y, rdS s.me b false] (fun s =>
    let v := s.me.rs a y
    match causeOf v.toNat with
    | some c => if c = .dielost ∨ c = .deadline ∨ c = .fenced then .trap s .bound 0 v else .trap s c 0 (s.me.rs b false)
    | none => .trap s .bound 0 v) s)

/-- BRK: the strand is stopped, to be saved with the PC after it; it is never published (R70, R282, R366). -/
def stopAt (code : Nat) (s : State) : Res := stopped (.brk code s.me.pc.toNat s.devtime) .brk (word code) s

/-- BRK (R366). -/
def execBrk (c : BitVec 10) (s : State) : Host.Outcome State Fault Refusal := finish 4 (stopAt c.toNat s)

/-- Compact opcode 30: BRK 0 (R91). -/
def execCompactBrk (s : State) : Host.Outcome State Fault Refusal := finish 2 (stopAt 0 s)

/-! ## WAIT -/

/-- Whether an immediate places a condition, and the counter exceeds it (R78). -/
def above (t : Strand) (c : Ctr) (i : BitVec 6) : Bool := i != 63 && decide (t.ctr c > i.toNat)

/-- The counters on which a WAIT places a condition. -/
def conditioned (l st cp tl : BitVec 6) : List Ctr :=
  (if l != 63 then [.ld] else []) ++ (if st != 63 then [.st] else []) ++ (if cp != 63 then [.cp] else []) ++
    (if tl != 63 then [.tl] else [])

/-- WAIT: a short stall while a conditioned counter is above its immediate; then the oldest arrived fault of an operation
counted in a conditioned counter is raised; then it completes as the acquire of R170, F rising to the greatest instant at
which a command of DEVICE scope counted there reported (R158, R518). -/
def waitFor (l st cp tl : BitVec 6) (s : State) : Res :=
  let t := s.me
  if above t .ld l || above t .st st || above t .cp cp || above t .tl tl then .stall s .retry
  else
    let cs := conditioned l st cp tl
    match oldestFault (t.faults.filter (fun d => match d.ctr with | some c => cs.contains c | none => false)) with
    | some d => .trap (s.onMe (fun t => { t with faults := t.faults.filter (· != d) })) d.cause d.sub d.tval
    | none => .ok (s.onMe (fun t => { t with
        flr := Nat.max t.flr (Nat.max (if cs.contains .cp then t.repCp else 0) (if cs.contains .tl then t.repTl else 0)) }))

/-- WAIT (R518). -/
def execWait (l st cp tl : BitVec 6) (s : State) : Host.Outcome State Fault Refusal := finish 4 (waitFor l st cp tl s)

/-- Compact opcode 29: WAIT with all four counters at 0 (R91). -/
def execCompactWait (s : State) : Host.Outcome State Fault Refusal := finish 2 (waitFor 0 0 0 0 s)

end Sys2Proof.Machine
end

