-- ==== Sys2Proof/Machine/Mask.lean ====
section
/-!
DEFINITION. The mask forms (major 0x09): R410, R411.
-/

namespace Sys2Proof.Machine

open Sys2Proof

/-- A form of two masks that writes a mask. -/
def mask3 (f : BitVec 16 → BitVec 16 → BitVec 16) (d a b : BitVec 3) (s : State) : Host.Outcome State Fault Refusal :=
  finish 4 (guard [rdK a, rdK b, wrK d]
    (fun s => .ok (s.onMe (fun t => t.setK d.toNat (f (t.k a.toNat) (t.k b.toNat))))) s)

/-- A form of one mask that writes a mask. -/
def mask2 (f : BitVec 16 → BitVec 16) (d a : BitVec 3) (s : State) : Host.Outcome State Fault Refusal :=
  finish 4 (guard [rdK a, wrK d] (fun s => .ok (s.onMe (fun t => t.setK d.toNat (f (t.k a.toNat))))) s)

/-- A form of one mask that writes a scalar register. -/
def maskToScalar (f : BitVec 16 → Nat) (d : BitVec 5) (a : BitVec 3) (s : State) : Host.Outcome State Fault Refusal :=
  finish 4 (guard [rdK a, wrS s.me d false]
    (fun s => .ok (s.onMe (fun t => t.ws d false (word (f (t.k a.toNat)))))) s)

/-- KAND (R411). -/
def execKand (d a b : BitVec 3) (s : State) : Host.Outcome State Fault Refusal := mask3 (· &&& ·) d a b s

/-- KOR (R411). -/
def execKor (d a b : BitVec 3) (s : State) : Host.Outcome State Fault Refusal := mask3 (· ||| ·) d a b s

/-- KXOR (R411). -/
def execKxor (d a b : BitVec 3) (s : State) : Host.Outcome State Fault Refusal := mask3 (· ^^^ ·) d a b s

/-- KNOT (R411). -/
def execKnot (d a : BitVec 3) (s : State) : Host.Outcome State Fault Refusal := mask2 (~~~ ·) d a s

/-- KMOV of a mask (R411). -/
def execKmov (d a : BitVec 3) (s : State) : Host.Outcome State Fault Refusal := mask2 id d a s

/-- KMOV of a scalar's low 16 bits (R411). -/
def execKmovScalar (d : BitVec 3) (a : BitVec 5) (s : State) : Host.Outcome State Fault Refusal :=
  finish 4 (guard [rdS s.me a false, wrK d]
    (fun s => .ok (s.onMe (fun t => t.setK d.toNat ((t.rs a false).setWidth 16)))) s)

/-- KPOP (R411). -/
def execKpop (d : BitVec 5) (a : BitVec 3) (s : State) : Host.Outcome State Fault Refusal :=
  maskToScalar (fun m => countBits m.toNat 16) d a s

/-- The index of the lowest set bit, 16 for none (R411). -/
def firstBit (m : BitVec 16) : Nat := ((List.range 16).find? (fun i => m.getLsbD i)).getD 16

/-- KFIRST (R411). -/
def execKfirst (d : BitVec 5) (a : BitVec 3) (s : State) : Host.Outcome State Fault Refusal := maskToScalar firstBit d a s

end Sys2Proof.Machine
end

