-- ==== Sys2Proof/Machine/Vector.lean ====
section
/-!
DEFINITION. The vector forms (majors 0x06 to 0x08) and their compact equivalents: R505-R517, R91.
-/

namespace Sys2Proof.Machine

open Sys2Proof

/-! ## Shapes of the forms -/

/-- The end of a form whose result is one vector register: FPX, or the register and the flags (R506). -/
def vecDone (d : BitVec 5) (o : VecOut) (s : State) : Res :=
  raising o.flags o.sat (fun s => s.onMe (fun t => t.setV d.toNat o.val)) s

/-- A masked form of two vector sources; the register checks go va, vb, km, vd (R505). -/
def vform3 (len : Nat) (f : State → VecOut) (d a b : BitVec 5) (k : BitVec 3) (s : State) : Host.Outcome State Fault Refusal :=
  finish len (guard [rdV a, rdV b, rdK k, rwV d] (fun s => vecDone d (f s) s) s)

/-- A masked form of one vector source. -/
def vform2 (f : State → VecOut) (d a : BitVec 5) (k : BitVec 3) (s : State) : Host.Outcome State Fault Refusal :=
  finish 4 (guard [rdV a, rdK k, rwV d] (fun s => vecDone d (f s) s) s)

/-- A lane-wise function on the registers that a form names (Table 25.3). -/
def laneForm (g : LaneFn) (d a b : BitVec 5) (k : BitVec 3) (t : Nat) (s : State) : VecOut :=
  vec3 g (fpCtl s.me) t (s.me.k k.toNat) (s.me.v a.toNat) (s.me.v b.toNat) (s.me.v d.toNat)

/-- A lane-wise form of two sources. -/
def lane3 (g : LaneFn) (d a b : BitVec 5) (k : BitVec 3) (t : BitVec 4) (s : State) : Host.Outcome State Fault Refusal :=
  vform3 4 (laneForm g d a b k t.toNat) d a b k s

/-- A lane-wise form of one source. -/
def lane2 (g : LaneFn) (d a : BitVec 5) (k : BitVec 3) (t : BitVec 4) (s : State) : Host.Outcome State Fault Refusal :=
  vform2 (laneForm g d a 0 k t.toNat) d a k s

/-- A form that the cluster's SFU performs: the whole of vd is written when the result returns (R512). -/
def sfuVec (o : VecOut) (d : BitVec 5) (s : State) : Res := sfuIssue (.v d.toNat) o.val.toNat o.flags s

/-- An SFU form of one source. -/
def sfu2 (g : LaneFn) (d a : BitVec 5) (k : BitVec 3) (t : BitVec 4) (s : State) : Host.Outcome State Fault Refusal :=
  finish 4 (guard [rdV a, rdK k, rwV d] (fun s => sfuVec (laneForm g d a 0 k t.toNat s) d s) s)

/-! ## Lane-wise forms (Table 25.3) -/

/-- VADD (R507). -/
def execVadd (d a b : BitVec 5) (k : BitVec 3) (t : BitVec 4) (s : State) : Host.Outcome State Fault Refusal :=
  lane3 laneAdd d a b k t s

/-- VSUB (R507). -/
def execVsub (d a b : BitVec 5) (k : BitVec 3) (t : BitVec 4) (s : State) : Host.Outcome State Fault Refusal :=
  lane3 laneSub d a b k t s

/-- VADDS (R507). -/
def execVadds (d a b : BitVec 5) (k : BitVec 3) (t : BitVec 4) (s : State) : Host.Outcome State Fault Refusal :=
  lane3 laneAdds d a b k t s

/-- VSUBS (R507). -/
def execVsubs (d a b : BitVec 5) (k : BitVec 3) (t : BitVec 4) (s : State) : Host.Outcome State Fault Refusal :=
  lane3 laneSubs d a b k t s

/-- VMUL (R507). -/
def execVmul (d a b : BitVec 5) (k : BitVec 3) (t : BitVec 4) (s : State) : Host.Outcome State Fault Refusal :=
  lane3 laneMul d a b k t s

/-- VMULH (R507). -/
def execVmulh (d a b : BitVec 5) (k : BitVec 3) (t : BitVec 4) (s : State) : Host.Outcome State Fault Refusal :=
  lane3 laneMulh d a b k t s

/-- VFMA (R507). -/
def execVfma (d a b : BitVec 5) (k : BitVec 3) (t : BitVec 4) (s : State) : Host.Outcome State Fault Refusal :=
  lane3 laneFma d a b k t s

/-- VMIN (R507). -/
def execVmin (d a b : BitVec 5) (k : BitVec 3) (t : BitVec 4) (s : State) : Host.Outcome State Fault Refusal :=
  lane3 (laneMinMax false) d a b k t s

/-- VMAX (R507). -/
def execVmax (d a b : BitVec 5) (k : BitVec 3) (t : BitVec 4) (s : State) : Host.Outcome State Fault Refusal :=
  lane3 (laneMinMax true) d a b k t s

/-- VAND (R507). -/
def execVand (d a b : BitVec 5) (k : BitVec 3) (t : BitVec 4) (s : State) : Host.Outcome State Fault Refusal :=
  lane3 laneAnd d a b k t s

/-- VOR (R507). -/
def execVor (d a b : BitVec 5) (k : BitVec 3) (t : BitVec 4) (s : State) : Host.Outcome State Fault Refusal :=
  lane3 laneOr d a b k t s

/-- VXOR (R507). -/
def execVxor (d a b : BitVec 5) (k : BitVec 3) (t : BitVec 4) (s : State) : Host.Outcome State Fault Refusal :=
  lane3 laneXor d a b k t s

/-- VSHL (R507). -/
def execVshl (d a b : BitVec 5) (k : BitVec 3) (t : BitVec 4) (s : State) : Host.Outcome State Fault Refusal :=
  lane3 laneShl d a b k t s

/-- VSHR (R507). -/
def execVshr (d a b : BitVec 5) (k : BitVec 3) (t : BitVec 4) (s : State) : Host.Outcome State Fault Refusal :=
  lane3 laneShr d a b k t s

/-- VSRA (R507). -/
def execVsra (d a b : BitVec 5) (k : BitVec 3) (t : BitVec 4) (s : State) : Host.Outcome State Fault Refusal :=
  lane3 laneSra d a b k t s

/-- VABS (R507). -/
def execVabs (d a : BitVec 5) (k : BitVec 3) (t : BitVec 4) (s : State) : Host.Outcome State Fault Refusal :=
  lane2 laneAbs d a k t s

/-- VNEG (R507). -/
def execVneg (d a : BitVec 5) (k : BitVec 3) (t : BitVec 4) (s : State) : Host.Outcome State Fault Refusal :=
  lane2 laneNeg d a k t s

/-- VNOT (R507). -/
def execVnot (d a : BitVec 5) (k : BitVec 3) (t : BitVec 4) (s : State) : Host.Outcome State Fault Refusal :=
  lane2 laneNot d a k t s

/-- VCLASS (R508). -/
def execVclass (d a : BitVec 5) (k : BitVec 3) (t : BitVec 4) (s : State) : Host.Outcome State Fault Refusal :=
  lane2 laneClass d a k t s

/-- VSEL (R507): every element is written. -/
def execVsel (d a b : BitVec 5) (k : BitVec 3) (t : BitVec 4) (s : State) : Host.Outcome State Fault Refusal :=
  finish 4 (guard [rdV a, rdV b, rdK k, wrV d]
    (fun s => vecDone d (vecSel t.toNat (s.me.k k.toNat) (s.me.v a.toNat) (s.me.v b.toNat)) s) s)

/-- VDOT (R513). -/
def execVdot (d a b : BitVec 5) (k : BitVec 3) (t : BitVec 4) (s : State) : Host.Outcome State Fault Refusal :=
  vform3 4 (fun s => vecDot (fpCtl s.me) t.toNat (s.me.k k.toNat) (s.me.v a.toNat) (s.me.v b.toNat) (s.me.v d.toNat))
    d a b k s

/-- VSHUF (R507). -/
def execVshuf (d a b : BitVec 5) (k : BitVec 3) (t : BitVec 4) (s : State) : Host.Outcome State Fault Refusal :=
  vform3 4 (fun s => vecShuf t.toNat (s.me.k k.toNat) (s.me.v a.toNat) (s.me.v b.toNat) (s.me.v d.toNat)) d a b k s

/-- VBCAST (R507). -/
def execVbcast (d a : BitVec 5) (k : BitVec 3) (t : BitVec 4) (s : State) : Host.Outcome State Fault Refusal :=
  finish 4 (guard [rdS s.me a false, rdK k, rwV d]
    (fun s => vecDone d (vecBcast t.toNat (s.me.k k.toNat) (s.me.rs a false) (s.me.v d.toNat)) s) s)

/-- VINS (R507): km is not used. -/
def execVins (d a : BitVec 5) (l t : BitVec 4) (s : State) : Host.Outcome State Fault Refusal :=
  finish 4 (guard [rdS s.me a false, rwV d]
    (fun s => .ok (s.onMe (fun u => u.setV d.toNat (vecIns t.toNat l.toNat (s.me.rs a false) (s.me.v d.toNat))))) s)

/-! ## Moves to scalars and from streams (R516) -/

/-- VMOVS of a lane. -/
def execVmovs (d a : BitVec 5) (l t : BitVec 4) (s : State) : Host.Outcome State Fault Refusal :=
  finish 4 (guard [rdV a, wrS s.me d false]
    (fun s => .ok (s.onMe (fun u => u.ws d false (vecLane t.toNat l.toNat (s.me.v a.toNat))))) s)

/-- VMOVS of the next 16 bytes of a stream register. -/
def execVmovsStream (d : BitVec 5) (n : BitVec 3) (s : State) : Host.Outcome State Fault Refusal :=
  finish 4 (guard [wrV d]
    (streamRead n.toNat 16 (fun s l => s.onMe (fun t => t.setV d.toNat (BitVec.ofNat 128 (leNat l))))) s)

/-! ## Conversions and reductions -/

/-- VCVT (R511). -/
def execVcvt (d a : BitVec 5) (c : BitVec 4) (k : BitVec 3) (t : BitVec 4) (s : State) : Host.Outcome State Fault Refusal :=
  vform2 (fun s => vecCvt (fpCtl s.me) t.toNat c.toNat (s.me.k k.toNat) (s.me.v a.toNat) (s.me.v d.toNat)) d a k s

/-- VRED (R517). -/
def execVred (d a o : BitVec 5) (k : BitVec 3) (t : BitVec 4) (s : State) : Host.Outcome State Fault Refusal :=
  finish 4 (guard [rdV a, rdK k, wrV d]
    (fun s => vecDone d (vecRed (fpCtl s.me) t.toNat o.toNat (s.me.k k.toNat) (s.me.v a.toNat)) s) s)

/-- VSCAN (R517). -/
def execVscan (d a o : BitVec 5) (k : BitVec 3) (t : BitVec 4) (s : State) : Host.Outcome State Fault Refusal :=
  vform2 (fun s => vecScan (fpCtl s.me) t.toNat o.toNat (s.me.k k.toNat) (s.me.v a.toNat) (s.me.v d.toNat)) d a k s

/-- VMATCH (R515): the mask gives the active set and receives the leaders. -/
def execVmatch (d a b : BitVec 5) (k : BitVec 3) (p w : BitVec 2) (s : State) : Host.Outcome State Fault Refusal :=
  finish 4 (guard [rdV a, rdV b, rwK k, wrV d] (fun s =>
    let (v, l) := vecMatch (2 ^ w.toNat) p.toNat (s.me.k k.toNat) (s.me.v a.toNat) (s.me.v b.toNat)
    .ok (s.onMe (fun t => (t.setV d.toNat v).setK k.toNat l))) s)

/-- The sparsity checks of VCOMPRESS and VEXPAND: BOUND with TVAL e0 (R510, R514). -/
def sparseCheck (t : BitVec 4) (k : State → Res) (s : State) : Res :=
  if sparseOk (s.me.e 0).toNat (16 / elemBytes t.toNat) then k s else .trap s .bound 0 ((s.me.e 0).setWidth 64)

/-- VCOMPRESS (R510): vb is written after vd. -/
def execVcompress (d a b : BitVec 5) (k : BitVec 3) (t : BitVec 4) (s : State) : Host.Outcome State Fault Refusal :=
  finish 4 (guard [rdV a, wrV b, rdK k, wrV d] (sparseCheck t (fun s =>
    let (v, r) := vecCompress t.toNat (s.me.e 0).toNat (s.me.k k.toNat) (s.me.v a.toNat)
    .ok (s.onMe (fun u => (u.setV d.toNat v).setV b.toNat r)))) s)

/-- VEXPAND (R514): METABAD for the first malformed record. -/
def execVexpand (d a b : BitVec 5) (k : BitVec 3) (t : BitVec 4) (s : State) : Host.Outcome State Fault Refusal :=
  finish 4 (guard [rdV a, rdV b, rdK k, rwV d] (sparseCheck t (fun s =>
    match vecExpand t.toNat (s.me.e 0).toNat (s.me.k k.toNat) (s.me.v a.toNat) (s.me.v b.toNat) (s.me.v d.toNat) with
    | .error x => .trap s .metabad 0 (word x)
    | .ok v => .ok (s.onMe (fun u => u.setV d.toNat v)))) s)

/-! ## SFU forms (R512) -/

/-- VRCP (R512). -/
def execVrcp (d a : BitVec 5) (k : BitVec 3) (t : BitVec 4) (s : State) : Host.Outcome State Fault Refusal :=
  sfu2 laneRcp d a k t s

/-- VRSQ (R512). -/
def execVrsq (d a : BitVec 5) (k : BitVec 3) (t : BitVec 4) (s : State) : Host.Outcome State Fault Refusal :=
  sfu2 laneRsq d a k t s

/-- VEXP2 (R512). -/
def execVexp2 (d a : BitVec 5) (k : BitVec 3) (t : BitVec 4) (s : State) : Host.Outcome State Fault Refusal :=
  sfu2 laneExp2 d a k t s

/-- VLOG2 (R512). -/
def execVlog2 (d a : BitVec 5) (k : BitVec 3) (t : BitVec 4) (s : State) : Host.Outcome State Fault Refusal :=
  sfu2 laneLog2 d a k t s

/-- VTANH (R512). -/
def execVtanh (d a : BitVec 5) (k : BitVec 3) (t : BitVec 4) (s : State) : Host.Outcome State Fault Refusal :=
  sfu2 laneTanh d a k t s

/-- VDIV (R512). -/
def execVdiv (d a b : BitVec 5) (k : BitVec 3) (t : BitVec 4) (s : State) : Host.Outcome State Fault Refusal :=
  finish 4 (guard [rdV a, rdV b, rdK k, rwV d] (fun s => sfuVec (laneForm laneDiv d a b k t.toNat s) d s) s)

/-! ## Comparisons (R509) -/

/-- VCMP of a predicate. -/
def vcmpForm (p : Pred) (d : BitVec 3) (a b : BitVec 5) (k : BitVec 3) (t : BitVec 4) (s : State) :
    Host.Outcome State Fault Refusal :=
  finish 4 (guard [rdV a, rdV b, rdK k, wrK d] (fun s =>
    let (m, fl) := vecCmp p t.toNat (s.me.k k.toNat) (s.me.v a.toNat) (s.me.v b.toNat)
    raising fl false (fun s => s.onMe (fun u => u.setK d.toNat m)) s) s)

/-- VCMP.eq (R509). -/
def execVcmpEq (d : BitVec 3) (a b : BitVec 5) (k : BitVec 3) (t : BitVec 4) (s : State) :
    Host.Outcome State Fault Refusal := vcmpForm .eq d a b k t s

/-- VCMP.ne (R509). -/
def execVcmpNe (d : BitVec 3) (a b : BitVec 5) (k : BitVec 3) (t : BitVec 4) (s : State) :
    Host.Outcome State Fault Refusal := vcmpForm .ne d a b k t s

/-- VCMP.lt (R509). -/
def execVcmpLt (d : BitVec 3) (a b : BitVec 5) (k : BitVec 3) (t : BitVec 4) (s : State) :
    Host.Outcome State Fault Refusal := vcmpForm .lt d a b k t s

/-- VCMP.le (R509). -/
def execVcmpLe (d : BitVec 3) (a b : BitVec 5) (k : BitVec 3) (t : BitVec 4) (s : State) :
    Host.Outcome State Fault Refusal := vcmpForm .le d a b k t s

/-- VCMP.gt (R509). -/
def execVcmpGt (d : BitVec 3) (a b : BitVec 5) (k : BitVec 3) (t : BitVec 4) (s : State) :
    Host.Outcome State Fault Refusal := vcmpForm .gt d a b k t s

/-- VCMP.ge (R509). -/
def execVcmpGe (d : BitVec 3) (a b : BitVec 5) (k : BitVec 3) (t : BitVec 4) (s : State) :
    Host.Outcome State Fault Refusal := vcmpForm .ge d a b k t s

/-- VCMP.un (R509). -/
def execVcmpUn (d : BitVec 3) (a b : BitVec 5) (k : BitVec 3) (t : BitVec 4) (s : State) :
    Host.Outcome State Fault Refusal := vcmpForm .un d a b k t s

/-! ## Compact equivalents (R91): mask k0 -/

/-- A compact lane-wise form of a type. -/
def compactLane (g : LaneFn) (t : Nat) (d a b : BitVec 3) (s : State) : Host.Outcome State Fault Refusal :=
  vform3 2 (laneForm g (wide d) (wide a) (wide b) 0 t) (wide d) (wide a) (wide b) 0 s

/-- Compact VADD.f32 (R91). -/
def execCompactVaddF32 (d a b : BitVec 3) (s : State) : Host.Outcome State Fault Refusal := compactLane laneAdd 8 d a b s

/-- Compact VMUL.f32 (R91). -/
def execCompactVmulF32 (d a b : BitVec 3) (s : State) : Host.Outcome State Fault Refusal := compactLane laneMul 8 d a b s

/-- Compact VFMA.f32 (R91). -/
def execCompactVfmaF32 (d a b : BitVec 3) (s : State) : Host.Outcome State Fault Refusal := compactLane laneFma 8 d a b s

/-- Compact VADD.i32 (R91). -/
def execCompactVaddI32 (d a b : BitVec 3) (s : State) : Host.Outcome State Fault Refusal := compactLane laneAdd 2 d a b s

/-- Compact VSUB.f32 (R91). -/
def execCompactVsubF32 (d a b : BitVec 3) (s : State) : Host.Outcome State Fault Refusal := compactLane laneSub 8 d a b s

end Sys2Proof.Machine
end

