-- ==== Sys2Proof/Machine/Dispatch.lean ====
section
/-! DEFINITION. Dispatch: one arm per constructor of Instr, each one direct call of its meaning. -/

namespace Sys2Proof.Machine

open Sys2Proof

def exec (i : Instr) (s : State) : Host.Outcome State Fault Refusal :=
  match i with
  | .add d a b x y => Sys2Proof.Machine.execAdd d a b x y s
  | .sub d a b x y => Sys2Proof.Machine.execSub d a b x y s
  | .mul d a b x y => Sys2Proof.Machine.execMul d a b x y s
  | .mulh d a b x y => Sys2Proof.Machine.execMulh d a b x y s
  | .mulhn d a b x y => Sys2Proof.Machine.execMulhn d a b x y s
  | .div d a b x y => Sys2Proof.Machine.execDiv d a b x y s
  | .divn d a b x y => Sys2Proof.Machine.execDivn d a b x y s
  | .rem d a b x y => Sys2Proof.Machine.execRem d a b x y s
  | .remn d a b x y => Sys2Proof.Machine.execRemn d a b x y s
  | .and d a b x y => Sys2Proof.Machine.execAnd d a b x y s
  | .or d a b x y => Sys2Proof.Machine.execOr d a b x y s
  | .xor d a b x y => Sys2Proof.Machine.execXor d a b x y s
  | .shl d a b x y => Sys2Proof.Machine.execShl d a b x y s
  | .shr d a b x y => Sys2Proof.Machine.execShr d a b x y s
  | .sra d a b x y => Sys2Proof.Machine.execSra d a b x y s
  | .slt d a b x y => Sys2Proof.Machine.execSlt d a b x y s
  | .sltn d a b x y => Sys2Proof.Machine.execSltn d a b x y s
  | .min d a b x y => Sys2Proof.Machine.execMin d a b x y s
  | .minn d a b x y => Sys2Proof.Machine.execMinn d a b x y s
  | .max d a b x y => Sys2Proof.Machine.execMax d a b x y s
  | .maxn d a b x y => Sys2Proof.Machine.execMaxn d a b x y s
  | .clz d a x y => Sys2Proof.Machine.execClz d a x y s
  | .popc d a x y => Sys2Proof.Machine.execPopc d a x y s
  | .brev d a x y => Sys2Proof.Machine.execBrev d a x y s
  | .sext d a x y z => Sys2Proof.Machine.execSext d a x y z s
  | .zext d a x y z => Sys2Proof.Machine.execZext d a x y z s
  | .mov d a x y => Sys2Proof.Machine.execMov d a x y s
  | .movStream d n x => Sys2Proof.Machine.execMovStream d n x s
  | .movWindow d n x => Sys2Proof.Machine.execMovWindow d n x s
  | .addi d a iv => Sys2Proof.Machine.execAddi d a iv s
  | .andi d a iv => Sys2Proof.Machine.execAndi d a iv s
  | .ori d a iv => Sys2Proof.Machine.execOri d a iv s
  | .xori d a iv => Sys2Proof.Machine.execXori d a iv s
  | .shli d a iv => Sys2Proof.Machine.execShli d a iv s
  | .shri d a iv => Sys2Proof.Machine.execShri d a iv s
  | .srai d a iv => Sys2Proof.Machine.execSrai d a iv s
  | .slti d a iv => Sys2Proof.Machine.execSlti d a iv s
  | .sel d a b x y c => Sys2Proof.Machine.execSel d a b x y c s
  | .ffma d a b x y c t => Sys2Proof.Machine.execFfma d a b x y c t s
  | .fadd d a b x y t => Sys2Proof.Machine.execFadd d a b x y t s
  | .fsub d a b x y t => Sys2Proof.Machine.execFsub d a b x y t s
  | .fmul d a b x y t => Sys2Proof.Machine.execFmul d a b x y t s
  | .fmin d a b x y t => Sys2Proof.Machine.execFmin d a b x y t s
  | .fmax d a b x y t => Sys2Proof.Machine.execFmax d a b x y t s
  | .fcmpEq d a b x y t => Sys2Proof.Machine.execFcmpEq d a b x y t s
  | .fcmpLt d a b x y t => Sys2Proof.Machine.execFcmpLt d a b x y t s
  | .fcmpLe d a b x y t => Sys2Proof.Machine.execFcmpLe d a b x y t s
  | .fcmpUn d a b x y t => Sys2Proof.Machine.execFcmpUn d a b x y t s
  | .fcvt d a c x y t => Sys2Proof.Machine.execFcvt d a c x y t s
  | .fdiv d a b x y t => Sys2Proof.Machine.execFdiv d a b x y t s
  | .fsqrt d a x y t => Sys2Proof.Machine.execFsqrt d a x y t s
  | .li d iv => Sys2Proof.Machine.execLi d iv s
  | .liW d => Sys2Proof.Machine.execLiW d s
  | .liD d => Sys2Proof.Machine.execLiD d s
  | .lea d a b x y sv => Sys2Proof.Machine.execLea d a b x y sv s
  | .addp d a b x y => Sys2Proof.Machine.execAddp d a b x y s
  | .pmake d a t x y => Sys2Proof.Machine.execPmake d a t x y s
  | .ptag d a x y => Sys2Proof.Machine.execPtag d a x y s
  | .setxi a y => Sys2Proof.Machine.execSetxi a y s
  | .addxi iv => Sys2Proof.Machine.execAddxi iv s
  | .extHi n iv => Sys2Proof.Machine.execExtHi n iv s
  | .ext n iv => Sys2Proof.Machine.execExt n iv s
  | .beq a b o => Sys2Proof.Machine.execBeq a b o s
  | .bne a b o => Sys2Proof.Machine.execBne a b o s
  | .blt a b o => Sys2Proof.Machine.execBlt a b o s
  | .bge a b o => Sys2Proof.Machine.execBge a b o s
  | .bltn a b o => Sys2Proof.Machine.execBltn a b o s
  | .bgen a b o => Sys2Proof.Machine.execBgen a b o s
  | .loop a o => Sys2Proof.Machine.execLoop a o s
  | .jmp o => Sys2Proof.Machine.execJmp o s
  | .jal d o => Sys2Proof.Machine.execJal d o s
  | .jr a y => Sys2Proof.Machine.execJr a y s
  | .jalr d a x y => Sys2Proof.Machine.execJalr d a x y s
  | .endTask => Sys2Proof.Machine.execEndTask s
  | .yield => Sys2Proof.Machine.execYield s
  | .nop => Sys2Proof.Machine.execNop s
  | .brk c => Sys2Proof.Machine.execBrk c s
  | .ld d a t o sv iv => Sys2Proof.Machine.execLd d a t o sv iv s
  | .ldv d a k o sv iv => Sys2Proof.Machine.execLdv d a k o sv iv s
  | .ldg d a k w b => Sys2Proof.Machine.execLdg d a k w b s
  | .pref a l iv => Sys2Proof.Machine.execPref a l iv s
  | .st d a t o sv iv => Sys2Proof.Machine.execSt d a t o sv iv s
  | .stv d a k o sv iv => Sys2Proof.Machine.execStv d a k o sv iv s
  | .sts d a k w b => Sys2Proof.Machine.execSts d a k w b s
  | .amoAdd d a b x y z => Sys2Proof.Machine.execAmoAdd d a b x y z s
  | .amoAnd d a b x y z => Sys2Proof.Machine.execAmoAnd d a b x y z s
  | .amoOr d a b x y z => Sys2Proof.Machine.execAmoOr d a b x y z s
  | .amoXor d a b x y z => Sys2Proof.Machine.execAmoXor d a b x y z s
  | .amoMin d a b x y z => Sys2Proof.Machine.execAmoMin d a b x y z s
  | .amoMax d a b x y z => Sys2Proof.Machine.execAmoMax d a b x y z s
  | .amoSwap d a b x y z => Sys2Proof.Machine.execAmoSwap d a b x y z s
  | .cas d a b x y z => Sys2Proof.Machine.execCas d a b x y z s
  | .ufn d a b x y => Sys2Proof.Machine.execUfn d a b x y s
  | .ufncfg a b y => Sys2Proof.Machine.execUfncfg a b y s
  | .red a b y z => Sys2Proof.Machine.execRed a b y z s
  | .waitc d a b x y c => Sys2Proof.Machine.execWaitc d a b x y c s
  | .fence o sv => Sys2Proof.Machine.execFence o sv s
  | .bara b => Sys2Proof.Machine.execBara b s
  | .barw b => Sys2Proof.Machine.execBarw b s
  | .barx d a b x y => Sys2Proof.Machine.execBarx d a b x y s
  | .wait l sv c t => Sys2Proof.Machine.execWait l sv c t s
  | .qinit d a b x y => Sys2Proof.Machine.execQinit d a b x y s
  | .qpush d a b x y z => Sys2Proof.Machine.execQpush d a b x y z s
  | .qpop d a b x y => Sys2Proof.Machine.execQpop d a b x y s
  | .qpopW d a b x y => Sys2Proof.Machine.execQpopW d a b x y s
  | .qsteal d a b x y => Sys2Proof.Machine.execQsteal d a b x y s
  | .qavail d a x y => Sys2Proof.Machine.execQavail d a x y s
  | .permit d a b x y => Sys2Proof.Machine.execPermit d a b x y s
  | .pret a b y => Sys2Proof.Machine.execPret a b y s
  | .bind n a b y => Sys2Proof.Machine.execBind n a b y s
  | .unbind n => Sys2Proof.Machine.execUnbind n s
  | .send a b y => Sys2Proof.Machine.execSend a b y s
  | .sendt a b y => Sys2Proof.Machine.execSendt a b y s
  | .sendr a b y => Sys2Proof.Machine.execSendr a b y s
  | .mcast d a x y z => Sys2Proof.Machine.execMcast d a x y z s
  | .task a b y => Sys2Proof.Machine.execTask a b y s
  | .launch d a b x y => Sys2Proof.Machine.execLaunch d a b x y s
  | .htset a b y => Sys2Proof.Machine.execHtset a b y s
  | .hmask a b y => Sys2Proof.Machine.execHmask a b y s
  | .msgid d x => Sys2Proof.Machine.execMsgid d x s
  | .migrate a y => Sys2Proof.Machine.execMigrate a y s
  | .publish c => Sys2Proof.Machine.execPublish c s
  | .unpublish => Sys2Proof.Machine.execUnpublish s
  | .subscribe a c => Sys2Proof.Machine.execSubscribe a c s
  | .unsub => Sys2Proof.Machine.execUnsub s
  | .unsubNz a => Sys2Proof.Machine.execUnsubNz a s
  | .resub c r => Sys2Proof.Machine.execResub c r s
  | .rdv r => Sys2Proof.Machine.execRdv r s
  | .join g => Sys2Proof.Machine.execJoin g s
  | .leave g => Sys2Proof.Machine.execLeave g s
  | .gsize d g => Sys2Proof.Machine.execGsize d g s
  | .vadd d a b k t => Sys2Proof.Machine.execVadd d a b k t s
  | .vsub d a b k t => Sys2Proof.Machine.execVsub d a b k t s
  | .vadds d a b k t => Sys2Proof.Machine.execVadds d a b k t s
  | .vsubs d a b k t => Sys2Proof.Machine.execVsubs d a b k t s
  | .vmul d a b k t => Sys2Proof.Machine.execVmul d a b k t s
  | .vmulh d a b k t => Sys2Proof.Machine.execVmulh d a b k t s
  | .vfma d a b k t => Sys2Proof.Machine.execVfma d a b k t s
  | .vmin d a b k t => Sys2Proof.Machine.execVmin d a b k t s
  | .vmax d a b k t => Sys2Proof.Machine.execVmax d a b k t s
  | .vabs d a k t => Sys2Proof.Machine.execVabs d a k t s
  | .vneg d a k t => Sys2Proof.Machine.execVneg d a k t s
  | .vand d a b k t => Sys2Proof.Machine.execVand d a b k t s
  | .vor d a b k t => Sys2Proof.Machine.execVor d a b k t s
  | .vxor d a b k t => Sys2Proof.Machine.execVxor d a b k t s
  | .vnot d a k t => Sys2Proof.Machine.execVnot d a k t s
  | .vshl d a b k t => Sys2Proof.Machine.execVshl d a b k t s
  | .vshr d a b k t => Sys2Proof.Machine.execVshr d a b k t s
  | .vsra d a b k t => Sys2Proof.Machine.execVsra d a b k t s
  | .vsel d a b k t => Sys2Proof.Machine.execVsel d a b k t s
  | .vdot d a b k t => Sys2Proof.Machine.execVdot d a b k t s
  | .vshuf d a b k t => Sys2Proof.Machine.execVshuf d a b k t s
  | .vbcast d a k t => Sys2Proof.Machine.execVbcast d a k t s
  | .vmovs d a l t => Sys2Proof.Machine.execVmovs d a l t s
  | .vmovsStream d n => Sys2Proof.Machine.execVmovsStream d n s
  | .vins d a l t => Sys2Proof.Machine.execVins d a l t s
  | .vcvt d a sv k t => Sys2Proof.Machine.execVcvt d a sv k t s
  | .vred d a o k t => Sys2Proof.Machine.execVred d a o k t s
  | .vscan d a o k t => Sys2Proof.Machine.execVscan d a o k t s
  | .vmatch d a b k p w => Sys2Proof.Machine.execVmatch d a b k p w s
  | .vcompress d a b k t => Sys2Proof.Machine.execVcompress d a b k t s
  | .vexpand d a b k t => Sys2Proof.Machine.execVexpand d a b k t s
  | .vclass d a k t => Sys2Proof.Machine.execVclass d a k t s
  | .vrcp d a k t => Sys2Proof.Machine.execVrcp d a k t s
  | .vrsq d a k t => Sys2Proof.Machine.execVrsq d a k t s
  | .vexp2 d a k t => Sys2Proof.Machine.execVexp2 d a k t s
  | .vlog2 d a k t => Sys2Proof.Machine.execVlog2 d a k t s
  | .vtanh d a k t => Sys2Proof.Machine.execVtanh d a k t s
  | .vdiv d a b k t => Sys2Proof.Machine.execVdiv d a b k t s
  | .vcmpEq d a b k t => Sys2Proof.Machine.execVcmpEq d a b k t s
  | .vcmpNe d a b k t => Sys2Proof.Machine.execVcmpNe d a b k t s
  | .vcmpLt d a b k t => Sys2Proof.Machine.execVcmpLt d a b k t s
  | .vcmpLe d a b k t => Sys2Proof.Machine.execVcmpLe d a b k t s
  | .vcmpGt d a b k t => Sys2Proof.Machine.execVcmpGt d a b k t s
  | .vcmpGe d a b k t => Sys2Proof.Machine.execVcmpGe d a b k t s
  | .vcmpUn d a b k t => Sys2Proof.Machine.execVcmpUn d a b k t s
  | .kand d a b => Sys2Proof.Machine.execKand d a b s
  | .kor d a b => Sys2Proof.Machine.execKor d a b s
  | .kxor d a b => Sys2Proof.Machine.execKxor d a b s
  | .knot d a => Sys2Proof.Machine.execKnot d a s
  | .kmov d a => Sys2Proof.Machine.execKmov d a s
  | .kmovScalar d sv => Sys2Proof.Machine.execKmovScalar d sv s
  | .kpop d a => Sys2Proof.Machine.execKpop d a s
  | .kfirst d a => Sys2Proof.Machine.execKfirst d a s
  | .claim sv => Sys2Proof.Machine.execClaim sv s
  | .release sv => Sys2Proof.Machine.execRelease sv s
  | .tload d a b => Sys2Proof.Machine.execTload d a b s
  | .tmma d a b => Sys2Proof.Machine.execTmma d a b s
  | .tsmma d a b sv => Sys2Proof.Machine.execTsmma d a b sv s
  | .tzero d => Sys2Proof.Machine.execTzero d s
  | .tstore d a b => Sys2Proof.Machine.execTstore d a b s
  | .tscale d a => Sys2Proof.Machine.execTscale d a s
  | .taccv d a sv => Sys2Proof.Machine.execTaccv d a sv s
  | .tmatch d a b => Sys2Proof.Machine.execTmatch d a b s
  | .tmerge d a b sv => Sys2Proof.Machine.execTmerge d a b sv s
  | .tmsize d a sv => Sys2Proof.Machine.execTmsize d a sv s
  | .tunmerge d a b sv => Sys2Proof.Machine.execTunmerge d a b sv s
  | .tmapcomp d a b => Sys2Proof.Machine.execTmapcomp d a b s
  | .tmapfree d => Sys2Proof.Machine.execTmapfree d s
  | .tmapsave d a => Sys2Proof.Machine.execTmapsave d a s
  | .tmapload d a => Sys2Proof.Machine.execTmapload d a s
  | .mboxk a y => Sys2Proof.Machine.execMboxk a y s
  | .mbput a b y => Sys2Proof.Machine.execMbput a b y s
  | .mbtake d a b x y => Sys2Proof.Machine.execMbtake d a b x y s
  | .repl d a b x y => Sys2Proof.Machine.execRepl d a b x y s
  | .expsend d a b x y => Sys2Proof.Machine.execExpsend d a b x y s
  | .copy d a b x y => Sys2Proof.Machine.execCopy d a b x y s
  | .copym d a b x y => Sys2Proof.Machine.execCopym d a b x y s
  | .ingcfg a b y => Sys2Proof.Machine.execIngcfg a b y s
  | .ingq d a x y => Sys2Proof.Machine.execIngq d a x y s
  | .trap a b y => Sys2Proof.Machine.execTrap a b y s
  | .rett a b y => Sys2Proof.Machine.execRett a b y s
  | .ecall c => Sys2Proof.Machine.execEcall c s
  | .csrr d r => Sys2Proof.Machine.execCsrr d r s
  | .csrw a r => Sys2Proof.Machine.execCsrw a r s
  | .tlbinv a b y => Sys2Proof.Machine.execTlbinv a b y s
  | .ctxsave d a x y => Sys2Proof.Machine.execCtxsave d a x y s
  | .ctxload a y => Sys2Proof.Machine.execCtxload a y s
  | .halt => Sys2Proof.Machine.execHalt s
  | .idle d a x y => Sys2Proof.Machine.execIdle d a x y s
  | .pwrreq d a y => Sys2Proof.Machine.execPwrreq d a y s
  | .perfr d n x => Sys2Proof.Machine.execPerfr d n x s
  | .preempt d a y => Sys2Proof.Machine.execPreempt d a y s
  | .setfmt a y => Sys2Proof.Machine.execSetfmt a y s
  | .getfmt d x => Sys2Proof.Machine.execGetfmt d x s
  | .compactAdd d a b => Sys2Proof.Machine.execCompactAdd d a b s
  | .compactSub d a b => Sys2Proof.Machine.execCompactSub d a b s
  | .compactAnd d a b => Sys2Proof.Machine.execCompactAnd d a b s
  | .compactOr d a b => Sys2Proof.Machine.execCompactOr d a b s
  | .compactXor d a b => Sys2Proof.Machine.execCompactXor d a b s
  | .compactMov d a => Sys2Proof.Machine.execCompactMov d a s
  | .compactShl d a b => Sys2Proof.Machine.execCompactShl d a b s
  | .compactShr d a b => Sys2Proof.Machine.execCompactShr d a b s
  | .compactSra d a b => Sys2Proof.Machine.execCompactSra d a b s
  | .compactAddi d a iv => Sys2Proof.Machine.execCompactAddi d a iv s
  | .compactShli d a iv => Sys2Proof.Machine.execCompactShli d a iv s
  | .compactShri d a iv => Sys2Proof.Machine.execCompactShri d a iv s
  | .compactLd d a iv => Sys2Proof.Machine.execCompactLd d a iv s
  | .compactSt d a iv => Sys2Proof.Machine.execCompactSt d a iv s
  | .compactLdv d a iv => Sys2Proof.Machine.execCompactLdv d a iv s
  | .compactStv d a iv => Sys2Proof.Machine.execCompactStv d a iv s
  | .compactBeq a o => Sys2Proof.Machine.execCompactBeq a o s
  | .compactBne a o => Sys2Proof.Machine.execCompactBne a o s
  | .compactVaddF32 d a b => Sys2Proof.Machine.execCompactVaddF32 d a b s
  | .compactVmulF32 d a b => Sys2Proof.Machine.execCompactVmulF32 d a b s
  | .compactVfmaF32 d a b => Sys2Proof.Machine.execCompactVfmaF32 d a b s
  | .compactVaddI32 d a b => Sys2Proof.Machine.execCompactVaddI32 d a b s
  | .compactJrS0 => Sys2Proof.Machine.execCompactJrS0 s
  | .compactJrS1 => Sys2Proof.Machine.execCompactJrS1 s
  | .compactJrS2 => Sys2Proof.Machine.execCompactJrS2 s
  | .compactJrS3 => Sys2Proof.Machine.execCompactJrS3 s
  | .compactJrS4 => Sys2Proof.Machine.execCompactJrS4 s
  | .compactJrS5 => Sys2Proof.Machine.execCompactJrS5 s
  | .compactJrS6 => Sys2Proof.Machine.execCompactJrS6 s
  | .compactJrS7 => Sys2Proof.Machine.execCompactJrS7 s
  | .compactEnd => Sys2Proof.Machine.execCompactEnd s
  | .compactNop => Sys2Proof.Machine.execCompactNop s
  | .compactYield => Sys2Proof.Machine.execCompactYield s
  | .compactSlt d a b => Sys2Proof.Machine.execCompactSlt d a b s
  | .compactLi d iv => Sys2Proof.Machine.execCompactLi d iv s
  | .compactWait => Sys2Proof.Machine.execCompactWait s
  | .compactBrk => Sys2Proof.Machine.execCompactBrk s
  | .compactVsubF32 d a b => Sys2Proof.Machine.execCompactVsubF32 d a b s
  | .messageArrival => Sys2Proof.Machine.execMessageArrival s
  | .taskStart => Sys2Proof.Machine.execTaskStart s
  | .taskResume => Sys2Proof.Machine.execTaskResume s
  | .mapReload => Sys2Proof.Machine.execMapReload s
  | .migrationArrival => Sys2Proof.Machine.execMigrationArrival s
  | .wakeUp => Sys2Proof.Machine.execWakeUp s
  | .budgetExpiry => Sys2Proof.Machine.execBudgetExpiry s
  | .preemptionByArrival => Sys2Proof.Machine.execPreemptionByArrival s
  | .taskSave => Sys2Proof.Machine.execTaskSave s
  | .trapReport => Sys2Proof.Machine.execTrapReport s
  | .contextCreate => Sys2Proof.Machine.execContextCreate s
  | .contextDestroy => Sys2Proof.Machine.execContextDestroy s
  | .loadReply => Sys2Proof.Machine.execLoadReply s
  | .storeAck => Sys2Proof.Machine.execStoreAck s
  | .deferredFaultArrival => Sys2Proof.Machine.execDeferredFaultArrival s
  | .forwardingEntryExpiry => Sys2Proof.Machine.execForwardingEntryExpiry s
  | .leaseGrant => Sys2Proof.Machine.execLeaseGrant s
  | .leaseEnd => Sys2Proof.Machine.execLeaseEnd s
  | .hbmLineFill => Sys2Proof.Machine.execHbmLineFill s
  | .storeApply => Sys2Proof.Machine.execStoreApply s
  | .atomicApply => Sys2Proof.Machine.execAtomicApply s
  | .ufnApply => Sys2Proof.Machine.execUfnApply s
  | .redApply => Sys2Proof.Machine.execRedApply s
  | .redSlotTimeout => Sys2Proof.Machine.execRedSlotTimeout s
  | .monitorRegistration => Sys2Proof.Machine.execMonitorRegistration s
  | .waitcRetry => Sys2Proof.Machine.execWaitcRetry s
  | .scratchpadBankAccess => Sys2Proof.Machine.execScratchpadBankAccess s
  | .translationWalk => Sys2Proof.Machine.execTranslationWalk s
  | .queueHomeQinit => Sys2Proof.Machine.execQueueHomeQinit s
  | .queueHomePush => Sys2Proof.Machine.execQueueHomePush s
  | .queueHomePop => Sys2Proof.Machine.execQueueHomePop s
  | .queueHomeSteal => Sys2Proof.Machine.execQueueHomeSteal s
  | .queueHomeAvail => Sys2Proof.Machine.execQueueHomeAvail s
  | .queueHomePermit => Sys2Proof.Machine.execQueueHomePermit s
  | .queueHomePret => Sys2Proof.Machine.execQueueHomePret s
  | .permitExpiry => Sys2Proof.Machine.execPermitExpiry s
  | .qpopWRetry => Sys2Proof.Machine.execQpopWRetry s
  | .gloverMatch => Sys2Proof.Machine.execGloverMatch s
  | .gloverWindowExpiry => Sys2Proof.Machine.execGloverWindowExpiry s
  | .streamEnginePop => Sys2Proof.Machine.execStreamEnginePop s
  | .streamPopRetry => Sys2Proof.Machine.execStreamPopRetry s
  | .sfuAccept => Sys2Proof.Machine.execSfuAccept s
  | .sfuResult => Sys2Proof.Machine.execSfuResult s
  | .copyDone => Sys2Proof.Machine.execCopyDone s
  | .tileOpComplete => Sys2Proof.Machine.execTileOpComplete s
  | .fullerOpComplete => Sys2Proof.Machine.execFullerOpComplete s
  | .barrierCredit => Sys2Proof.Machine.execBarrierCredit s
  | .groupRootUpdate => Sys2Proof.Machine.execGroupRootUpdate s
  | .mcastSerialise => Sys2Proof.Machine.execMcastSerialise s
  | .mcastMemberApply => Sys2Proof.Machine.execMcastMemberApply s
  | .streamInstructionArrival => Sys2Proof.Machine.execStreamInstructionArrival s
  | .issueCountReport => Sys2Proof.Machine.execIssueCountReport s
  | .subscriptionRegistration => Sys2Proof.Machine.execSubscriptionRegistration s
  | .frequencyLockSwitch => Sys2Proof.Machine.execFrequencyLockSwitch s
  | .mailboxPut => Sys2Proof.Machine.execMailboxPut s
  | .resultCombine => Sys2Proof.Machine.execResultCombine s
  | .expsendRowRead => Sys2Proof.Machine.execExpsendRowRead s
  | .rowArrival => Sys2Proof.Machine.execRowArrival s
  | .rowQueueTimer => Sys2Proof.Machine.execRowQueueTimer s
  | .announcement => Sys2Proof.Machine.execAnnouncement s
  | .launchTaskPost => Sys2Proof.Machine.execLaunchTaskPost s
  | .dimensionRecordRead => Sys2Proof.Machine.execDimensionRecordRead s
  | .launchFenceMet => Sys2Proof.Machine.execLaunchFenceMet s
  | .launchFenceTimeout => Sys2Proof.Machine.execLaunchFenceTimeout s
  | .tailorAdmission => Sys2Proof.Machine.execTailorAdmission s
  | .tailorCancel => Sys2Proof.Machine.execTailorCancel s
  | .runFrameStart => Sys2Proof.Machine.execRunFrameStart s
  | .untimedCapExpiry => Sys2Proof.Machine.execUntimedCapExpiry s
  | .deadline => Sys2Proof.Machine.execDeadline s
  | .reservationEnd => Sys2Proof.Machine.execReservationEnd s
  | .timedWaitLapse => Sys2Proof.Machine.execTimedWaitLapse s
  | .ageingStep => Sys2Proof.Machine.execAgeingStep s
  | .idleTimeLimit => Sys2Proof.Machine.execIdleTimeLimit s
  | .correctableError => Sys2Proof.Machine.execCorrectableError s
  | .uncorrectableError => Sys2Proof.Machine.execUncorrectableError s
  | .dieLoss => Sys2Proof.Machine.execDieLoss s
  | .dieReadmission => Sys2Proof.Machine.execDieReadmission s
  | .linkPacketArrival => Sys2Proof.Machine.execLinkPacketArrival s
  | .flitCrcFailure => Sys2Proof.Machine.execFlitCrcFailure s
  | .portRetrain => Sys2Proof.Machine.execPortRetrain s
  | .widthMarker => Sys2Proof.Machine.execWidthMarker s
  | .routeWaitTimeout => Sys2Proof.Machine.execRouteWaitTimeout s
  | .hostReadTimeout => Sys2Proof.Machine.execHostReadTimeout s
  | .portPartnerSeen => Sys2Proof.Machine.execPortPartnerSeen s
  | .portDetectTimeout => Sys2Proof.Machine.execPortDetectTimeout s
  | .laneTraining => Sys2Proof.Machine.execLaneTraining s
  | .speedSettle => Sys2Proof.Machine.execSpeedSettle s
  | .widthSettle => Sys2Proof.Machine.execWidthSettle s
  | .attestation => Sys2Proof.Machine.execAttestation s
  | .moduleReset => Sys2Proof.Machine.execModuleReset s
  | .firmwareStage => Sys2Proof.Machine.execFirmwareStage s
  | .memoryStage => Sys2Proof.Machine.execMemoryStage s
  | .meshStage => Sys2Proof.Machine.execMeshStage s
  | .linksStage => Sys2Proof.Machine.execLinksStage s
  | .governorSample => Sys2Proof.Machine.execGovernorSample s
  | .regulatorSettled => Sys2Proof.Machine.execRegulatorSettled s
  | .thermalTrip => Sys2Proof.Machine.execThermalTrip s
  | .thermalRecovery => Sys2Proof.Machine.execThermalRecovery s
  | .thermalShutdown => Sys2Proof.Machine.execThermalShutdown s
  | .ingestInflate => Sys2Proof.Machine.execIngestInflate s
  | .ingestTranscode => Sys2Proof.Machine.execIngestTranscode s
  | .ingestTokenise => Sys2Proof.Machine.execIngestTokenise s
  | .ingestRowPush => Sys2Proof.Machine.execIngestRowPush s
  | .ingestPermitRetry => Sys2Proof.Machine.execIngestPermitRetry s
  | .ingestTimeout => Sys2Proof.Machine.execIngestTimeout s
  | .ingestOutputStall => Sys2Proof.Machine.execIngestOutputStall s
  | .hostPostedMessage => Sys2Proof.Machine.execHostPostedMessage s
  | .hostLaunch => Sys2Proof.Machine.execHostLaunch s
  | .hostPostedWrite => Sys2Proof.Machine.execHostPostedWrite s
  | .modctlReady => Sys2Proof.Machine.execModctlReady s
  | .diereset => Sys2Proof.Machine.execDiereset s
  | .reportDoorbell => Sys2Proof.Machine.execReportDoorbell s
  | .portstatDisable => Sys2Proof.Machine.execPortstatDisable s
  | .hostRegisterWrite => Sys2Proof.Machine.execHostRegisterWrite s
  | .copyStreamDelivery => Sys2Proof.Machine.execCopyStreamDelivery s
  | .handlerTableEntryWrite => Sys2Proof.Machine.execHandlerTableEntryWrite s
  | .translationInvalidation => Sys2Proof.Machine.execTranslationInvalidation s

end Sys2Proof.Machine
end

