-- ==== Sys2Proof/Machine/Step.lean ====
section
/-!
DEFINITION. One step of the module: what has become due, an input that is due, or the step that is picked; then time passes.
-/

namespace Sys2Proof.Machine

open Sys2Proof

/-- What follows a next state. -/
def andThen (r : Host.Outcome State Fault Refusal) (f : State → State) : Host.Outcome State Fault Refusal :=
  match r with
  | .next s => .next (f s)
  | .fault x => .fault x
  | .refused x => .refused x

/-- An event takes place, and time passes as given. -/
def runEvent (time : State → State) (i : Instr) (x : Subject) (s : State) : Host.Outcome State Fault Refusal :=
  andThen (exec i { s with subj := x, last := .none }) time

/-- The strand in slot `i` of core `c` issues; the round robin goes on after it, also where no instruction runs (R22). -/
def issue (c i : Nat) (s : State) : Host.Outcome State Fault Refusal :=
  match prepare s c i with
  | .done s' => .next (passTime (turn s' c i))
  | .run s' ins len => andThen (exec ins s') (fun t => passTime (retire s' ins len t))

/-- What is picked takes place. -/
def take (time : State → State) (c : Choice) (s : State) : Host.Outcome State Fault Refusal :=
  match c with
  | .issue c i => issue c i s
  | .event i x => runEvent time i x s

/-- One step of the module: what has become due, at which no time passes; an input that is due; else the step that is picked. -/
def step (s : State) : Host.Outcome State Fault Refusal :=
  match dueEvents s with
  | c :: _ => take still c s
  | [] =>
    match dueInput s with
    | some (i, x, s') => if isInput i then runEvent passTime i x s' else .next (passTime s')
    | none =>
      match pick s with
      | none => .next (passTime s)
      | some c => take passTime c s

/-- The physical address and the PC at which `withFetchWord` places an instruction. -/
def placePc : Nat := 0x1000

/-- The bytes of the opcode table's word as the hardware stores them: the halfwords from the most significant, each little-endian. -/
def placedBytes (nbits w : Nat) : List Byte :=
  match nbits with
  | 32 => leBytes 2 (w / 65536) ++ leBytes 2 w
  | _ => leBytes 2 w ++ leBytes 2 0

/-- The core that fetches the placed instruction next: one privileged task with the whole allotment and an unbounded budget in slot 0, its
translation in the TLB and its line in the instruction cache. -/
def placedCore (nbits w : Nat) : Core :=
  let t : Strand := { st := .ready, task := 1, pc := BitVec.ofNat 48 placePc, nS := 64, nV := 32, nK := 8, budget := BitVec.allOnes 32,
                      unb := true, priv := true }
  { slots := (Vector.replicate 4 {}).set 0 t
    tlb := [{ asid := 0, space := 4, page := 1, pages := 1, frame := 1, perm := 15 }]
    icache := [{ line := placePc / 64, bytes := placedBytes nbits w ++ List.replicate 60 0, leaseEnd := 2 ^ 64, grant := 0 }] }

/-- The module with an instruction placed where the next step fetches: every die in service, one strand on core 0 and nothing else under
way, the instruction's bytes at address 0x1000 of HBM, which its PC translates to. -/
def State.withFetchWord (s : State) (nbits w : Nat) : State :=
  writeBytes { s with
    agenda := [], nextId := Nat.max s.nextId 2, devtime := 0, cores := [(0, placedCore nbits w)], clusters := [], chans := [], ops := []
    net := [], leases := [], fills := [], linkWaits := [], permRecs := [], resvs := [], timedJobs := [], ports := [], modReady := true
    dies := [(0, { boot := 5 }), (1, { boot := 5 }), (2, { boot := 5 }), (3, { boot := 5 })] } placePc (placedBytes nbits w)

end Sys2Proof.Machine
end

