-- ==== Sys2Proof/Safety.lean ====
section
/-!
DEFINITION. What claims about the machine are stated in: when a run is safe, when an instruction's registers are at hand, the
module after an instruction that completes, and what a step leaves alone.
-/

namespace Sys2Proof.Machine

open Sys2Proof

/-! ## Safe runs -/

/-- A step that goes on: it stops with no fault and no refusal. Every trap, report and error of the spec is itself a next state. -/
def goesOn (r : Host.Outcome State Fault Refusal) : Prop := ∃ t, r = .next t

/-- The invariant of the module's data: memory is in its canonical form. -/
def State.Inv (s : State) : Prop := memWf s.mem = true

/-! ## Instructions that complete -/

/-- An instruction's registers are at hand (R96 step 4): each use lies in the allotment, no register it reads waits for a reply that
was dropped or holds an arrived fault, and no reply is outstanding to a register that it reads or writes. -/
def Ready (us : List Use) (s : State) : Prop :=
  (∀ u ∈ us, u.inAllot s.me = true) ∧
  (∀ r ∈ readsOf us, s.me.lost.contains r = false) ∧
  (∀ d ∈ s.me.faults, d.regs.any (fun r => (readsOf us).contains r) = false) ∧
  ∀ o ∈ s.ops, owes s.me.task (us.map Use.reg) o = false

/-- The module after an instruction of `len` bytes that completes and goes on after itself, its strand changed by `f`. -/
def State.done (s : State) (len : Nat) (f : Strand → Strand) : State :=
  (s.onMe (fun t => (f t).goAt ((f t).pc + BitVec.ofNat 48 len))).withLast .completed

/-- The module after a control transfer to a target that is taken, its strand changed by `f`. -/
def State.goto (s : State) (target : Nat) (f : Strand → Strand) : State :=
  (s.onMe (fun t => (f t).goAt (BitVec.ofNat 48 target))).withLast .branched

/-- The target of a relative control transfer: the PC moved by the signed offset in halfwords (R360). -/
def branchTo {n : Nat} (s : State) (off : BitVec n) : Nat := (s.me.pc + BitVec.ofInt 48 (off.toInt * 2)).toNat

/-- A control transfer's outcome is that of the stream, where the strand is a subscriber that has one (R59). -/
def agrees (s : State) (taken : Prop) (target : Nat) : Prop :=
  ∀ p, s.carried = some p → (p.taken = true ↔ taken) ∧ (taken → p.next = target)

/-- What a control transfer does whose outcome differs from the stream's: SUBERR with code DIVERGE, and nothing else (R59, R71). -/
def State.diverge (s : State) : State := takeTrap s .suberr 0x13 0 (BitVec.ofNat 64 (s.me.ichan % 256 * 256 + 5))

/-- What a register jump does whose target is no pointer to code: BOUND for another space or a bit of [59:48], else ALIGN, with TVAL the
target (R409). -/
def State.badTarget (s : State) (p : Word) : State :=
  if (p.toNat / 2 ^ 60 ≠ 0 ∧ p.toNat / 2 ^ 60 ≠ 4) ∨ p.extractLsb' 48 12 ≠ 0 then takeTrap s .bound 0x06 0 p
  else takeTrap s .align 0x04 0 p

/-- A pointer to code: space 0x0 or 0x4, bits [59:48] zero, even (R409). -/
def codePointer (p : Word) : Prop :=
  (p.toNat / 2 ^ 60 = 0 ∨ p.toNat / 2 ^ 60 = 4) ∧ p.extractLsb' 48 12 = 0 ∧ p.toNat % 2 = 0

/-- A comparison's result as a float form's: 1 or 0, and its flags. -/
def fpFlag (r : Bool × Flags) : FpOut := { bits := if r.1 then 1 else 0, flags := r.2 }

/-- The module after a form of `len` bytes that raises flags (R121): FPX where an enabled flag is raised, with TVAL those flags; otherwise
its result written by `f` and the flags and the clamp ORed into FMT. -/
def State.raised (s : State) (len : Nat) (o : FpOut) (f : Strand → Nat → Strand) : State :=
  if o.flags &&& fmtXen s.me.fmt ≠ 0 then takeTrap s .fpx 0x16 0 ((o.flags &&& fmtXen s.me.fmt).setWidth 64)
  else s.done len (fun t => (f t o.bits).raise o.flags o.sat)

/-- The module after a vector form of `len` bytes that writes vd and raises flags (R506, R121). -/
def State.raisedV (s : State) (len : Nat) (d : BitVec 5) (o : VecOut) : State :=
  s.raised len { bits := 0, flags := o.flags, sat := o.sat } (fun t _ => t.setV d.toNat o.val)

/-- A request of the running strand to the SFU may complete at its issue: no trap is enabled and nothing of the strand is pending (R273). -/
def SfuFree (s : State) : Prop := fmtXen s.me.fmt = 0 ∧ pending s = none ∧ s.cur.2 < 4

/-- What the issue of an SFU form leaves: its request, with the result and the flags, waits for the SFU of its cluster, which accepts one
at the end of the cycle; the newest operation owes the register; the strand's own registers are as they were and its PC is 4 further
(R273, R156). -/
def SfuAsked (s s' : State) (r : Reg) (o : FpOut) : Prop :=
  (s'.cluster s.myCluster).sfuWait = (s.cluster s.myCluster).sfuWait ++
    [{ op := s.nextId, core := s.cur.1, slot := s.cur.2, task := s.me.task, reg := r, val := o.bits, flags := o.flags }] ∧
  (s'.cluster s.myCluster).sfuBusy = true ∧ (s'.cluster s.myCluster).sfuq = (s.cluster s.myCluster).sfuq ∧
  (∃ q, s'.ops.getLast? = some q ∧ q.id = s.nextId ∧ q.regs = [r] ∧ q.pend = false ∧ q.task = s.me.task) ∧
  s'.me = s.me.goAt (s.me.pc + 4) ∧ s'.mem = s.mem

/-- An access of the running strand passes the checks of all its lanes, with these pieces, and finds room: no acquire holds it back, no
bank queue is full, and its core has room for the remote requests of what its L1 does not serve (R140, R156, R164). -/
def Passes (a : Acc) (lanes : List Lane) (ps : List Piece) (s : State) : Prop :=
  locateAll s a lanes = .pieces ps ∧ acquiring s = false ∧ bankFull s ps = false ∧ remoteFull s (served a s ps) = false

/-- An access passes its checks, and no watch of the strand matches it as an access of this kind (R85). -/
def AccessOk (a : Acc) (kind : Nat) (lanes : List Lane) (ps : List Piece) (s : State) : Prop :=
  Passes a lanes ps s ∧ watchHit s.me kind lanes = none

/-- Whether an access class that accepts some spaces accepts a pointer's: its tag, and in space 0x5 its peer space (Tables 7.2, 7.3, R136,
R137). -/
def Accepts (tags : List Nat) (p : Word) : Prop :=
  tagOf p ∈ tags ∧ (tagOf p = 5 → p.extractLsb' 44 4 = 3 ∨ p.extractLsb' 44 4 = 4)

/-- The fields of a pointer that Tables 7.1 and 7.2 mark zero are zero (R135). -/
def ZeroFields (p : Word) : Prop :=
  (tagOf p = 0 ∨ tagOf p = 4 ∨ tagOf p = 6 ∨ tagOf p = 8 → p.extractLsb' 48 12 = 0) ∧ (tagOf p = 1 → p.extractLsb' 18 42 = 0) ∧
  (tagOf p = 2 → p.extractLsb' 52 8 = 0 ∧ p.extractLsb' 18 30 = 0) ∧ (tagOf p = 3 → p.extractLsb' 18 29 = 0) ∧
  (tagOf p = 5 → p.extractLsb' 44 4 = 3 → p.extractLsb' 18 13 = 0)

/-- The first checks of an access of `n` bytes refuse a pointer (R135-R138): SPACE, then BOUND, then ALIGN, with TVAL the pointer; `t` is
the module with that trap taken. -/
def Refused (s t : State) (tags : List Nat) (n : Nat) (p : Word) : Prop :=
  (¬ Accepts tags p ∧ t = takeTrap s .space 0x05 0 p) ∨ (Accepts tags p ∧ ¬ ZeroFields p ∧ t = takeTrap s .bound 0x06 0 p) ∨
  (Accepts tags p ∧ ZeroFields p ∧ p.toNat % n ≠ 0 ∧ t = takeTrap s .align 0x04 0 p)

/-- The first checks refuse the lowest lane of an access that fails any of its checks (R138, R419, R481). -/
def LanesRefused (s t : State) (a : Acc) (tags : List Nat) (lanes : List Lane) : Prop :=
  ∃ pre l post, lanes = pre ++ l :: post ∧ (∀ x ∈ pre, ∃ k, locate s a x.ptr x.n = .key k ∧ onLostDie s k = false) ∧
    Refused s t tags l.n l.ptr

/-- No UFNCFG of an update function is under way, so that each unit and core knows the same function (R501). -/
def Steady (s : State) (f : Nat) : Prop := ∀ o ∈ s.ops, ∀ w b, o.kind ≠ .ufncfg f w b

/-- What the issue of an instruction of `len` bytes that starts operation `o` leaves: it has completed; the operation is the newest one,
counted in its counter; the strand's PC is past the instruction and its registers, and memory, are as they were. -/
def Issued (s t : State) (len : Nat) (o : Op) : Prop :=
  t.last = .completed ∧ t.ops = s.ops ++ [o] ∧ t.nextId = s.nextId + 1 ∧ t.mem = s.mem ∧
    t.me = (s.me.rise? o.ctr).goAt (s.me.pc + BitVec.ofNat 48 len)

/-- An operation as its access asked for it, without what the queues of scratchpad banks have noted of its pieces (R140). -/
def Op.asked (o : Op) : Op := { o with pieces := o.pieces.map (fun p => { p with queued := false, fault := none }) }

/-- What the issue of an access of `len` bytes leaves: as `Issued`, but that pieces to scratchpad banks may stand in their queues. -/
def IssuedAccess (s t : State) (len : Nat) (o : Op) : Prop :=
  t.last = .completed ∧ t.ops.map Op.asked = (s.ops ++ [o]).map Op.asked ∧ t.nextId = s.nextId + 1 ∧ t.mem = s.mem ∧
    t.me = (s.me.rise? o.ctr).goAt (s.me.pc + BitVec.ofNat 48 len) ∧
    ((∀ p ∈ o.pieces, isScratch p.key = false) → t.ops = s.ops ++ [o])

/-- An operation that an event names, with the operation numbers distinct; its task stands in slot `i` of core `c`, from which it was
issued. -/
def OpOf (s : State) (id c i : Nat) (o : Op) : Prop :=
  findOp s id = some o ∧ o.id = id ∧ s.taskSlot o.task = some (c, i) ∧ c = o.core ∧ i < 4

/-- The bytes of memory after `n` bytes from a key up have been written where the enables have their bit: those bytes hold the data, every
other byte reads as before. -/
def Wrote (s t : State) (k n data en : Nat) : Prop :=
  ∀ j, readByte t j =
    if k ≤ j ∧ j < k + n ∧ en / 2 ^ (j - k) % 2 = 1 then BitVec.ofNat 8 (data / 256 ^ (j - k)) else readByte s j

/-- The operation at which the running strand's instruction waits has been answered with these values and no fault. -/
def Answered (s : State) (o : Op) (l : List Nat) : Prop :=
  pending s = some o ∧ o.fault = none ∧ (∀ p ∈ o.pieces, p.fault = none) ∧ o.answer = some l

/-- What the first execution of an access that waits leaves: as `WaitsFor`, but that pieces to scratchpad banks may stand in their
queues. -/
def WaitsForAccess (s t : State) (o : Op) : Prop :=
  t.last = .waiting ∧ t.ops.map Op.asked = (s.ops ++ [o]).map Op.asked ∧ t.nextId = s.nextId + 1 ∧ t.mem = s.mem ∧
    t.me = s.me.waitIn .stalled (.op s.nextId)

/-- What the first execution of an instruction that waits leaves: its strand waits at it, STALLED or BLOCKED, for the operation that it
has started, which is the newest one; memory and the strand's registers are as they were. -/
def WaitsFor (s t : State) (st : SlotState) (o : Op) : Prop :=
  t.last = .waiting ∧ t.ops = s.ops ++ [o] ∧ t.nextId = s.nextId + 1 ∧ t.mem = s.mem ∧ t.me = s.me.waitIn st (.op s.nextId)

/-- A home reads a descriptor for operation `o`: no reduction line is held anywhere, the line is not poisoned, its descriptor `d` is
accepted for the size code, and no monitor belongs to the operation (R192, R193). -/
def HomeReads (s : State) (o : Op) (line : Nat) (code : Option Nat) (d : Desc) : Prop :=
  s.redLines = [] ∧ poisoned s line 64 = false ∧ descAt s line = d ∧ descBad d code = false ∧ findOp s s.subj.a = some o ∧
    ∀ m ∈ s.monitors, m.op ≠ o.id

/-- A home serves operation `o` on the descriptor in a line, and no permit is recorded anywhere (R192-R194). -/
def HomeServes (s : State) (o : Op) (line : Nat) (code : Option Nat) (d : Desc) : Prop := HomeReads s o line code d ∧ s.permRecs = []

/-- The module as a home that serves operation `o` on a line translates an element's pointer `p` (R146, R154). -/
def homeView (s : State) (o : Op) (line : Nat) (p : Word) : State := touchPtr (homeTake (touchKey s o.ctx line) (line / 64)) o.ctx p

/-- Operation `id` has been answered with these values. -/
def Answers (t : State) (id : Nat) (l : List Nat) : Prop := ∃ q, findOp t id = some q ∧ q.answer = some l ∧ q.phase = 4

/-- The bytes of HEAD, COUNT and GRANTED in a descriptor line (Table 9.5). -/
def descWords (head count granted : Nat) : Nat := head % 2 ^ 32 + count % 2 ^ 32 * 2 ^ 32 + granted % 2 ^ 32 * 2 ^ 64

/-- A form that enters the tile queue does so now: the strand is in no lockstep group, the queue has room, no map of the cluster is still
to be reloaded, and no other strand waits for the queue (R211, R243). -/
def TileFree (s : State) : Prop :=
  s.me.pub = false ∧ s.me.sub = false ∧ (s.cluster s.myCluster).reloads = [] ∧ (s.cluster s.myCluster).tileWant = [] ∧
    (s.cluster s.myCluster).tileq.length < 32 ∧ s.cur.2 < 4

/-- What a form that enters the tile queue leaves: its entry stands last in the cluster's queue and counts in tl, and the queue serves the
next core first (R211). -/
def TileEntered (s t : State) (e : TileOp) : Prop :=
  t.last = .completed ∧ (t.cluster s.myCluster).tileq = (s.cluster s.myCluster).tileq ++ [e] ∧
    (t.cluster s.myCluster).tilePtr = (s.cur.1 + 1) % 16 ∧ t.nextId = s.nextId + 1 ∧
    t.mem = s.mem ∧ t.me = (s.me.rise .tl).goAt (s.me.pc + 4)

/-- An engine's pointer passes its checks: tag, address and alignment (R209, R219, R236). -/
def EnginePtr (maxTag align : Nat) (p : Word) : Prop := tagOf p ≤ maxTag ∧ ptrCheck .engine p = none ∧ p.toNat % align = 0

/-- A multiply's operands and shape pass the checks of R215. -/
def MulOk (s : State) (ac osA osB : Nat) : Prop :=
  claimed s osA = true ∧ claimed s osB = true ∧ claimed s (32 + ac) = true ∧
  ((s.me.e 3).toNat = 3 → osA % 2 = 0 ∧ osB % 2 = 0 ∧ claimed s (osA + 1) = true ∧ claimed s (osB + 1) = true) ∧
  (s.me.e 3).toNat ≤ 3 ∧ 1 ≤ (s.me.e 0).toNat ∧ (s.me.e 0).toNat ≤ 64 ∧ 1 ≤ (s.me.e 1).toNat ∧ (s.me.e 1).toNat ≤ 64 ∧
  1 ≤ (s.me.e 2).toNat ∧ (s.me.e 2).toNat ≤ kMax (s.me.e 3).toNat s.me.fmt ∧ (s.cluster s.myCluster).marks = []

/-- The rows of a merge or an unmerge pass the checks of R236, their pages translated (R154), with these pieces. -/
def RowsOk (s : State) (p q v : Word) (n m : Nat) (src dst : List Seg) : Prop :=
  EnginePtr 4 16 p ∧ EnginePtr 4 16 q ∧ rowBad v = false ∧ rowsOverlap p q v n m = false ∧
  pageMissing s (rowPages p (rowStride v) (rowBytes v) n ++ rowPages q (rowStride v) (rowBytes v) m) = none ∧
  rowSegs s s.actor 1 p (rowStride v) (rowBytes v) (List.range n) = .ok src ∧
  rowSegs s s.actor 2 q (rowStride v) (rowBytes v) (List.range m) = .ok dst

/-- A map of the running context that a form may read: in the state that it needs, with no fault mark (Table 11.3, R229). -/
def MapIn (s : State) (id : Nat) (st : MapState) : Prop := (myMap s id).st = st ∧ (myMap s id).mark = none

/-- A form may give an identifier a new map: it holds a physical entry, or one of the 32 is free (R228). -/
def EntryFree (s : State) (id : Nat) : Prop := holdsEntry (myMap s id) = true ∨ entriesUsed (s.cluster s.myCluster) < 32

/-- The module as the strand in slot `i` of core `c` begins to be saved to image `n` of its context: its port is detached, a SUBSCRIBE of it
on its way comes to nothing, the image is taken (R69, R282, Table 2.1). -/
def State.savingTo (s : State) (c i n : Nat) (why : SaveWhy) : State :=
  let u := s.slot c i
  ((detachPorts { s with ops := s.ops.filter (fun o => !subscribing u.task o) } u.task).onCtx u.ctx (fun x =>
    { x with images := n :: x.images })).setSlot c i { u with st := .saving, why := why, saveTo := some n, savePos := 0, walk := none }

/-! ## What a step leaves alone -/

/-- Nothing outside the running strand's slot changes: memory, every other slot and core, clusters, dies, channels, the network and
every record of the module stand as they were. The last result is the model's own field; a trap may answer a PREEMPT that waits for
the strand, so answers of operations are left out; a strand that begins to be saved takes an image of its context, and its port is
detached (R69, R282). -/
def OnlyStrand (s t : State) : Prop :=
  t = { s with cores := t.cores, ops := t.ops, last := t.last, ctxs := t.ctxs, chans := t.chans } ∧
  (t.ctxs = s.ctxs ∧ t.chans = s.chans ∧ t.ops.map (fun o => { o with answer := none }) = s.ops.map (fun o => { o with answer := none }) ∨
    ∃ n, t.me.st = .saving ∧ t.me.saveTo = some n ∧ t.ops = s.ops.filter (fun o => !subscribing s.me.task o) ∧
      t.ctxs = (s.onCtx s.me.ctx (fun x => { x with images := n :: x.images })).ctxs ∧ t.chans = (detachPorts s s.me.task).chans) ∧
  (∀ c, c ≠ s.cur.1 → t.core c = s.core c) ∧
  t.core s.cur.1 = (s.core s.cur.1).setSlot s.cur.2 t.me

/-- What no instruction of the frames changes in a strand: registers but those listed, the message window and MSGID, xi and e0-e3, the
control fields of FMT, the allotment, the privilege, CAUSE, EPC and TVAL, the watches, the context, ASID, channel and task, the budget. -/
def SameBut (l : List Reg) (t u : Strand) : Prop :=
  (∀ i, .s i ∉ l → u.s i = t.s i) ∧ (∀ i, .v i ∉ l → u.v i = t.v i) ∧ (∀ i, .k i ∉ l → u.k i = t.k i) ∧
  u.win = t.win ∧ u.msgid = t.msgid ∧ u.xi = t.xi ∧ u.ereg = t.ereg ∧ u.fmt &&& ~~~fmtSticky = t.fmt &&& ~~~fmtSticky ∧
  u.nS = t.nS ∧ u.nV = t.nV ∧ u.nK = t.nK ∧ u.priv = t.priv ∧ u.cause = t.cause ∧ u.epc = t.epc ∧ u.tval = t.tval ∧
  u.watch = t.watch ∧ u.ctx = t.ctx ∧ u.asid = t.asid ∧ u.chan = t.chan ∧ u.task = t.task ∧ u.budget = t.budget ∧ u.unb = t.unb ∧
  u.pub = t.pub ∧ u.sub = t.sub

/-- What a register form leaves alone as well: stream registers, buffered sends, arrival records, the counters and the release horizon,
SPREG's discard bit, and the sticky flags unless the form raises them. -/
def SameRest (flags : Bool) (t u : Strand) : Prop :=
  u.strm = t.strm ∧ u.sends = t.sends ∧ u.arrRec = t.arrRec ∧ u.cLd = t.cLd ∧ u.cSt = t.cSt ∧ u.cCp = t.cCp ∧ u.cTl = t.cTl ∧
  u.hor = t.hor ∧ u.spdisc = t.spdisc ∧ (flags = false → u.fmt = t.fmt)

/-- Forms whose only effect is on the running strand: they write registers, transfer control, wait or stop, or raise a trap. -/
def registerForm : Instr → Bool
  | .add .. | .sub .. | .mul .. | .mulh .. | .mulhn .. | .div .. | .divn .. | .rem .. | .remn .. | .and .. | .or .. | .xor .. | .shl ..
  | .shr .. | .sra .. | .slt .. | .sltn .. | .min .. | .minn .. | .max .. | .maxn .. | .clz .. | .popc .. | .brev .. | .sext .. | .zext ..
  | .mov .. | .movWindow .. | .addi .. | .andi .. | .ori .. | .xori .. | .shli .. | .shri .. | .srai .. | .slti .. | .sel .. | .li ..
  | .liW .. | .liD .. | .lea .. | .addp .. | .pmake .. | .ptag .. | .msgid .. | .getfmt .. | .csrr .. | .perfr .. | .repl .. => true
  | .ffma .. | .fadd .. | .fsub .. | .fmul .. | .fmin .. | .fmax .. | .fcmpEq .. | .fcmpLt .. | .fcmpLe .. | .fcmpUn .. | .fcvt .. => true
  | .beq .. | .bne .. | .blt .. | .bge .. | .bltn .. | .bgen .. | .loop .. | .jmp .. | .jal .. | .jr .. | .jalr .. | .brk .. | .wait ..
  | .ecall .. | .trap .. | .nop | .rdv .. | .idle .. => true
  | .vadd .. | .vsub .. | .vadds .. | .vsubs .. | .vmul .. | .vmulh .. | .vfma .. | .vmin .. | .vmax .. | .vabs .. | .vneg .. | .vand ..
  | .vor .. | .vxor .. | .vnot .. | .vshl .. | .vshr .. | .vsra .. | .vsel .. | .vdot .. | .vshuf .. | .vbcast .. | .vmovs .. | .vins ..
  | .vcvt .. | .vred .. | .vscan .. | .vmatch .. | .vcompress .. | .vexpand .. | .vclass .. | .vcmpEq .. | .vcmpNe .. | .vcmpLt ..
  | .vcmpLe .. | .vcmpGt .. | .vcmpGe .. | .vcmpUn .. | .taccv .. => true
  | .kand .. | .kor .. | .kxor .. | .knot .. | .kmov .. | .kmovScalar .. | .kpop .. | .kfirst .. => true
  | .compactAdd .. | .compactSub .. | .compactAnd .. | .compactOr .. | .compactXor .. | .compactMov .. | .compactShl .. | .compactShr ..
  | .compactSra .. | .compactAddi .. | .compactShli .. | .compactShri .. | .compactBeq .. | .compactBne .. | .compactVaddF32 ..
  | .compactVmulF32 .. | .compactVfmaF32 .. | .compactVaddI32 .. | .compactVsubF32 .. | .compactSlt .. | .compactLi .. | .compactJrS0
  | .compactJrS1 | .compactJrS2 | .compactJrS3 | .compactJrS4 | .compactJrS5 | .compactJrS6 | .compactJrS7 | .compactNop
  | .compactWait | .compactBrk => true
  | _ => false

/-- Register forms that may raise the sticky flags FLG and SAT (R116, R121). -/
def flagForm : Instr → Bool
  | .ffma .. | .fadd .. | .fsub .. | .fmul .. | .fmin .. | .fmax .. | .fcmpEq .. | .fcmpLt .. | .fcmpLe .. | .fcmpUn .. | .fcvt ..
  | .vadd .. | .vsub .. | .vadds .. | .vsubs .. | .vmul .. | .vfma .. | .vmin .. | .vmax .. | .vabs .. | .vneg .. | .vdot .. | .vcvt ..
  | .vred .. | .vscan .. | .vcmpEq .. | .vcmpNe .. | .vcmpLt .. | .vcmpLe .. | .vcmpGt .. | .vcmpGe .. | .vcmpUn ..
  | .compactVaddF32 .. | .compactVmulF32 .. | .compactVfmaF32 .. | .compactVsubF32 .. => true
  | _ => false

/-- Forms that start an operation in the memory system, in the cluster's units or at a group's root, or put a send into the strand's
buffer: stores and updates of memory are made by the events that follow. -/
def issueForm : Instr → Bool
  | .ld .. | .ldv .. | .ldg .. | .pref .. | .st .. | .stv .. | .sts .. | .compactLd .. | .compactSt .. | .compactLdv .. | .compactStv ..
  | .fence .. => true
  | .amoAdd .. | .amoAnd .. | .amoOr .. | .amoXor .. | .amoMin .. | .amoMax .. | .amoSwap .. | .cas .. | .ufn .. | .red .. | .waitc ..
  | .bara .. | .barw .. | .barx .. => true
  | .qinit .. | .qpush .. | .qpop .. | .qpopW .. | .qsteal .. | .qavail .. | .permit .. | .pret .. => true
  | .send .. | .sendt .. | .sendr .. | .mcast .. | .task .. | .launch .. | .htset .. | .hmask .. | .join .. | .leave .. | .gsize .. => true
  | .claim .. | .release .. | .tload .. | .tmma .. | .tzero .. | .tstore .. | .tscale .. | .tmatch .. | .tmerge .. | .tmsize ..
  | .tunmerge .. | .tmapcomp .. | .tmapfree .. | .tmapsave .. => true
  | .mboxk .. | .mbput .. | .mbtake .. | .expsend .. | .copy .. | .copym .. | .tlbinv .. | .pwrreq .. => true
  | .fdiv .. | .fsqrt .. | .vrcp .. | .vrsq .. | .vexp2 .. | .vlog2 .. | .vtanh .. | .vdiv .. => true
  | _ => false

/-- The destination registers of the register forms and the issue forms, as far as they write them as they issue or complete; a QPOP.w
writes those that it noted as it issued. -/
def destOf (s : State) : Instr → List Reg
  | .add d _ _ x _ | .sub d _ _ x _ | .mul d _ _ x _ | .mulh d _ _ x _ | .mulhn d _ _ x _ | .div d _ _ x _ | .divn d _ _ x _
  | .rem d _ _ x _ | .remn d _ _ x _ | .and d _ _ x _ | .or d _ _ x _ | .xor d _ _ x _ | .shl d _ _ x _ | .shr d _ _ x _
  | .sra d _ _ x _ | .slt d _ _ x _ | .sltn d _ _ x _ | .min d _ _ x _ | .minn d _ _ x _ | .max d _ _ x _ | .maxn d _ _ x _
  | .lea d _ _ x _ _ | .addp d _ _ x _ | .repl d _ _ x _ | .sel d _ _ x _ _ | .ffma d _ _ x _ _ _ | .fadd d _ _ x _ _
  | .fsub d _ _ x _ _ | .fmul d _ _ x _ _ | .fmin d _ _ x _ _ | .fmax d _ _ x _ _ | .fcmpEq d _ _ x _ _ | .fcmpLt d _ _ x _ _
  | .fcmpLe d _ _ x _ _ | .fcmpUn d _ _ x _ _ | .fcvt d _ _ x _ _ | .fdiv d _ _ x _ _ | .amoAdd d _ _ x _ _ | .amoAnd d _ _ x _ _
  | .amoOr d _ _ x _ _ | .amoXor d _ _ x _ _ | .amoMin d _ _ x _ _ | .amoMax d _ _ x _ _ | .amoSwap d _ _ x _ _ | .cas d _ _ x _ _
  | .ufn d _ _ x _ | .waitc d _ _ x _ _ | .barx d _ _ x _ | .qinit d _ _ x _ | .qpush d _ _ x _ _ | .permit d _ _ x _ =>
    [.s (s.me.reg d.toNat x)]
  | .clz d _ x _ | .popc d _ x _ | .brev d _ x _ | .sext d _ x _ _ | .zext d _ x _ _ | .mov d _ x _ | .movWindow d _ x | .pmake d _ _ x _
  | .ptag d _ x _ | .msgid d x | .getfmt d x | .perfr d _ x | .jalr d _ x _ | .idle d _ x _ | .fsqrt d _ x _ _ | .qavail d _ x _ =>
    [.s (s.me.reg d.toNat x)]
  | .addi d _ _ | .andi d _ _ | .ori d _ _ | .xori d _ _ | .shli d _ _ | .shri d _ _ | .srai d _ _ | .slti d _ _ | .li d _ | .liW d
  | .liD d | .csrr d _ | .loop d _ | .jal d _ | .vmovs d _ _ _ | .kpop d _ | .kfirst d _ | .ld d _ _ _ _ _ | .gsize d _
  | .pwrreq d _ _ => [.s d.toNat]
  | .compactAdd d _ _ | .compactSub d _ _ | .compactAnd d _ _ | .compactOr d _ _ | .compactXor d _ _ | .compactMov d _
  | .compactShl d _ _ | .compactShr d _ _ | .compactSra d _ _ | .compactAddi d _ _ | .compactShli d _ _ | .compactShri d _ _
  | .compactSlt d _ _ | .compactLi d _ | .compactLd d _ _ => [.s d.toNat]
  | .vadd d _ _ _ _ | .vsub d _ _ _ _ | .vadds d _ _ _ _ | .vsubs d _ _ _ _ | .vmul d _ _ _ _ | .vmulh d _ _ _ _ | .vfma d _ _ _ _
  | .vmin d _ _ _ _ | .vmax d _ _ _ _ | .vabs d _ _ _ | .vneg d _ _ _ | .vand d _ _ _ _ | .vor d _ _ _ _ | .vxor d _ _ _ _
  | .vnot d _ _ _ | .vshl d _ _ _ _ | .vshr d _ _ _ _ | .vsra d _ _ _ _ | .vsel d _ _ _ _ | .vdot d _ _ _ _ | .vshuf d _ _ _ _
  | .vbcast d _ _ _ | .vins d _ _ _ | .vcvt d _ _ _ _ | .vred d _ _ _ _ | .vscan d _ _ _ _ | .vexpand d _ _ _ _ | .vclass d _ _ _
  | .vrcp d _ _ _ | .vrsq d _ _ _ | .vexp2 d _ _ _ | .vlog2 d _ _ _ | .vtanh d _ _ _ | .vdiv d _ _ _ _ | .ldv d _ _ _ _ _
  | .ldg d _ _ _ _ => [.v d.toNat]
  | .compactVaddF32 d _ _ | .compactVmulF32 d _ _ | .compactVfmaF32 d _ _ | .compactVaddI32 d _ _ | .compactVsubF32 d _ _
  | .compactLdv d _ _ => [.v d.toNat]
  | .vcompress d _ b _ _ => [.v d.toNat, .v b.toNat]
  | .vmatch d _ _ k _ _ => [.v d.toNat, .k k.toNat]
  | .taccv d _ _ => [.v d.toNat, .v (d.toNat + 1), .v (d.toNat + 2), .v (d.toNat + 3)]
  | .vcmpEq d _ _ _ _ | .vcmpNe d _ _ _ _ | .vcmpLt d _ _ _ _ | .vcmpLe d _ _ _ _ | .vcmpGt d _ _ _ _ | .vcmpGe d _ _ _ _
  | .vcmpUn d _ _ _ _ | .kand d _ _ | .kor d _ _ | .kxor d _ _ | .knot d _ | .kmov d _ | .kmovScalar d _ => [.k d.toNat]
  | .qpopW _ _ _ _ _ => match pending s with | some o => o.members.map Reg.s | none => []
  | _ => []

/-! ## The step that runs an instruction -/

/-- The module as the strand in slot `i` of core `c` comes to issue: it is passed over no more (R523). -/
def State.turnTo (s : State) (c i : Nat) : State :=
  { s.onCore c (fun k => { k with yielded := k.yielded.filter (fun p => p.1 != i) }) with cur := (c, i), last := .none }

/-- The running strand READY. -/
def State.readied (s : State) : State := s.onMe (fun t => { t with st := .ready })

end Sys2Proof.Machine
end

