-- ==== Sys2Proof/Certificates/Slice0/Obligations.lean ====
section
/-!
DEFINITION. The statements about the machine, for the provers. Each says in its docstring which rules of the spec it rests on; what a
statement takes from the model's own choices is named there with its log entry.
-/

open Sys2Proof Sys2Proof.Machine

/-! ## Integer forms -/

/-- The three-register integer forms (R348, R354, R387, R426, R439, R441, R464, R476, R478, R483, R521): with its registers at hand each
completes, writes sd with the function of sa and sb that the spec gives, and leaves everything else alone but the PC. Register fields may
be relative, and s0 takes no write (R74, R75).
The two-register integer forms and MOV (R365, R370, R437, R447, R475, R524): with its registers at hand each completes and writes sd
with the spec's function of sa. -/
def Obligations.IntegerFormResult : Prop :=
  (∀ p ∈ ([(.add, fun a b => a + b), (.sub, fun a b => a - b), (.mul, fun a b => a * b),
       (.mulh, fun a b => BitVec.ofInt 64 (a.toInt * b.toInt / 2 ^ 64)),
       (.mulhn, fun a b => BitVec.ofNat 64 (a.toNat * b.toNat / 2 ^ 64)),
       (.div, fun a b => if b = 0 then BitVec.ofInt 64 (-1) else BitVec.ofInt 64 (a.toInt.tdiv b.toInt)),
       (.divn, fun a b => if b = 0 then BitVec.ofInt 64 (-1) else BitVec.ofNat 64 (a.toNat / b.toNat)),
       (.rem, fun a b => if b = 0 then a else BitVec.ofInt 64 (a.toInt - a.toInt.tdiv b.toInt * b.toInt)),
       (.remn, fun a b => if b = 0 then a else BitVec.ofNat 64 (a.toNat - a.toNat / b.toNat * b.toNat)),
       (.and, fun a b => a &&& b), (.or, fun a b => a ||| b), (.xor, fun a b => a ^^^ b),
       (.shl, fun a b => BitVec.ofNat 64 (a.toNat * 2 ^ (b.toNat % 64))),
       (.shr, fun a b => BitVec.ofNat 64 (a.toNat / 2 ^ (b.toNat % 64))),
       (.sra, fun a b => BitVec.ofInt 64 (a.toInt / 2 ^ (b.toNat % 64))),
       (.slt, fun a b => if a.toInt < b.toInt then 1 else 0), (.sltn, fun a b => if a.toNat < b.toNat then 1 else 0),
       (.min, fun a b => if b.toInt < a.toInt then b else a), (.minn, fun a b => if b.toNat < a.toNat then b else a),
       (.max, fun a b => if a.toInt < b.toInt then b else a), (.maxn, fun a b => if a.toNat < b.toNat then b else a)] :
       List ((BitVec 5 → BitVec 5 → BitVec 5 → Bool → Bool → Instr) × (Word → Word → Word))),
     ∀ (d a b : BitVec 5) (x y : Bool) (s : State), Ready [rdS s.me a y, rdS s.me b false, wrS s.me d x] s →
       exec (p.1 d a b x y) s = .next (s.done 4 (fun t => t.ws d x (p.2 (t.rs a y) (t.rs b false))))) ∧
  (∀ p ∈ ([(.clz, fun a => if a = 0 then 64 else BitVec.ofNat 64 (63 - Nat.log2 a.toNat)),
       (.popc, fun a => BitVec.ofNat 64 ((List.range 64).countP (fun i => a.getLsbD i))),
       (.brev, fun a => BitVec.ofBoolListLE ((List.range 64).map (fun i => a.getLsbD (63 - i)))), (.mov, fun a => a),
       (fun d a x y => .sext d a x y 0, fun a => (a.setWidth 8).signExtend 64),
       (fun d a x y => .sext d a x y 1, fun a => (a.setWidth 16).signExtend 64),
       (fun d a x y => .sext d a x y 2, fun a => (a.setWidth 32).signExtend 64),
       (fun d a x y => .zext d a x y 0, fun a => (a.setWidth 8).setWidth 64),
       (fun d a x y => .zext d a x y 1, fun a => (a.setWidth 16).setWidth 64),
       (fun d a x y => .zext d a x y 2, fun a => (a.setWidth 32).setWidth 64)] :
       List ((BitVec 5 → BitVec 5 → Bool → Bool → Instr) × (Word → Word))),
     ∀ (d a : BitVec 5) (x y : Bool) (s : State), Ready [rdS s.me a y, wrS s.me d x] s →
       exec (p.1 d a x y) s = .next (s.done 4 (fun t => t.ws d x (p.2 (t.rs a y)))))

/-- The immediate integer forms (R349, R355, R422, R442, R477, R478, R522), whose immediates are sign-extended but for a shift's: with
its registers at hand each completes and writes sd.
SEL (R470), MOV of a window register (R437, R74) and MOV of the next 8 bytes of a stream register that has them staged (R437, R149,
R364): KIND 1, whose bytes come from a queue.
The compact integer forms (R91): each does what its 32-bit form does on s0-s7, and goes on 2 bytes further. -/
def Obligations.ImmediateAndMoveResult : Prop :=
  ((∀ p ∈ ([(.addi, fun a i => a + i), (.andi, fun a i => a &&& i), (.ori, fun a i => a ||| i), (.xori, fun a i => a ^^^ i),
       (.slti, fun a i => if a.toInt < i.toInt then 1 else 0)] :
       List ((BitVec 5 → BitVec 5 → BitVec 12 → Instr) × (Word → Word → Word))),
     ∀ (d a : BitVec 5) (i : BitVec 12) (s : State), Ready [rdS s.me a false, wrS s.me d false] s →
       exec (p.1 d a i) s = .next (s.done 4 (fun t => t.ws d false (p.2 (t.rs a false) (i.signExtend 64))))) ∧
   (∀ p ∈ ([(.shli, fun a n => a <<< n), (.shri, fun a n => a >>> n), (.srai, fun a n => a.sshiftRight n)] :
       List ((BitVec 5 → BitVec 5 → BitVec 6 → Instr) × (Word → Nat → Word))),
     ∀ (d a : BitVec 5) (i : BitVec 6) (s : State), Ready [rdS s.me a false, wrS s.me d false] s →
       exec (p.1 d a i) s = .next (s.done 4 (fun t => t.ws d false (p.2 (t.rs a false) i.toNat)))) ∧
   (∀ (d : BitVec 5) (i : BitVec 18) (s : State), Ready [wrS s.me d false] s →
     exec (.li d i) s = .next (s.done 4 (fun t => t.ws d false (i.signExtend 64))) ∧
     exec (.liW d) s = .next (s.done 4 (fun t => t.ws d false ((t.e 0).signExtend 64))) ∧
     exec (.liD d) s = .next (s.done 4 (fun t => t.ws d false ((t.e 1).append (t.e 0)))))) ∧
  ((∀ (d a b c : BitVec 5) (x y : Bool) (s : State), Ready [rdS s.me a y, rdS s.me b false, rdS s.me c false, wrS s.me d x] s →
     exec (.sel d a b x y c) s =
       .next (s.done 4 (fun t => t.ws d x (if t.rs c false ≠ 0 then t.rs a y else t.rs b false)))) ∧
   (∀ (d : BitVec 5) (n : BitVec 3) (x : Bool) (s : State), Ready [wrS s.me d x] s →
     exec (.movWindow d n x) s = .next (s.done 4 (fun t => t.ws d x (t.win.get n.toFin)))) ∧
   (∀ (d : BitVec 5) (n : BitVec 3) (x : Bool) (s : State), Ready [wrS s.me d x] s →
     (s.me.q n.toNat).kind = 1 → 8 ≤ (s.me.q n.toNat).stage.length → s.me.faults = [] → (s.me.q n.toNat).msgs = [] →
     exec (.movStream d n x) s = .next (s.done 4 (fun t =>
       (t.setQ n.toNat { t.q n.toNat with
         stage := (t.q n.toNat).stage.drop 8, rptr := (t.q n.toNat).rptr + 8 }).ws d x
         (BitVec.ofNat 64 (leNat ((t.q n.toNat).stage.take 8))))))) ∧
  ((∀ p ∈ ([(.compactAdd, fun a b => a + b), (.compactSub, fun a b => a - b), (.compactAnd, fun a b => a &&& b),
       (.compactOr, fun a b => a ||| b), (.compactXor, fun a b => a ^^^ b),
       (.compactShl, fun a b => a <<< (b.toNat % 64)), (.compactShr, fun a b => a >>> (b.toNat % 64)),
       (.compactSra, fun a b => a.sshiftRight (b.toNat % 64)), (.compactSlt, fun a b => if a.toInt < b.toInt then 1 else 0)] :
       List ((BitVec 3 → BitVec 3 → BitVec 3 → Instr) × (Word → Word → Word))),
     ∀ (d a b : BitVec 3) (s : State),
       Ready [rdS s.me (a.setWidth 5) false, rdS s.me (b.setWidth 5) false, wrS s.me (d.setWidth 5) false] s →
       exec (p.1 d a b) s = .next (s.done 2 (fun t => t.setS d.toNat (p.2 (t.s a.toNat) (t.s b.toNat))))) ∧
   (∀ (d a : BitVec 3) (i : BitVec 4) (s : State), Ready [rdS s.me (a.setWidth 5) false, wrS s.me (d.setWidth 5) false] s →
     exec (.compactMov d a) s = .next (s.done 2 (fun t => t.setS d.toNat (t.s a.toNat))) ∧
     exec (.compactAddi d a i) s = .next (s.done 2 (fun t => t.setS d.toNat (t.s a.toNat + i.signExtend 64))) ∧
     exec (.compactShli d a i) s = .next (s.done 2 (fun t => t.setS d.toNat (t.s a.toNat <<< i.toNat))) ∧
     exec (.compactShri d a i) s = .next (s.done 2 (fun t => t.setS d.toNat (t.s a.toNat >>> i.toNat)))) ∧
   (∀ (d : BitVec 3) (i : BitVec 7) (s : State), Ready [wrS s.me (d.setWidth 5) false] s →
     exec (.compactLi d i) s = .next (s.done 2 (fun t => t.setS d.toNat (i.signExtend 64)))))

/-! ## Addresses, index and extension registers, FMT -/

/-- The address forms (R350, R421, R446, R451), the index register (R351, R474), GETFMT (R399) and MSGID (R438): with its registers at
hand each completes with its result. ADDP and PMAKE keep or set the tag in bits [63:60] and work on the low 60 bits.
EXT and EXT.hi (R89, R390) and SETFMT (R473, R81): outside a stream they set e0-e3 and FMT, with FMT's reserved bits zero and ILLOP
for an NXA or NXB of 3; in a subscriber the extension registers and the control fields are those that the stream carries, and SAT and
FLG are the subscriber's own (R58). -/
def Obligations.AddressAndFormatResult : Prop :=
  ((∀ (d a b : BitVec 5) (x y : Bool) (sh : BitVec 2) (s : State),
     Ready [rdS s.me a y, rdS s.me b false, wrS s.me d x] s →
     exec (.lea d a b x y sh) s = .next (s.done 4 (fun t => t.ws d x (t.rs a y + t.rs b false <<< sh.toNat))) ∧
     exec (.addp d a b x y) s = .next (s.done 4 (fun t => t.ws d x
       (((t.rs a y).extractLsb' 60 4).append ((t.rs a y).setWidth 60 + (t.rs b false).setWidth 60))))) ∧
   (∀ (d a : BitVec 5) (tag : BitVec 4) (x y : Bool) (s : State), Ready [rdS s.me a y, wrS s.me d x] s →
     exec (.pmake d a tag x y) s = .next (s.done 4 (fun t => t.ws d x (tag.append ((t.rs a y).setWidth 60)))) ∧
     exec (.ptag d a x y) s = .next (s.done 4 (fun t => t.ws d x (((t.rs a y).extractLsb' 60 4).setWidth 64)))) ∧
   (∀ (a : BitVec 5) (y : Bool) (i : BitVec 10) (s : State), (Ready [rdS s.me a y] s →
     exec (.setxi a y) s = .next (s.done 4 (fun t => { t with xi := (t.rs a y).setWidth 16 }))) ∧
     exec (.addxi i) s = .next (s.done 4 (fun t => { t with xi := t.xi + i.signExtend 16 }))) ∧
   (∀ (d : BitVec 5) (x : Bool) (s : State), Ready [wrS s.me d x] s →
     exec (.getfmt d x) s = .next (s.done 4 (fun t => t.ws d x (t.fmt.setWidth 64))) ∧
     exec (.msgid d x) s = .next (s.done 4 (fun t => t.ws d x t.msgid)))) ∧
  ((∀ (n : BitVec 2) (i : BitVec 26) (h : BitVec 6) (s : State), s.carried = none →
     exec (.ext n i) s = .next (s.done 4 (fun t => { t with ereg := t.ereg.setIfInBounds n.toNat (i.setWidth 32) })) ∧
     exec (.extHi n h) s = .next (s.done 4 (fun t =>
       { t with ereg := t.ereg.setIfInBounds n.toNat (h.append ((t.e n.toNat).setWidth 26)) }))) ∧
   (∀ (n : BitVec 2) (i : BitVec 26) (h : BitVec 6) (s : State) (p : Pub), s.carried = some p →
     exec (.ext n i) s = .next (s.done 4 (fun t => { t with ereg := p.ereg, fmt := carryFmt p.fmt t.fmt })) ∧
     exec (.extHi n h) s = .next (s.done 4 (fun t => { t with ereg := p.ereg, fmt := carryFmt p.fmt t.fmt }))) ∧
   (∀ (a : BitVec 5) (y : Bool) (s : State), Ready [rdS s.me a y] s → s.carried = none →
     exec (.setfmt a y) s =
       if (s.me.rs a y).extractLsb' 4 2 = 3 ∨ (s.me.rs a y).extractLsb' 6 2 = 3 then
         .next (takeTrap s .illop 0x01 0 (instrWord (.setfmt a y)))
       else .next (s.done 4 (fun t => { t with fmt := (t.rs a y).setWidth 27 &&& 0x7FF01F3 }))) ∧
   (∀ (a : BitVec 5) (y : Bool) (s : State) (p : Pub), Ready [rdS s.me a y] s → s.carried = some p →
     exec (.setfmt a y) s = .next (s.done 4 (fun t =>
       { t with fmt := (p.fmt &&& ~~~0x3F0000) ||| ((t.rs a y).setWidth 27 &&& 0x3F0000), ereg := p.ereg }))))

/-! ## Control transfers, waits and the traps that instructions raise -/

/-- The conditional branches (R360, R361) and their compact forms (R91): with its registers at hand, and agreeing with the stream where
the strand is a subscriber (R59), a branch goes to PC + 2 x offset where its condition holds, and on otherwise; nothing else changes.
The jumps (R408, R409) and compact JR (R91): with its registers at hand, a target whose tag is 0x0 or 0x4, whose bits [59:48] are
zero and which is even, and agreeing with the stream in a subscriber, a jump goes to its target, and JAL and JALR write the address of
the next instruction. -/
def Obligations.ControlTransferResult : Prop :=
  ((∀ p ∈ ([(.beq, fun a b => a == b), (.bne, fun a b => a != b), (.blt, fun a b => decide (a.toInt < b.toInt)),
       (.bge, fun a b => decide (b.toInt ≤ a.toInt)), (.bltn, fun a b => decide (a.toNat < b.toNat)),
       (.bgen, fun a b => decide (b.toNat ≤ a.toNat))] :
       List ((BitVec 5 → BitVec 5 → BitVec 12 → Instr) × (Word → Word → Bool))),
     ∀ (a b : BitVec 5) (o : BitVec 12) (s : State), Ready [rdS s.me a false, rdS s.me b false] s →
       agrees s (p.2 (s.me.rs a false) (s.me.rs b false)) (branchTo s o) →
       exec (p.1 a b o) s = .next (if p.2 (s.me.rs a false) (s.me.rs b false) then s.goto (branchTo s o) id else s.done 4 id)) ∧
   (∀ p ∈ ([(.compactBeq, fun a => a == 0), (.compactBne, fun a => a != 0)] :
       List ((BitVec 3 → BitVec 7 → Instr) × (Word → Bool))),
     ∀ (a : BitVec 3) (o : BitVec 7) (s : State), Ready [rdS s.me (a.setWidth 5) false, rdS s.me 0 false] s →
       agrees s (p.2 (s.me.s a.toNat)) (branchTo s o) →
       exec (p.1 a o) s = .next (if p.2 (s.me.s a.toNat) then s.goto (branchTo s o) id else s.done 2 id)) ∧
   (∀ (a : BitVec 5) (o : BitVec 12) (s : State), Ready [rwS s.me a false] s →
     agrees s (a ≠ 0 ∧ s.me.rs a false ≠ 1) (branchTo s o) →
     exec (.loop a o) s = .next
       (if a ≠ 0 ∧ s.me.rs a false ≠ 1 then s.goto (branchTo s o) (fun t => t.ws a false (t.rs a false - 1))
        else s.done 4 (fun t => t.ws a false (t.rs a false - 1))))) ∧
  ((∀ (d : BitVec 5) (o24 : BitVec 24) (o19 : BitVec 19) (s : State),
     (agrees s True (branchTo s o24) → exec (.jmp o24) s = .next (s.goto (branchTo s o24) id)) ∧
     (Ready [wrS s.me d false] s → agrees s True (branchTo s o19) →
       exec (.jal d o19) s = .next (s.goto (branchTo s o19) (fun t => t.ws d false ((t.pc + 4).setWidth 64))))) ∧
   (∀ (d a : BitVec 5) (x y : Bool) (s : State), codePointer (s.me.rs a y) → agrees s True ((s.me.rs a y).toNat % 2 ^ 48) →
     (Ready [rdS s.me a y] s → exec (.jr a y) s = .next (s.goto ((s.me.rs a y).toNat % 2 ^ 48) id)) ∧
     (Ready [rdS s.me a y, wrS s.me d x] s →
       exec (.jalr d a x y) s =
         .next (s.goto ((s.me.rs a y).toNat % 2 ^ 48) (fun t => t.ws d x ((t.pc + 4).setWidth 64))))) ∧
   (∀ p ∈ ([(.compactJrS0, 0), (.compactJrS1, 1), (.compactJrS2, 2), (.compactJrS3, 3), (.compactJrS4, 4), (.compactJrS5, 5),
       (.compactJrS6, 6), (.compactJrS7, 7)] : List (Instr × BitVec 5)),
     ∀ s : State, Ready [rdS s.me p.2 false] s → codePointer (s.me.s p.2.toNat) →
       agrees s True ((s.me.s p.2.toNat).toNat % 2 ^ 48) →
       exec p.1 s = .next (s.goto ((s.me.s p.2.toNat).toNat % 2 ^ 48) id)))

/-- Where control transfers trap. In a subscriber whose outcome differs from the stream's, each of them, with its registers at hand and,
for a register jump, a target that is a pointer to code, takes SUBERR with code DIVERGE: it writes no link and counts no LOOP register
down (R59, R71, R347). A register jump to another space or with a bit of [59:48] set takes BOUND, and one to an odd address ALIGN, with
TVAL the target and no link written (R409).
The instructions whose effect is a trap or a stop: ECALL traps with cause ECALL and TVAL the code (R388); TRAP with the cause that sa
names and TVAL sb, but with BOUND for DIELOST, DEADLINE, FENCED and a number that is no cause (R492); BRK stops its strand, to be saved
to the lowest free image of its context with the PC after it, its port detached, and traps with BRK where no image is free (R69, R282,
R366).
Taking a trap (R25, R38, R275, R287): the strand enters TRAPPING and keeps, for its report, the cause and subcode, EPC at its PC, TVAL
and the instant; a pre-emption that was pending is answered 0; registers, memory, and everything outside the strand stay as they were. -/
def Obligations.TrapResult : Prop :=
  ((∀ (o24 : BitVec 24) (d : BitVec 5) (o19 : BitVec 19) (s : State),
     (¬ agrees s True (branchTo s o24) → exec (.jmp o24) s = .next s.diverge) ∧
     (Ready [wrS s.me d false] s → ¬ agrees s True (branchTo s o19) → exec (.jal d o19) s = .next s.diverge)) ∧
   (∀ p ∈ ([(.beq, fun a b => a == b), (.bne, fun a b => a != b), (.blt, fun a b => decide (a.toInt < b.toInt)),
       (.bge, fun a b => decide (b.toInt ≤ a.toInt)), (.bltn, fun a b => decide (a.toNat < b.toNat)),
       (.bgen, fun a b => decide (b.toNat ≤ a.toNat))] :
       List ((BitVec 5 → BitVec 5 → BitVec 12 → Instr) × (Word → Word → Bool))),
     ∀ (a b : BitVec 5) (o : BitVec 12) (s : State), Ready [rdS s.me a false, rdS s.me b false] s →
       ¬ agrees s (p.2 (s.me.rs a false) (s.me.rs b false)) (branchTo s o) → exec (p.1 a b o) s = .next s.diverge) ∧
   (∀ p ∈ ([(.compactBeq, fun a => a == 0), (.compactBne, fun a => a != 0)] :
       List ((BitVec 3 → BitVec 7 → Instr) × (Word → Bool))),
     ∀ (a : BitVec 3) (o : BitVec 7) (s : State), Ready [rdS s.me (a.setWidth 5) false, rdS s.me 0 false] s →
       ¬ agrees s (p.2 (s.me.s a.toNat)) (branchTo s o) → exec (p.1 a o) s = .next s.diverge) ∧
   (∀ (a : BitVec 5) (o : BitVec 12) (s : State), Ready [rwS s.me a false] s →
     ¬ agrees s (a ≠ 0 ∧ s.me.rs a false ≠ 1) (branchTo s o) → exec (.loop a o) s = .next s.diverge) ∧
   (∀ (d a : BitVec 5) (x y : Bool) (s : State),
     (Ready [rdS s.me a y] s →
       (codePointer (s.me.rs a y) → ¬ agrees s True ((s.me.rs a y).toNat % 2 ^ 48) → exec (.jr a y) s = .next s.diverge) ∧
       (¬ codePointer (s.me.rs a y) → exec (.jr a y) s = .next (s.badTarget (s.me.rs a y)))) ∧
     (Ready [rdS s.me a y, wrS s.me d x] s →
       (codePointer (s.me.rs a y) → ¬ agrees s True ((s.me.rs a y).toNat % 2 ^ 48) → exec (.jalr d a x y) s = .next s.diverge) ∧
       (¬ codePointer (s.me.rs a y) → exec (.jalr d a x y) s = .next (s.badTarget (s.me.rs a y))))) ∧
   (∀ p ∈ ([(.compactJrS0, 0), (.compactJrS1, 1), (.compactJrS2, 2), (.compactJrS3, 3), (.compactJrS4, 4), (.compactJrS5, 5),
       (.compactJrS6, 6), (.compactJrS7, 7)] : List (Instr × BitVec 5)),
     ∀ s : State, Ready [rdS s.me p.2 false] s →
       (codePointer (s.me.s p.2.toNat) → ¬ agrees s True ((s.me.s p.2.toNat).toNat % 2 ^ 48) → exec p.1 s = .next s.diverge) ∧
       (¬ codePointer (s.me.s p.2.toNat) → exec p.1 s = .next (s.badTarget (s.me.s p.2.toNat))))) ∧
  ((∀ (c : BitVec 10) (s : State), exec (.ecall c) s = .next (takeTrap s .ecall 0x17 0 (c.setWidth 64))) ∧
   (∀ (a b : BitVec 5) (y : Bool) (s : State) (c : Cause), Ready [rdS s.me a y, rdS s.me b false] s →
     s.me.rs a y = BitVec.ofNat 64 (causeCode c) → c ≠ .dielost → c ≠ .deadline → c ≠ .fenced →
     exec (.trap a b y) s = .next (takeTrap s c (causeCode c) 0 (s.me.rs b false))) ∧
   (∀ (a b : BitVec 5) (y : Bool) (s : State), Ready [rdS s.me a y, rdS s.me b false] s →
     (∀ c, s.me.rs a y = BitVec.ofNat 64 (causeCode c) → c = .dielost ∨ c = .deadline ∨ c = .fenced) →
     exec (.trap a b y) s = .next (takeTrap s .bound 0x06 0 (s.me.rs a y))) ∧
   (∀ p ∈ ([(fun (_ : BitVec 10) => Instr.compactBrk, fun (_ : BitVec 10) => (0 : BitVec 10), 2), (Instr.brk, id, 4)] :
       List ((BitVec 10 → Instr) × (BitVec 10 → BitVec 10) × Nat)),
     ∀ (c : BitVec 10) (s : State),
     (∀ n, freeImage s s.me.ctx = some n → s.cur.2 < 4 →
       ∃ t, exec (p.1 c) s = .next t ∧ t.last = .completed ∧ t.mem = s.mem ∧ t.core s.cur.1 = (s.core s.cur.1).setSlot s.cur.2 t.me ∧
         (t.ctx s.me.ctx).images = n :: (s.ctx s.me.ctx).images ∧ t.chans = (detachPorts s s.me.task).chans ∧
         t.me = ({ s.me with
           st := .saving, why := .brk (p.2.1 c).toNat s.me.pc.toNat s.devtime, saveTo := some n, savePos := 0, walk := none }
           : Strand).goAt (s.me.pc + BitVec.ofNat 48 p.2.2)) ∧
     (freeImage s s.me.ctx = none → exec (p.1 c) s = .next (takeTrap s .brk 0x14 0 ((p.2.1 c).setWidth 64))))) ∧
  (∀ (s : State) (c : Cause) (code sub : Nat) (tval : Word), s.cur.2 < 4 →
     (takeTrap s c code sub tval).me.st = .trapping ∧
     (takeTrap s c code sub tval).me.trap = some { cause := c, code := code, sub := sub, async := false, epc := s.me.pc.toNat,
                                                    tval := tval, time := s.devtime } ∧
     (takeTrap s c code sub tval).me.pc = s.me.pc ∧
     (takeTrap s c code sub tval).me.preempt = none ∧
     (∀ id, s.me.preempt = some id →
       (takeTrap s c code sub tval).ops = s.ops.map (fun o => if o.id = id then { o with answer := some [0] } else o)) ∧
     SameBut [] s.me (takeTrap s c code sub tval).me ∧ SameRest false s.me (takeTrap s c code sub tval).me ∧
     OnlyStrand s (takeTrap s c code sub tval))

/-- NOP (R440), YIELD (R523) and their compact forms (R91): NOP changes nothing but the PC; YIELD also lets the strand be passed over
until the strands of its core that are READY have issued, and in a subscriber does nothing.
WAIT (R518, R78, R170) and its compact form (R91): where each counter whose immediate is not 63 is at most it, and no arrived fault
belongs to a counter that it places a condition on, WAIT completes, and the floor rises to the reports that it has seen; where a counter
is above its immediate, the strand stalls at the WAIT. -/
def Obligations.NopYieldAndWaitResult : Prop :=
  (∀ s : State,
     exec .nop s = .next (s.done 4 id) ∧ exec .compactNop s = .next (s.done 2 id) ∧
     (s.me.sub = true → exec .yield s = .next (s.done 4 id) ∧ exec .compactYield s = .next (s.done 2 id)) ∧
     (s.me.sub = false →
       ∃ t, t = s.onCore s.cur.1 (fun k => { k with yielded := k.yielded.filter (fun p => p.1 != s.cur.2) ++
           [(s.cur.2, (List.range 4).filter (fun i => i != s.cur.2 && (k.slot i).st == .ready))] }) ∧
         exec .yield s = .next (t.done 4 id) ∧ exec .compactYield s = .next (t.done 2 id))) ∧
  ((∀ (l st cp tl : BitVec 6) (s : State),
     (l = 63 ∨ s.me.cLd ≤ l.toNat) → (st = 63 ∨ s.me.cSt ≤ st.toNat) → (cp = 63 ∨ s.me.cCp ≤ cp.toNat) →
     (tl = 63 ∨ s.me.cTl ≤ tl.toNat) → s.me.faults = [] →
     exec (.wait l st cp tl) s = .next (s.done 4 (fun t => { t with
       flr := max t.flr (max (if cp ≠ 63 then t.repCp else 0) (if tl ≠ 63 then t.repTl else 0)) }))) ∧
   (∀ s : State, s.me.cLd = 0 → s.me.cSt = 0 → s.me.cCp = 0 → s.me.cTl = 0 → s.me.faults = [] →
     exec .compactWait s = .next (s.done 2 (fun t => { t with flr := max t.flr (max t.repCp t.repTl) }))) ∧
   (∀ (l st cp tl : BitVec 6) (s : State), l ≠ 63 → l.toNat < s.me.cLd →
     exec (.wait l st cp tl) s =
       .next ((s.onMe (fun t => { t with st := .stalled, wait := .retry })).withLast .waiting)))

/-! ## Scalar floats -/

/-- The scalar float forms (R391-R394, R397, R398, R121): with its registers at hand a form computes one result, rounded once, with the
flags that it raises; where a raised flag has its bit of FMT.XEN set it traps with FPX, TVAL holding those flags and sd unwritten, and
otherwise it writes the result and ORs the flags into FMT. The operations are those of the model's Float file; R120's rounding is the
subject of `RoundingIsCorrect`. -/
def Obligations.FloatFormResult : Prop :=
  (∀ p ∈ ([(.fadd, fun t f a b => fpAdd (fmt2 t) (fmtRm f) (fpOf (fmt2 t) a.toNat) (fpOf (fmt2 t) b.toNat)),
      (.fsub, fun t f a b => fpAdd (fmt2 t) (fmtRm f) (fpOf (fmt2 t) a.toNat) (fpNeg (fpOf (fmt2 t) b.toNat))),
      (.fmul, fun t f a b => fpMul (fmt2 t) (fmtRm f) (fpOf (fmt2 t) a.toNat) (fpOf (fmt2 t) b.toNat)),
      (.fmin, fun t _ a b => fpMinMax (fmt2 t) false a.toNat b.toNat),
      (.fmax, fun t _ a b => fpMinMax (fmt2 t) true a.toNat b.toNat),
      (.fcmpEq, fun t _ a b => fpFlag (fpCmp .eq (fpOf (fmt2 t) a.toNat) (fpOf (fmt2 t) b.toNat))),
      (.fcmpLt, fun t _ a b => fpFlag (fpCmp .lt (fpOf (fmt2 t) a.toNat) (fpOf (fmt2 t) b.toNat))),
      (.fcmpLe, fun t _ a b => fpFlag (fpCmp .le (fpOf (fmt2 t) a.toNat) (fpOf (fmt2 t) b.toNat))),
      (.fcmpUn, fun t _ a b => fpFlag (fpCmp .un (fpOf (fmt2 t) a.toNat) (fpOf (fmt2 t) b.toNat)))] :
      List ((BitVec 5 → BitVec 5 → BitVec 5 → Bool → Bool → BitVec 2 → Instr) ×
        (BitVec 2 → BitVec 27 → Word → Word → FpOut))),
    ∀ (d a b : BitVec 5) (x y : Bool) (t : BitVec 2) (s : State), t ≠ 3 →
      Ready [rdS s.me a y, rdS s.me b false, wrS s.me d x] s →
      exec (p.1 d a b x y t) s = .next (s.raised 4 (p.2 t s.me.fmt (s.me.rs a y) (s.me.rs b false)) (fun u v => u.ws d x (BitVec.ofNat 64 v)))) ∧
  (∀ (d a b c : BitVec 5) (x y : Bool) (t : BitVec 2) (s : State), t ≠ 3 →
    Ready [rdS s.me a y, rdS s.me b false, rdS s.me c false, wrS s.me d x] s →
    exec (.ffma d a b x y c t) s = .next (s.raised 4 (fpFma (fmt2 t) (fmtRm s.me.fmt) (fpOf (fmt2 t) (s.me.rs a y).toNat)
      (fpOf (fmt2 t) (s.me.rs b false).toNat) (fpOf (fmt2 t) (s.me.rs c false).toNat)) (fun u v => u.ws d x (BitVec.ofNat 64 v)))) ∧
  (∀ (d a c : BitVec 5) (x y : Bool) (t : BitVec 2) (s : State), (Instr.fcvt d a c x y t).wf = true →
    Ready [rdS s.me a y, wrS s.me d x] s →
    exec (.fcvt d a c x y t) s =
      .next (s.raised 4 (fcvtOut (fpCtl s.me) c.toNat t (s.me.rs a y)) (fun u v => u.ws d x (BitVec.ofNat 64 v))))

/-- Rounding (R120): a magnitude that is not a multiple of the unit is rounded to one of its two neighbours: towards zero under RTZ, away
from zero by its sign under RDN and RUP, to the nearer one under RNE and to the even one of two equally near; an exact multiple is kept,
and only an inexact result is reported as such. -/
def Obligations.RoundingIsCorrect : Prop :=
  ∀ (rm : Rm) (neg : Bool) (m : Nat) (e q : Int), e < q →
    let n := (roundAt rm neg m e false q).1
    let unit := 2 ^ (q - e).toNat
    ((roundAt rm neg m e false q).2 = false ↔ n * unit = m) ∧
    (m < n * unit + unit ∧ n * unit < m + unit) ∧
    (rm = .rtz → n * unit ≤ m) ∧
    (rm = .rdn → (neg = true → m ≤ n * unit) ∧ (neg = false → n * unit ≤ m)) ∧
    (rm = .rup → (neg = true → n * unit ≤ m) ∧ (neg = false → m ≤ n * unit)) ∧
    (rm = .rne → 2 * (n * unit) ≤ 2 * m + unit ∧ 2 * m ≤ 2 * (n * unit) + unit ∧
      (2 * m = 2 * (n * unit) + unit ∨ 2 * (n * unit) = 2 * m + unit → n % 2 = 0))

/-- FDIV and FSQRT (R395, R273), which the cluster's SFU performs: with its registers at hand and nothing of the strand pending, the form
completes with no trap enabled; its request, with its result and flags, waits for the SFU, and sd is owed. At the end of a core cycle
SFU_ACCEPT takes the waiting request of the first core at or after the pointer into the queue of 32, or none where it is full; SFU_RESULT
writes the oldest result to its register, ORs its flags into FMT.FLG and frees the register. That a request waits for the end of its cycle
while its instruction has completed is the model's choice (log 96).
The vector forms that the cluster's SFU performs (R512, R273): with its registers at hand and nothing of the strand pending, each
completes with no trap enabled, and its request, which writes the whole of vd when the result returns, waits for the SFU to accept it
(log 96). -/
def Obligations.SfuFormResult : Prop :=
  ((∀ (d a b : BitVec 5) (x y : Bool) (t : BitVec 2) (s : State), t ≠ 3 →
     Ready [rdS s.me a y, rdS s.me b false, wrS s.me d x] s → SfuFree s →
     ∃ s', exec (.fdiv d a b x y t) s = .next s' ∧ s'.last = .completed ∧ SfuAsked s s' (.s (s.me.reg d.toNat x))
       (fpDiv (fmt2 t) (fmtRm s.me.fmt) (fpOf (fmt2 t) (s.me.rs a y).toNat) (fpOf (fmt2 t) (s.me.rs b false).toNat))) ∧
   (∀ (d a : BitVec 5) (x y : Bool) (t : BitVec 2) (s : State), t ≠ 3 →
     Ready [rdS s.me a y, wrS s.me d x] s → SfuFree s →
     ∃ s', exec (.fsqrt d a x y t) s = .next s' ∧ s'.last = .completed ∧ SfuAsked s s' (.s (s.me.reg d.toNat x))
       (fpSqrt (fmt2 t) (fmtRm s.me.fmt) (fpOf (fmt2 t) (s.me.rs a y).toNat))) ∧
   (∀ (s : State) (r : SfuReq), (s.cluster s.subj.a).sfuBusy = false → (s.cluster s.subj.a).sfuq.length < 32 →
     sfuNext (s.cluster s.subj.a) = some r →
     ∃ s', exec .sfuAccept s = .next s' ∧ (s'.cluster s.subj.a).sfuq = (s.cluster s.subj.a).sfuq ++ [r] ∧
       (s'.cluster s.subj.a).sfuBusy = true ∧
       (s'.cluster s.subj.a).sfuWait = (s.cluster s.subj.a).sfuWait.filter (fun z => z.op != r.op) ∧
       (s'.cluster s.subj.a).sfuPtr = (r.core + 1) % 16) ∧
   (∀ s : State, 32 ≤ (s.cluster s.subj.a).sfuq.length →
     ∃ s', exec .sfuAccept s = .next s' ∧ (s'.cluster s.subj.a).sfuq = (s.cluster s.subj.a).sfuq ∧
       (s'.cluster s.subj.a).sfuWait = (s.cluster s.subj.a).sfuWait) ∧
   (∀ (s : State) (r : SfuReq) (rest : List SfuReq) (o : Op) (c i : Nat), (s.cluster s.subj.a).sfuq = r :: rest →
     findOp s r.op = some o → o.pend = false → s.taskSlot r.task = some (c, i) → i < 4 →
     ∃ s', exec .sfuResult s = .next s' ∧ (s'.cluster s.subj.a).sfuq = rest ∧ findOp s' r.op = none ∧
       s'.slot c i = ((s.slot c i).setReg r.reg r.val).raise r.flags false)) ∧
  ((∀ p ∈ ([(.vrcp, laneRcp), (.vrsq, laneRsq), (.vexp2, laneExp2), (.vlog2, laneLog2), (.vtanh, laneTanh)] :
       List ((BitVec 5 → BitVec 5 → BitVec 3 → BitVec 4 → Instr) × LaneFn)),
     ∀ (d a : BitVec 5) (k : BitVec 3) (t : BitVec 4) (s : State), Ready [rdV a, rdK k, rwV d] s → SfuFree s →
       let o := vec3 p.2 (fpCtl s.me) t.toNat (s.me.k k.toNat) (s.me.v a.toNat) (s.me.v 0) (s.me.v d.toNat)
       ∃ s', exec (p.1 d a k t) s = .next s' ∧ s'.last = .completed ∧
         SfuAsked s s' (.v d.toNat) { bits := o.val.toNat, flags := o.flags }) ∧
   (∀ (d a b : BitVec 5) (k : BitVec 3) (t : BitVec 4) (s : State), Ready [rdV a, rdV b, rdK k, rwV d] s → SfuFree s →
     let o := vec3 laneDiv (fpCtl s.me) t.toNat (s.me.k k.toNat) (s.me.v a.toNat) (s.me.v b.toNat) (s.me.v d.toNat)
     ∃ s', exec (.vdiv d a b k t) s = .next s' ∧ s'.last = .completed ∧
       SfuAsked s s' (.v d.toNat) { bits := o.val.toNat, flags := o.flags }))

/-! ## Vectors and masks -/

/-- The mask forms (R410, R411): with its registers at hand each completes with its result; k0 reads all ones and takes no write.
The vector forms with other operands (R507, R510, R514-R516): VSEL, VBCAST, VINS, VMOVS of an element and of 16 staged bytes of a
stream register of KIND 1, VMATCH, which also writes its mask, VCOMPRESS, which writes its records to vb, and VEXPAND, which traps with
METABAD on a malformed record; both sparse forms trap with BOUND on an e0 that they do not accept. -/
def Obligations.MaskAndMoveResult : Prop :=
  (∀ (d a b : BitVec 3) (e c : BitVec 5) (s : State),
     (∀ p ∈ ([(.kand, fun u v => u &&& v), (.kor, fun u v => u ||| v), (.kxor, fun u v => u ^^^ v)] :
         List ((BitVec 3 → BitVec 3 → BitVec 3 → Instr) × (BitVec 16 → BitVec 16 → BitVec 16))),
       Ready [rdK a, rdK b, wrK d] s →
       exec (p.1 d a b) s = .next (s.done 4 (fun t => t.setK d.toNat (p.2 (t.k a.toNat) (t.k b.toNat))))) ∧
     (Ready [rdK a, wrK d] s →
       exec (.knot d a) s = .next (s.done 4 (fun t => t.setK d.toNat (~~~ t.k a.toNat))) ∧
       exec (.kmov d a) s = .next (s.done 4 (fun t => t.setK d.toNat (t.k a.toNat)))) ∧
     (Ready [rdS s.me c false, wrK d] s →
       exec (.kmovScalar d c) s = .next (s.done 4 (fun t => t.setK d.toNat ((t.rs c false).setWidth 16)))) ∧
     (Ready [rdK a, wrS s.me e false] s →
       exec (.kpop e a) s = .next (s.done 4 (fun t => t.ws e false
         (BitVec.ofNat 64 ((List.range 16).countP (fun i => (t.k a.toNat).getLsbD i))))) ∧
       exec (.kfirst e a) s = .next (s.done 4 (fun t => t.ws e false
         (BitVec.ofNat 64 (((List.range 16).find? (fun i => (t.k a.toNat).getLsbD i)).getD 16)))))) ∧
  ((∀ (d a b : BitVec 5) (k : BitVec 3) (t : BitVec 4) (s : State),
     (Ready [rdV a, rdV b, rdK k, wrV d] s → exec (.vsel d a b k t) s =
       .next (s.raisedV 4 d (vecSel t.toNat (s.me.k k.toNat) (s.me.v a.toNat) (s.me.v b.toNat)))) ∧
     (Ready [rdS s.me a false, rdK k, rwV d] s → exec (.vbcast d a k t) s =
       .next (s.raisedV 4 d (vecBcast t.toNat (s.me.k k.toNat) (s.me.rs a false) (s.me.v d.toNat))))) ∧
   (∀ (d a : BitVec 5) (l t : BitVec 4) (s : State),
     (Ready [rdS s.me a false, rwV d] s → exec (.vins d a l t) s =
       .next (s.done 4 (fun u => u.setV d.toNat (vecIns t.toNat l.toNat (u.rs a false) (u.v d.toNat))))) ∧
     (Ready [rdV a, wrS s.me d false] s → exec (.vmovs d a l t) s =
       .next (s.done 4 (fun u => u.ws d false (if t.toNat < 4
         then BitVec.ofInt 64 (intOf (intTy t.toNat) (lane (elemBytes t.toNat) (u.v a.toNat) l.toNat))
         else BitVec.ofNat 64 (lane (elemBytes t.toNat) (u.v a.toNat) l.toNat)))))) ∧
   (∀ (d : BitVec 5) (n : BitVec 3) (s : State), Ready [wrV d] s →
     (s.me.q n.toNat).kind = 1 → 16 ≤ (s.me.q n.toNat).stage.length → s.me.faults = [] → (s.me.q n.toNat).msgs = [] →
     exec (.vmovsStream d n) s = .next (s.done 4 (fun t =>
       (t.setQ n.toNat { t.q n.toNat with
         stage := (t.q n.toNat).stage.drop 16, rptr := (t.q n.toNat).rptr + 16 }).setV d.toNat
         (BitVec.ofNat 128 (leNat ((t.q n.toNat).stage.take 16)))))) ∧
   (∀ (d a b : BitVec 5) (k : BitVec 3) (p w : BitVec 2) (s : State), Ready [rdV a, rdV b, rwK k, wrV d] s →
     exec (.vmatch d a b k p w) s =
       let r := vecMatch (2 ^ w.toNat) p.toNat (s.me.k k.toNat) (s.me.v a.toNat) (s.me.v b.toNat)
       .next (s.done 4 (fun t => (t.setV d.toNat r.1).setK k.toNat r.2))) ∧
   (∀ (d a b : BitVec 5) (k : BitVec 3) (t : BitVec 4) (s : State), Ready [rdV a, wrV b, rdK k, wrV d] s →
     exec (.vcompress d a b k t) s =
       let r := vecCompress t.toNat (s.me.e 0).toNat (s.me.k k.toNat) (s.me.v a.toNat)
       .next (if sparseOk (s.me.e 0).toNat (16 / elemBytes t.toNat) then s.done 4 (fun u => (u.setV d.toNat r.1).setV b.toNat r.2)
         else takeTrap s .bound 0x06 0 ((s.me.e 0).setWidth 64))) ∧
   (∀ (d a b : BitVec 5) (k : BitVec 3) (t : BitVec 4) (s : State), Ready [rdV a, rdV b, rdK k, rwV d] s →
     exec (.vexpand d a b k t) s =
       .next (if sparseOk (s.me.e 0).toNat (16 / elemBytes t.toNat) then
         (match vecExpand t.toNat (s.me.e 0).toNat (s.me.k k.toNat) (s.me.v a.toNat) (s.me.v b.toNat) (s.me.v d.toNat) with
           | .error x => takeTrap s .metabad 0x0C 0 (BitVec.ofNat 64 x)
           | .ok v => s.done 4 (fun u => u.setV d.toNat v))
         else takeTrap s .bound 0x06 0 ((s.me.e 0).setWidth 64))))

/-- The masked vector forms of one or two sources and their compact equivalents (R505-R509, R511, R513, R517, R91): with its registers at
hand a form writes its result register and ORs its flags into FMT, or traps with FPX where an enabled flag is raised (R506, R121). The
values are the spec's functions of the whole registers: `LaneWiseElements` says what they do element by element. -/
def Obligations.VectorFormResult : Prop :=
  (∀ p ∈ ([(.vadd, laneAdd), (.vsub, laneSub), (.vadds, laneAdds), (.vsubs, laneSubs), (.vmul, laneMul), (.vmulh, laneMulh),
      (.vfma, laneFma), (.vmin, laneMinMax false), (.vmax, laneMinMax true), (.vand, laneAnd), (.vor, laneOr), (.vxor, laneXor),
      (.vshl, laneShl), (.vshr, laneShr), (.vsra, laneSra)] :
      List ((BitVec 5 → BitVec 5 → BitVec 5 → BitVec 3 → BitVec 4 → Instr) × LaneFn)),
    ∀ (d a b : BitVec 5) (k : BitVec 3) (t : BitVec 4) (s : State), (p.1 d a b k t).wf = true → Ready [rdV a, rdV b, rdK k, rwV d] s →
      exec (p.1 d a b k t) s = .next (s.raisedV 4 d
        (vec3 p.2 (fpCtl s.me) t.toNat (s.me.k k.toNat) (s.me.v a.toNat) (s.me.v b.toNat) (s.me.v d.toNat)))) ∧
  (∀ p ∈ ([(.vabs, laneAbs), (.vneg, laneNeg), (.vnot, laneNot), (.vclass, laneClass)] :
      List ((BitVec 5 → BitVec 5 → BitVec 3 → BitVec 4 → Instr) × LaneFn)),
    ∀ (d a : BitVec 5) (k : BitVec 3) (t : BitVec 4) (s : State), (p.1 d a k t).wf = true → Ready [rdV a, rdK k, rwV d] s →
      exec (p.1 d a k t) s = .next (s.raisedV 4 d
        (vec3 p.2 (fpCtl s.me) t.toNat (s.me.k k.toNat) (s.me.v a.toNat) (s.me.v 0) (s.me.v d.toNat)))) ∧
  (∀ p ∈ ([(.compactVaddF32, laneAdd, 8), (.compactVmulF32, laneMul, 8), (.compactVfmaF32, laneFma, 8), (.compactVaddI32, laneAdd, 2),
      (.compactVsubF32, laneSub, 8)] : List ((BitVec 3 → BitVec 3 → BitVec 3 → Instr) × LaneFn × Nat)),
    ∀ (d a b : BitVec 3) (s : State),
      Ready [rdV (a.setWidth 5), rdV (b.setWidth 5), rdK 0, rwV (d.setWidth 5)] s →
      exec (p.1 d a b) s = .next (s.raisedV 2 (d.setWidth 5)
        (vec3 p.2.1 (fpCtl s.me) p.2.2 0xFFFF (s.me.v a.toNat) (s.me.v b.toNat) (s.me.v d.toNat)))) ∧
  (∀ (d a b : BitVec 5) (k : BitVec 3) (t : BitVec 4) (s : State), Ready [rdV a, rdV b, rdK k, rwV d] s →
    exec (.vdot d a b k t) s = .next (s.raisedV 4 d
      (vecDot (fpCtl s.me) t.toNat (s.me.k k.toNat) (s.me.v a.toNat) (s.me.v b.toNat) (s.me.v d.toNat))) ∧
    exec (.vshuf d a b k t) s = .next (s.raisedV 4 d
      (vecShuf t.toNat (s.me.k k.toNat) (s.me.v a.toNat) (s.me.v b.toNat) (s.me.v d.toNat)))) ∧
  (∀ (d a o : BitVec 5) (k : BitVec 3) (c t : BitVec 4) (s : State), Ready [rdV a, rdK k, rwV d] s →
    exec (.vcvt d a c k t) s = .next (s.raisedV 4 d
      (vecCvt (fpCtl s.me) t.toNat c.toNat (s.me.k k.toNat) (s.me.v a.toNat) (s.me.v d.toNat))) ∧
    exec (.vscan d a o k t) s = .next (s.raisedV 4 d
      (vecScan (fpCtl s.me) t.toNat o.toNat (s.me.k k.toNat) (s.me.v a.toNat) (s.me.v d.toNat)))) ∧
  (∀ (d a o : BitVec 5) (k : BitVec 3) (t : BitVec 4) (s : State), Ready [rdV a, rdK k, wrV d] s →
    exec (.vred d a o k t) s = .next (s.raisedV 4 d (vecRed (fpCtl s.me) t.toNat o.toNat (s.me.k k.toNat) (s.me.v a.toNat)))) ∧
  (∀ p ∈ ([(.vcmpEq, .eq), (.vcmpNe, .ne), (.vcmpLt, .lt), (.vcmpLe, .le), (.vcmpGt, .gt), (.vcmpGe, .ge), (.vcmpUn, .un)] :
      List ((BitVec 3 → BitVec 5 → BitVec 5 → BitVec 3 → BitVec 4 → Instr) × Pred)),
    ∀ (d : BitVec 3) (a b : BitVec 5) (k : BitVec 3) (t : BitVec 4) (s : State), Ready [rdV a, rdV b, rdK k, wrK d] s →
      exec (p.1 d a b k t) s =
        let r := vecCmp p.2 t.toNat (s.me.k k.toNat) (s.me.v a.toNat) (s.me.v b.toNat)
        .next (s.raised 4 { bits := 0, flags := r.2 } (fun u _ => u.setK d.toNat r.1)))

/-- Element by element (R505, R507): an active element of a lane-wise form takes the function of the elements at its place, an inactive
one keeps its old value; VSEL takes va where active and vb elsewhere; VSHUF takes the element of va that vb's element names modulo the
number of elements; VBCAST the scalar; VINS only the element that it names. -/
def Obligations.LaneWiseElements : Prop :=
  ∀ (t : Nat) (k : BitVec 16) (a b d : Vec) (x : Word) (l i : Nat), t ≤ 10 → i < 16 / elemBytes t →
    (∀ (g : LaneFn) (c : FpCtl), lane (elemBytes t) (vec3 g c t k a b d).val i =
      if k.getLsbD (elemBytes t * i) then
        (g c t (lane (elemBytes t) a i) (lane (elemBytes t) b i) (lane (elemBytes t) d i)).bits % 2 ^ (8 * elemBytes t)
      else lane (elemBytes t) d i) ∧
    lane (elemBytes t) (vecSel t k a b).val i = (if k.getLsbD (elemBytes t * i) then lane (elemBytes t) a i else lane (elemBytes t) b i) ∧
    lane (elemBytes t) (vecShuf t k a b d).val i =
      (if k.getLsbD (elemBytes t * i) then lane (elemBytes t) a (lane (elemBytes t) b i % (16 / elemBytes t))
       else lane (elemBytes t) d i) ∧
    lane (elemBytes t) (vecBcast t k x d).val i =
      (if k.getLsbD (elemBytes t * i) then x.toNat % 2 ^ (8 * elemBytes t) else lane (elemBytes t) d i) ∧
    lane (elemBytes t) (vecIns t l x d) i = (if i = l then x.toNat % 2 ^ (8 * elemBytes t) else lane (elemBytes t) d i)

/-- The integer functions of elements (Table 25.3, R116, R507): sums, differences and products modulo the element's size, the saturating
forms clamped to the type's range, the high half of the product, the shifts by the amount modulo the element's width. -/
def Obligations.IntegerElementFunctions : Prop :=
  ∀ (c : FpCtl) (t a b d : Nat), t < 8 →
    let ty := intTy t
    let n := 2 ^ ty.bits
    a < n → b < n → d < n →
    (laneAdd c t a b d).bits = (a + b) % n ∧ (laneSub c t a b d).bits = (a + n - b) % n ∧
    (laneMul c t a b d).bits = a * b % n ∧ (laneFma c t a b d).bits = (a * b + d) % n ∧
    intOf ty (laneAdds c t a b d).bits = max (intMin ty) (min (intMax ty) (intOf ty a + intOf ty b)) ∧
    intOf ty (laneSubs c t a b d).bits = max (intMin ty) (min (intMax ty) (intOf ty a - intOf ty b)) ∧
    ((laneAdds c t a b d).sat = true ↔ intOf ty a + intOf ty b < intMin ty ∨ intMax ty < intOf ty a + intOf ty b) ∧
    intOf ty (laneMulh c t a b d).bits = intOf ty a * intOf ty b / n ∧
    intOf ty (laneMinMax false c t a b d).bits = min (intOf ty a) (intOf ty b) ∧
    intOf ty (laneMinMax true c t a b d).bits = max (intOf ty a) (intOf ty b) ∧
    (laneShl c t a b d).bits = a * 2 ^ (b % ty.bits) % n ∧ (laneShr c t a b d).bits = a / 2 ^ (b % ty.bits)

/-! ## Loads, stores, PREF and FENCE -/

/-- The loads (R416-R420, R91): with its registers at hand, its pointers accepted and translated, and no copy in the L1 that serves a lane
now, a load completes in its issue with its operation under way, counted in ld, and its destination owed; LDV and LDG with no active
element make no access. The pointer is the base moved by the scaled signed offset, its tag kept. An LD that a copy in the L1 serves completes with its register
written, and no operation starts. LDV is one request of 16 bytes, where R142 speaks of the requests of its lanes: the model's choice (log 22).
The stores (R479-R482, R91): with its registers at hand, its pointers accepted and translated, no release to wait for and no posted
host write to come, a store completes in its issue with its operation under way, counted in st, and its data and byte enables with it. STV
is one request of 16 bytes, as LDV is (log 22). -/
def Obligations.LoadAndStoreIssue : Prop :=
  ((∀ (d a : BitVec 5) (t : BitVec 3) (o : BitVec 2) (sc : BitVec 3) (i : BitVec 5) (ps : List Piece) (s : State),
     (Instr.ld d a t o sc i).wf = true → Ready [rdS s.me a false, wrS s.me d false] s → s.cur.2 < 4 →
     AccessOk .ld 0 (loadLane (ptrAdd (s.me.rs a false) (i.toInt * (loadType t).1)) (loadType t).1) ps s →
     (∀ p ∈ ps, l1Serve s p = p ∧ p.done = false) →
     ∃ s', exec (.ld d a t o sc i) s = .next s' ∧ IssuedAccess s s' 4
       { myOp s (.load (loadType t).1 (loadType t).2) with ctr := some .ld, regs := [.s d.toNat], acq := acqScope o sc, pieces := ps }) ∧
   (∀ (d a : BitVec 5) (t : BitVec 3) (o : BitVec 2) (sc : BitVec 3) (i : BitVec 5) (p : Piece) (x : L1Line) (s : State),
     (Instr.ld d a t o sc i).wf = true → Ready [rdS s.me a false, wrS s.me d false] s → s.cur.2 < 4 →
     AccessOk .ld 0 (loadLane (ptrAdd (s.me.rs a false) (i.toInt * (loadType t).1)) (loadType t).1) [p] s →
     tagOf p.ptr = 0 ∨ tagOf p.ptr = 4 → isHbm p.key = true → settled s p.key p.n = true →
     l1Hit s s.cur.1 s.me.flr (p.key / 64) = some x →
     ∃ s', exec (.ld d a t o sc i) s = .next s' ∧ s'.last = .completed ∧ s'.ops = s.ops ∧ s'.mem = s.mem ∧
       s'.me = ({ s.me.setS d.toNat (word (loadExt (loadType t).1 (loadType t).2 (l1Value x p.key (loadType t).1))) with
         rdMax := max s.me.rdMax x.grant, flr := if raisesFloor (acqScope o sc) then max s.me.flr x.grant else s.me.flr }
         : Strand).goAt (s.me.pc + 4)) ∧
   (∀ (d a : BitVec 3) (i : BitVec 4) (ps : List Piece) (s : State),
     Ready [rdS s.me (a.setWidth 5) false, wrS s.me (d.setWidth 5) false] s → s.cur.2 < 4 →
     AccessOk .ld 0 (loadLane (ptrAdd (s.me.s a.toNat) (i.toNat * 8)) 8) ps s → (∀ p ∈ ps, l1Serve s p = p ∧ p.done = false) →
     ∃ s', exec (.compactLd d a i) s = .next s' ∧ IssuedAccess s s' 2
       { myOp s (.load 8 true) with ctr := some .ld, regs := [.s d.toNat], pieces := ps }) ∧
   (∀ (d a : BitVec 5) (k : BitVec 3) (o : BitVec 2) (sc : BitVec 3) (i : BitVec 5) (ps : List Piece) (s : State),
     (Instr.ldv d a k o sc i).wf = true → Ready [rdS s.me a false, rdK k, rwV d] s → s.cur.2 < 4 → s.me.k k.toNat ≠ 0 →
     AccessOk .load 0 (unitLane (ptrAdd (s.me.rs a false) (i.toInt * 16)) (s.me.k k.toNat)) ps s →
     (∀ p ∈ ps, l1Serve s p = p ∧ p.done = false) →
     ∃ s', exec (.ldv d a k o sc i) s = .next s' ∧ IssuedAccess s s' 4
       { myOp s (.loadVec (s.me.k k.toNat)) with ctr := some .ld, regs := [.v d.toNat], acq := acqScope o sc, pieces := ps }) ∧
   (∀ (d a : BitVec 3) (i : BitVec 4) (ps : List Piece) (s : State),
     Ready [rdS s.me (a.setWidth 5) false, rwV (d.setWidth 5)] s → s.cur.2 < 4 →
     AccessOk .load 0 (unitLane (ptrAdd (s.me.s a.toNat) (i.toNat * 16)) 0xFFFF) ps s → (∀ p ∈ ps, l1Serve s p = p ∧ p.done = false) →
     ∃ s', exec (.compactLdv d a i) s = .next s' ∧ IssuedAccess s s' 2
       { myOp s (.loadVec 0xFFFF) with ctr := some .ld, regs := [.v d.toNat], pieces := ps }) ∧
   (∀ (d a : BitVec 5) (k : BitVec 3) (w : BitVec 2) (b : BitVec 5) (ps : List Piece) (s : State),
     Ready [rdS s.me a false, rdV b, rdK k, rwV d] s → s.cur.2 < 4 →
     AccessOk .load 0 (gatherLanes (s.me.rs a false) (2 ^ w.toNat) (s.me.k k.toNat) (s.me.v b.toNat) 0 false) ps s → ps ≠ [] →
     (∀ p ∈ ps, l1Serve s p = p ∧ p.done = false) →
     ∃ s', exec (.ldg d a k w b) s = .next s' ∧ IssuedAccess s s' 4
       { myOp s (.gather (2 ^ w.toNat) (s.me.k k.toNat)) with ctr := some .ld, regs := [.v d.toNat], pieces := ps }) ∧
   (∀ (d a : BitVec 5) (k : BitVec 3) (w : BitVec 2) (b : BitVec 5) (s : State),
     Ready [rdS s.me a false, rdV b, rdK k, rwV d] s → s.me.k k.toNat = 0 → exec (.ldg d a k w b) s = .next (s.done 4 id))) ∧
  ((∀ (d a : BitVec 5) (t o : BitVec 2) (sc : BitVec 3) (i : BitVec 5) (ps : List Piece) (s : State),
     (Instr.st d a t o sc i).wf = true → Ready [rdS s.me a false, rdS s.me d false] s → s.cur.2 < 4 →
     AccessOk .store 1 (storeLane (ptrAdd (s.me.rs a false) (i.toInt * 2 ^ t.toNat)) (2 ^ t.toNat) (s.me.rs d false)) ps s →
     (o = 2 → released s (scopeOf sc) = true ∧ (scopeOf sc = .system → s.me.hostWrites = false)) → (∀ p ∈ ps, isHost p.key = false) →
     ∃ s', exec (.st d a t o sc i) s = .next s' ∧ IssuedAccess s s' 4 { myOp s .store with ctr := some .st, pieces := ps }) ∧
   (∀ (d a : BitVec 3) (i : BitVec 4) (ps : List Piece) (s : State),
     Ready [rdS s.me (a.setWidth 5) false, rdS s.me (d.setWidth 5) false] s → s.cur.2 < 4 →
     AccessOk .store 1 (storeLane (ptrAdd (s.me.s a.toNat) (i.toNat * 8)) 8 (s.me.s d.toNat)) ps s → (∀ p ∈ ps, isHost p.key = false) →
     ∃ s', exec (.compactSt d a i) s = .next s' ∧ IssuedAccess s s' 2 { myOp s .store with ctr := some .st, pieces := ps }) ∧
   (∀ (d a : BitVec 5) (k : BitVec 3) (o : BitVec 2) (sc : BitVec 3) (i : BitVec 5) (ps : List Piece) (s : State),
     (Instr.stv d a k o sc i).wf = true → Ready [rdS s.me a false, rdK k, rdV d] s → s.cur.2 < 4 → s.me.k k.toNat ≠ 0 →
     AccessOk .store 1 (unitStore (ptrAdd (s.me.rs a false) (i.toInt * 16)) (s.me.k k.toNat) (s.me.v d.toNat)) ps s →
     (o = 2 → released s (scopeOf sc) = true ∧ (scopeOf sc = .system → s.me.hostWrites = false)) → (∀ p ∈ ps, isHost p.key = false) →
     ∃ s', exec (.stv d a k o sc i) s = .next s' ∧ IssuedAccess s s' 4 { myOp s .store with ctr := some .st, pieces := ps }) ∧
   (∀ (d a : BitVec 3) (i : BitVec 4) (ps : List Piece) (s : State),
     Ready [rdS s.me (a.setWidth 5) false, rdV (d.setWidth 5)] s → s.cur.2 < 4 →
     AccessOk .store 1 (unitStore (ptrAdd (s.me.s a.toNat) (i.toNat * 16)) 0xFFFF (s.me.v d.toNat)) ps s →
     (∀ p ∈ ps, isHost p.key = false) →
     ∃ s', exec (.compactStv d a i) s = .next s' ∧ IssuedAccess s s' 2 { myOp s .store with ctr := some .st, pieces := ps }) ∧
   (∀ (d a : BitVec 5) (k : BitVec 3) (w : BitVec 2) (b : BitVec 5) (ps : List Piece) (s : State),
     Ready [rdS s.me a false, rdV b, rdK k, rdV d] s → s.cur.2 < 4 →
     AccessOk .store 1 (gatherLanes (s.me.rs a false) (2 ^ w.toNat) (s.me.k k.toNat) (s.me.v b.toNat) (s.me.v d.toNat) true) ps s →
     ps ≠ [] → (∀ p ∈ ps, isHost p.key = false) →
     ∃ s', exec (.sts d a k w b) s = .next s' ∧ IssuedAccess s s' 4 { myOp s .store with ctr := some .st, pieces := ps }))

/-- The first checks of an access (R135-R138, R353, R417, R419, R480, R481): with its registers at hand, a pointer whose tag or peer space
the form's class does not accept traps with SPACE, one with a set bit of a field that must be zero with BOUND, and one that is not aligned
to the access with ALIGN, in that order, each with TVAL the pointer, before any translation, ordering or release and with nothing done.
Every form of Table 7.3's load and store, atomic and RED classes is covered, at every order and scope; a lane form traps for its lowest
active lane that fails.
PREF (R147, R449) never traps: with its registers at hand a pointer that a load would refuse makes it do nothing; PREF.home of a
translated address asks for its line, as one of the core's 64 remote requests (R156, R274). FENCE (R164, R166, R396) completes where its release holds, no load is under way and no fault has
arrived, and raises the freshness floor at DEVICE and SYSTEM scope. -/
def Obligations.AccessTrapAndFenceResult : Prop :=
  ((∀ (d a : BitVec 5) (t : BitVec 3) (o : BitVec 2) (sc : BitVec 3) (i : BitVec 5) (s u : State), (Instr.ld d a t o sc i).wf = true →
     Ready [rdS s.me a false, wrS s.me d false] s →
     Refused s u [0, 1, 2, 3, 4, 5, 6, 8] (loadType t).1 (ptrAdd (s.me.rs a false) (i.toInt * (loadType t).1)) →
     exec (.ld d a t o sc i) s = .next u) ∧
   (∀ (d a : BitVec 5) (t o : BitVec 2) (sc : BitVec 3) (i : BitVec 5) (s u : State), (Instr.st d a t o sc i).wf = true →
     Ready [rdS s.me a false, rdS s.me d false] s →
     Refused s u [0, 1, 2, 3, 4, 5, 6] (2 ^ t.toNat) (ptrAdd (s.me.rs a false) (i.toInt * 2 ^ t.toNat)) →
     exec (.st d a t o sc i) s = .next u) ∧
   (∀ (d a : BitVec 5) (k : BitVec 3) (o : BitVec 2) (sc : BitVec 3) (i : BitVec 5) (s u : State), s.me.k k.toNat ≠ 0 →
     Refused s u [0, 1, 2, 3, 4, 5, 6] 16 (ptrAdd (s.me.rs a false) (i.toInt * 16)) →
     ((Instr.ldv d a k o sc i).wf = true → Ready [rdS s.me a false, rdK k, rwV d] s → exec (.ldv d a k o sc i) s = .next u) ∧
     ((Instr.stv d a k o sc i).wf = true → Ready [rdS s.me a false, rdK k, rdV d] s → exec (.stv d a k o sc i) s = .next u)) ∧
   (∀ (d a : BitVec 3) (i : BitVec 4) (s u : State), Refused s u [0, 1, 2, 3, 4, 5, 6, 8] 8 (ptrAdd (s.me.s a.toNat) (i.toNat * 8)) →
     Ready [rdS s.me (a.setWidth 5) false, wrS s.me (d.setWidth 5) false] s → exec (.compactLd d a i) s = .next u) ∧
   (∀ (d a : BitVec 3) (i : BitVec 4) (s u : State), Refused s u [0, 1, 2, 3, 4, 5, 6] 8 (ptrAdd (s.me.s a.toNat) (i.toNat * 8)) →
     Ready [rdS s.me (a.setWidth 5) false, rdS s.me (d.setWidth 5) false] s → exec (.compactSt d a i) s = .next u) ∧
   (∀ (d a : BitVec 3) (i : BitVec 4) (s u : State), Refused s u [0, 1, 2, 3, 4, 5, 6] 16 (ptrAdd (s.me.s a.toNat) (i.toNat * 16)) →
     (Ready [rdS s.me (a.setWidth 5) false, rwV (d.setWidth 5)] s → exec (.compactLdv d a i) s = .next u) ∧
     (Ready [rdS s.me (a.setWidth 5) false, rdV (d.setWidth 5)] s → exec (.compactStv d a i) s = .next u)) ∧
   (∀ (d a : BitVec 5) (k : BitVec 3) (w : BitVec 2) (b : BitVec 5) (s u : State),
     (Ready [rdS s.me a false, rdV b, rdK k, rwV d] s →
       LanesRefused s u .load [0, 1, 2, 3, 4, 5, 6] (gatherLanes (s.me.rs a false) (2 ^ w.toNat) (s.me.k k.toNat) (s.me.v b.toNat) 0 false) →
       exec (.ldg d a k w b) s = .next u) ∧
     (Ready [rdS s.me a false, rdV b, rdK k, rdV d] s →
       LanesRefused s u .store [0, 1, 2, 3, 4, 5, 6]
         (gatherLanes (s.me.rs a false) (2 ^ w.toNat) (s.me.k k.toNat) (s.me.v b.toNat) (s.me.v d.toNat) true) →
       exec (.sts d a k w b) s = .next u)) ∧
   (∀ p ∈ ([.amoAdd, .amoAnd, .amoOr, .amoXor, .amoMin, .amoMax, .amoSwap] :
       List (BitVec 5 → BitVec 5 → BitVec 5 → Bool → Bool → BitVec 2 → Instr)),
     ∀ (d a b : BitVec 5) (x y : Bool) (z : BitVec 2) (s u : State), Ready [rdS s.me a y, rdS s.me b false, wrS s.me d x] s →
       Refused s u [0, 1, 2, 3, 4, 5] (2 ^ z.toNat) (s.me.rs a y) → exec (p d a b x y z) s = .next u) ∧
   (∀ (d a b : BitVec 5) (x y : Bool) (z : BitVec 2) (s u : State), Ready [rdS s.me a y, rdS s.me b false, rwS s.me d x] s →
     Refused s u [0, 1, 2, 3, 4, 5] (2 ^ z.toNat) (s.me.rs a y) → exec (.cas d a b x y z) s = .next u) ∧
   (∀ (d a b : BitVec 5) (x y : Bool) (g : UpdateFn) (s u : State), Ready [rdS s.me a y, rdS s.me b false, rwS s.me d x] s →
     Steady s ((s.me.e 0).toNat % 16) → mapGet? s.ufns ((s.me.e 0).toNat % 16) = some g →
     Refused s u [0, 1, 2, 3, 4, 5] (if g.wide then 8 else 4) (s.me.rs a y) → exec (.ufn d a b x y) s = .next u) ∧
   (∀ (a b : BitVec 5) (y : Bool) (z : BitVec 2) (s u : State), z.toNat ≤ 1 → Ready [rdS s.me a y, rdS s.me b false] s →
     Refused s u [8] (4 * 2 ^ z.toNat) (s.me.rs a y) → exec (.red a b y z) s = .next u)) ∧
  ((∀ (a : BitVec 5) (l : BitVec 1) (i : BitVec 5) (s : State) (c : Cause) (sub : Nat), Ready [rdS s.me a false] s →
     locate s .pref (ptrAdd (s.me.rs a false) (i.toInt * 64)) 1 = .trap c sub → exec (.pref a l i) s = .next (s.done 4 id)) ∧
   (∀ (a : BitVec 5) (i : BitVec 5) (s : State) (k : Nat), Ready [rdS s.me a false] s → onLostDie s k = false → acquiring s = false →
     remoteCount s s.cur.1 < 64 → locate s .pref (ptrAdd (s.me.rs a false) (i.toInt * 64)) 1 = .key k →
     exec (.pref a 1 i) s =
       .next (({ perf s s.cur.1 0x13 1 with fills := s.fills ++ [(k / 64, s.cur.1, s.me.ctx)] } : State).done 4 id)) ∧
   (∀ (o : BitVec 2) (sc : BitVec 3) (s : State), (Instr.fence o sc).wf = true → s.me.faults = [] →
     (o ≠ 1 → released s (scopeOf sc) = true ∧ s.me.hostWrites = false) →
     (∀ x ∈ s.ops, ¬ (x.task = s.me.task ∧ x.ctr = some .ld)) →
     exec (.fence o sc) s = .next (s.done 4 (fun t =>
       if o ≠ 2 ∧ (scopeOf sc = .device ∨ scopeOf sc = .system) then { t with flr := max t.flr t.rdMax } else t))))

/-- The banks apply stores (R139, R140, R145, R482): STORE_APPLY at a home bank and SCRATCHPAD_BANK_ACCESS at a scratchpad write exactly
the enabled bytes of the piece, mark it done, and leave every other byte as it was; the bank's queue loses its oldest request.
A load is served (R144, R146, R160): LEASE_GRANT at a home bank of an unpoisoned line reads the piece's bytes, and in spaces 0x0 and
0x4 grants a lease of the ASID's length, records its end, and puts a copy of the line into the issuing core's L1; a load from space 0x8
takes none. The bank holds the line from then on. -/
def Obligations.StoreApplyAndLeaseResult : Prop :=
  ((∀ (s : State) (o : Op) (p : Piece), s.redLines = [] →
     homePiece s s.subj.a s.subj.b (fun k => k == .store) = some (o, p) → p.fault = none →
     ∃ t, exec .storeApply s = .next t ∧ Wrote s t p.key p.n p.data p.en ∧
       ∀ q, findOp t s.subj.a = some q → ∀ y, q.pieces[s.subj.b]? = some y → y.done = true ∧ y.fault = none) ∧
   (∀ (s : State) (o : Op) (p : Piece) (i : Nat) (rest : List (Nat × Nat)), s.redLines = [] → s.subj.c = 0 →
     mapGet [] (s.core s.subj.a).bankq s.subj.b = (o.id, i) :: rest → findOp s o.id = some o → o.kind = .store →
     o.pieces[i]? = some p → p.done = false → p.fault = none → isScratch p.key = true →
     ∃ t, exec .scratchpadBankAccess s = .next t ∧ Wrote s t p.key p.n p.data p.en ∧
       mapGet [] (t.core s.subj.a).bankq s.subj.b = rest)) ∧
  (∀ (s : State) (o : Op) (p : Piece), s.redLines = [] →
     homePiece s s.subj.a s.subj.b (fun k => match k with | .load _ _ | .loadVec _ | .gather _ _ | .pref _ => true | _ => false) =
       some (o, p) →
     (∃ n g, o.kind = .load n g) → p.fault = none → poisoned s p.key p.n = false → poisoned s (p.key / 64 * 64) 64 = false →
     ∃ t, exec .leaseGrant s = .next t ∧ t.mem = s.mem ∧ t.homeLines.head? = some (p.key / 64) ∧
       (tagOf p.ptr = 0 ∨ tagOf p.ptr = 4 →
         mapGet 0 t.leases (p.key / 64) = max (s.devtime + leaseOf s o.asid) (mapGet 0 s.leases (p.key / 64)) ∧
         (t.core o.core).l1.head? = some { line := p.key / 64, bytes := readBytes s (p.key / 64 * 64) 64,
                                            leaseEnd := s.devtime + leaseOf s o.asid, grant := s.devtime, no := s.tick }) ∧
       (tagOf p.ptr = 8 → t.leases = s.leases ∧ (t.core o.core).l1 = (s.core o.core).l1) ∧
       ∀ q, findOp t s.subj.a = some q → ∀ y, q.pieces[s.subj.b]? = some y → y.done = true ∧ y.val = readNat s p.key p.n)

/-- Answers reach their strand (R77, R145, R156, R158, R162): LOAD_REPLY and STORE_ACK of an operation whose pieces have all been applied
end it, its counter falls, its registers are written or its fault is kept to be raised, and memory is as it was. A refusal by a peer, and a
host read that completes with an error or has not completed in 50 ms, give the access they refuse its fault; the others of its operation
go on, and the answer that follows the last brings the fault of the lowest lane (R303, R305, R481).
The other steps of the memory system: a lease that has ended is recorded no more (R144, R146); a home bank holds 65,536 lines of 64
bytes (R15), and a line that was asked for is at its bank, in a way that is free or whose line has no live lease and no reduction slots
(R146, R147, R183), and counts as touched by the context that asked (R292); a walk, for the lines of whose table entries the banks have
room, that finds a translation puts it into the core's TLB, a walk that finds none leaves its subcode for the instruction, and one that the
second-level cache answers touches no die (R151, R153, R154, R292); a forwarding entry ends after its time (R45). The number of ways, and
which line leaves a full set, are the model's choice (log 7). -/
def Obligations.ReplyAndMemoryEvents : Prop :=
  ((∀ (s : State) (o : Op) (c i : Nat), OpOf s s.subj.a c i o → o.ctr = some .ld → o.pend = false → isQueue o.kind = false → o.kind ≠ .flush →
     o.pieces ≠ [] → (∀ p ∈ o.pieces, p.done = true ∧ isHost p.key = false ∧ (tagOf p.ptr = 5 → o.tc ≤ s.devtime)) →
     ∃ t, exec .loadReply s = .next t ∧ findOp t o.id = none ∧ t.slot c i = (s.slot c i).arrive (peerTc s o) ∧ t.mem = s.mem) ∧
   (∀ (s : State) (o : Op) (c i : Nat), OpOf s s.subj.a c i o → o.ctr = some .st → o.kind = .store → o.pend = false →
     o.pieces ≠ [] → (∀ p ∈ o.pieces, p.done = true ∧ (tagOf p.ptr = 5 → o.tc ≤ s.devtime)) →
     ∃ t, exec .storeAck s = .next t ∧ findOp t o.id = none ∧ t.slot c i = (s.slot c i).arrive (peerTc s o) ∧ t.mem = s.mem) ∧
   (∀ (s : State) (o : Op) (p : Piece) (n : Nat), findOp s s.subj.a = some o → o.ctr ≠ none → s.subj.b = 0x08 → reachable s o = true →
     o.pieces.findIdx? (fun p => !p.done && isPeer p.key && !isSelfPeer s p.key) = some n → o.pieces[n]? = some p →
     exec .deferredFaultArrival s = .next (donePiece s o.id n 0 s.devtime (some (.prot, 0, p.ptr)))) ∧
   (∀ (s : State) (o : Op) (p : Piece) (n : Nat), findOp s s.subj.a = some o → o.kind ≠ .flush → writes o.kind = false →
     o.pieces.findIdx? (fun p => !p.done && isHost p.key) = some n → o.pieces[n]? = some p →
     (s.subj.b = 1 ∨ o.since + 50000000 ≤ s.devtime) →
     exec .hostReadTimeout s = .next (donePiece s o.id n 0 s.devtime (some (.page, 0, p.ptr))))) ∧
  ((∀ s : State, mapGet 0 s.leases s.subj.a ≤ s.devtime → exec .leaseEnd s = .next { s with leases := mapDel s.leases s.subj.a }) ∧
   homeSets * (moreWays + 1) = 65536 ∧
   (∀ (s : State) (c x : Nat), s.fills.find? (fun y => y.1 == s.subj.a) = some (s.subj.a, c, x) →
     ((homeSetOf s s.subj.a).length < moreWays + 1 ∨ s.subj.a ∈ s.homeLines →
       exec .hbmLineFill s = .next { touchKey s x (s.subj.a * 64) with
         fills := s.fills.erase (s.subj.a, c, x), homeLines := s.subj.a :: s.homeLines.filter (· != s.subj.a) }) ∧
     (∀ y, s.subj.a ∉ s.homeLines → moreWays < (homeSetOf s s.subj.a).length →
       (homeSetOf s s.subj.a).reverse.find? (fun l => !leased s l && !s.redLines.any (fun r => r.line == l)) = some y →
       exec .hbmLineFill s = .next { touchKey s x (s.subj.a * 64) with
         fills := s.fills.erase (s.subj.a, c, x), homeLines := s.subj.a :: (s.homeLines.filter (· != y)).filter (· != s.subj.a) }) ∧
     (s.subj.a ∉ s.homeLines → moreWays < (homeSetOf s s.subj.a).length →
       (∀ l ∈ homeSetOf s s.subj.a, leased s l = true ∨ s.redLines.any (fun r => r.line == l) = true) →
       exec .hbmLineFill s = .next s)) ∧
   (∀ (s : State) (asid space va : Nat) (x : Xlat), (s.slot s.subj.a s.subj.b).walk = some (asid, space, va) → s.subj.b < 4 →
     (s.tlb2.find? (xlatHas asid space (va / 4096)) = some x →
       ∃ t, exec .translationWalk s = .next t ∧ (t.core s.subj.a).tlb.head? = some x ∧ t.tlb2 = s.tlb2 ∧ t.ctxs = s.ctxs ∧
         t.slot s.subj.a s.subj.b = { s.slot s.subj.a s.subj.b with walk := none }) ∧
     (s.tlb2.find? (xlatHas asid space (va / 4096)) = none →
       walksBefore s (xlatDie s asid va) (s.slot s.subj.a s.subj.b).walkAt < 512 →
       (∀ k ∈ walkReads s asid space va, homeRoom s (k / 64) = true) →
       (walk s asid space va = .ok x →
         ∃ t, exec .translationWalk s = .next t ∧ (t.core s.subj.a).tlb.head? = some x ∧ xlatFragment x va ∈ t.tlb2 ∧
           t.slot s.subj.a s.subj.b = { s.slot s.subj.a s.subj.b with walk := none }) ∧
       (∀ sub, walk s asid space va = .error sub →
         ∃ t, exec .translationWalk s = .next t ∧
           t.slot s.subj.a s.subj.b = { s.slot s.subj.a s.subj.b with walk := none, walkFail := some (asid, space, va, sub) }))) ∧
   (∀ (s : State) (e : Forward), (s.core s.subj.a).fwd[s.subj.b]? = some e → e.till ≤ s.devtime →
     exec .forwardingEntryExpiry s = .next (s.onCore s.subj.a (fun k => { k with fwd := k.fwd.eraseIdx s.subj.b }))))

/-! ## Atomics, update functions, reduction lines, monitors and barriers -/

/-- AMO, CAS and UFN (R352, R353, R368, R500) and RED (R461) as they issue: with their registers at hand and their pointer accepted and
translated each completes with its operation under way; the atomics owe sd and count in ld, RED counts in st.
UFNCFG (R180, R501): in a privileged strand, with the 64 bytes at a space 0x4 pointer readable and a well-formed body and function
word, its first issue begins the install, and the strand is in a short stall, with nothing installed yet; issued again, by which time every
unit and core has acknowledged, it completes, the function is installed everywhere, and no other function changes; in any other strand it
traps with PRIV. When each unit switches, and when they all have, is free (log 23). -/
def Obligations.AtomicIssueResult : Prop :=
  ((∀ p ∈ ([(.amoAdd, .add), (.amoAnd, .and), (.amoOr, .or), (.amoXor, .xor), (.amoMin, .min), (.amoMax, .max), (.amoSwap, .swap)] :
       List ((BitVec 5 → BitVec 5 → BitVec 5 → Bool → Bool → BitVec 2 → Instr) × AmoOp)),
     ∀ (d a b : BitVec 5) (x y : Bool) (z : BitVec 2) (ps : List Piece) (s : State),
       Ready [rdS s.me a y, rdS s.me b false, wrS s.me d x] s → s.cur.2 < 4 →
       AccessOk .amo 2 (loadLane (s.me.rs a y) (2 ^ z.toNat)) ps s →
       ∃ t, exec (p.1 d a b x y z) s = .next t ∧ IssuedAccess s t 4
         { myOp s (.amo p.2 (2 ^ z.toNat) (s.me.rs b false)) with ctr := some .ld, regs := [.s (s.me.reg d.toNat x)], pieces := ps }) ∧
   (∀ (d a b : BitVec 5) (x y : Bool) (z : BitVec 2) (ps : List Piece) (s : State),
     Ready [rdS s.me a y, rdS s.me b false, rwS s.me d x] s → s.cur.2 < 4 →
     AccessOk .amo 2 (loadLane (s.me.rs a y) (2 ^ z.toNat)) ps s →
     ∃ t, exec (.cas d a b x y z) s = .next t ∧ IssuedAccess s t 4
       { myOp s (.cas (2 ^ z.toNat) (s.me.rs d x) (s.me.rs b false)) with
         ctr := some .ld, regs := [.s (s.me.reg d.toNat x)], pieces := ps }) ∧
   (∀ (d a b : BitVec 5) (x y : Bool) (g : UpdateFn) (ps : List Piece) (s : State),
     Ready [rdS s.me a y, rdS s.me b false, rwS s.me d x] s → s.cur.2 < 4 → Steady s ((s.me.e 0).toNat % 16) →
     mapGet? s.ufns ((s.me.e 0).toNat % 16) = some g →
     AccessOk .amo 2 (loadLane (s.me.rs a y) (if g.wide then 8 else 4)) ps s →
     ∃ t, exec (.ufn d a b x y) s = .next t ∧ IssuedAccess s t 4
       { myOp s (.ufn ((s.me.e 0).toNat % 16) (s.me.rs b false) (s.me.rs d x)) with
         ctr := some .ld, regs := [.s (s.me.reg d.toNat x)], pieces := ps }) ∧
   (∀ (d a b : BitVec 5) (x y : Bool) (s : State), Ready [rdS s.me a y, rdS s.me b false, rwS s.me d x] s →
     Steady s ((s.me.e 0).toNat % 16) → mapGet? s.ufns ((s.me.e 0).toNat % 16) = none →
     exec (.ufn d a b x y) s = .next (takeTrap s .illop 0x01 0 (instrWord (.ufn d a b x y)))) ∧
   (∀ (a b : BitVec 5) (y : Bool) (z : BitVec 2) (ps : List Piece) (s : State),
     z.toNat ≤ 1 → Ready [rdS s.me a y, rdS s.me b false] s → s.cur.2 < 4 →
     AccessOk .red 2 (loadLane (s.me.rs a y) (4 * 2 ^ z.toNat)) ps s →
     ∃ t, exec (.red a b y z) s = .next t ∧ Issued s t 4
       { myOp s (.red (z == 1) (s.me.rs b false)) with ctr := some .st, pieces := ps, ptr := s.me.rs a y })) ∧
  ((∀ (a b : BitVec 5) (y : Bool) (p : Piece) (s : State), s.me.priv = true → Ready [rdS s.me a y, rdS s.me b false] s →
     pending s = none → s.cur.2 < 4 →
     tagOf (s.me.rs a y) = 4 → Passes .load [{ lane := 0, ptr := s.me.rs a y, n := 64 }] [p] s → s.redLines = [] →
     poisoned s p.key 64 = false → settled s p.key 64 = true → bits (s.me.rs b false) 63 5 = 0 →
     let v := s.me.rs b false
     let body := (List.range 16).map (fun i => BitVec.ofNat 32 (readNat s (p.key + 4 * i) 4))
     body.all (microOk (v.getLsbD 4)) = true →
     ∃ t, exec (.ufncfg a b y) s = .next t ∧ t.last = .waiting ∧ t.me = s.me.waitIn .stalled .retry ∧ t.ufns = s.ufns ∧ t.mem = s.mem ∧
       t.ops = s.ops ++ [{ myOp s (.ufncfg (v.toNat % 16) (v.getLsbD 4) body) with pend := true }]) ∧
   (∀ (a b : BitVec 5) (y : Bool) (s : State) (o : Op) (f : Nat) (wide : Bool) (body : List (BitVec 32)), s.me.priv = true →
     Ready [rdS s.me a y, rdS s.me b false] s → pending s = some o → o.kind = .ufncfg f wide body →
     ∃ t, exec (.ufncfg a b y) s = .next t ∧ t.last = .completed ∧ mapGet? t.ufns f = some ⟨wide, body⟩ ∧
       (∀ n, n ≠ f → mapGet? t.ufns n = mapGet? s.ufns n) ∧ o ∉ t.ops ∧ t.mem = s.mem ∧ t.core = (s.done 4 id).core) ∧
   (∀ (a b : BitVec 5) (y : Bool) (s : State), s.me.priv = false →
     exec (.ufncfg a b y) s = .next (takeTrap s .priv 0x02 0 (instrWord (.ufncfg a b y)))))

/-- Atomics at their home bank (R178, R179, R181): ATOMIC_APPLY reads the old value, writes the function's new one in the same step, and
the old value goes into the operation; CAS writes only where the old value is the expected one; UFN_APPLY runs the installed function.
RED at its home bank (R182, R184): RED_APPLY adds its value into the issuing core's slot of the line, whose memory stays as it was;
one that needs a slot where none is free begins to wait; one that has waited 10 us is not applied any more, and RED_SLOT_TIMEOUT refuses
it with RTFULL and the address. -/
def Obligations.AtomicApplyAndRedResult : Prop :=
  ((∀ p ∈ ([(.add, fun _ x b => x + b), (.and, fun _ x b => x &&& b), (.or, fun _ x b => x ||| b), (.xor, fun _ x b => x ^^^ b),
       (.min, fun w x b => if signExt (b % 2 ^ (8 * w)) (8 * w) < signExt x (8 * w) then b else x),
       (.max, fun w x b => if signExt x (8 * w) < signExt (b % 2 ^ (8 * w)) (8 * w) then b else x), (.swap, fun _ _ b => b)] :
       List (AmoOp × (Nat → Nat → Nat → Nat))),
     ∀ (s : State) (o : Op) (q : Piece) (w : Nat) (b : Word), s.redLines = [] → w = 4 ∨ w = 8 →
       homePiece s s.subj.a s.subj.b (fun k => match k with | .amo _ _ _ | .cas _ _ _ => true | _ => false) = some (o, q) →
       o.kind = .amo p.1 w b → q.n = w → q.fault = none → poisoned s q.key w = false →
       ∃ t, exec .atomicApply s = .next t ∧ Wrote s t q.key w (p.2 w (readNat s q.key w) b.toNat) (2 ^ w - 1) ∧
         ∀ u, findOp t s.subj.a = some u → ∀ r, u.pieces[s.subj.b]? = some r → r.done = true ∧ r.val = readNat s q.key w) ∧
   (∀ (s : State) (o : Op) (q : Piece) (w : Nat) (old new : Word), s.redLines = [] → w = 4 ∨ w = 8 →
     homePiece s s.subj.a s.subj.b (fun k => match k with | .amo _ _ _ | .cas _ _ _ => true | _ => false) = some (o, q) →
     o.kind = .cas w old new → q.n = w → q.fault = none → poisoned s q.key w = false →
     ∃ t, exec .atomicApply s = .next t ∧
       Wrote s t q.key w new.toNat (if readNat s q.key w = old.toNat % 2 ^ (8 * w) then 2 ^ w - 1 else 0) ∧
       ∀ u, findOp t s.subj.a = some u → ∀ r, u.pieces[s.subj.b]? = some r → r.done = true ∧ r.val = readNat s q.key w) ∧
   (∀ (s : State) (o : Op) (q : Piece) (f : Nat) (g : UpdateFn) (a b : Word), s.redLines = [] →
     homePiece s s.subj.a s.subj.b (fun k => match k with | .ufn _ _ _ => true | _ => false) = some (o, q) →
     o.kind = .ufn f a b → Steady s f → mapGet? s.ufns f = some g → q.n = (if g.wide then 8 else 4) → q.fault = none → poisoned s q.key q.n = false →
     ∃ t, exec .ufnApply s = .next t ∧
       Wrote s t q.key q.n (runUfn g (readNat s q.key q.n) a.toNat b.toNat).1 (2 ^ q.n - 1) ∧
       ∀ u, findOp t s.subj.a = some u → ∀ r, u.pieces[s.subj.b]? = some r →
         r.done = true ∧ r.val = (runUfn g (readNat s q.key q.n) a.toNat b.toNat).2)) ∧
  ((∀ (s : State) (o : Op) (q : Piece) (v : Word), s.redLines = [] → redWaited s o = false →
     homePiece s s.subj.a s.subj.b (fun k => match k with | .red _ _ => true | _ => false) = some (o, q) →
     o.kind = .red true v → q.fault = none →
     ∃ t, exec .redApply s = .next t ∧ t.mem = s.mem ∧
       t.redLines = [{ line := q.key / 64, i64 := true, slots := [{ core := o.core, elems := [(q.key % 64 / 8, v)], ctxs := [o.ctx] }] }]) ∧
   (∀ (s : State) (o : Op) (q : Piece) (i64 : Bool) (v : Word),
     homePiece s s.subj.a s.subj.b (fun k => match k with | .red _ _ => true | _ => false) = some (o, q) →
     o.kind = .red i64 v → redFull s o q i64 = true → o.phase ≠ 2 →
     exec .redApply s = .next (onOp s s.subj.a (fun o => { o with phase := 2, since := s.devtime }))) ∧
   (∀ (s : State) (o : Op) (i64 : Bool) (v : Word), findOp s s.subj.a = some o → o.kind = .red i64 v → o.phase = 2 →
     o.since + 10000 ≤ s.devtime →
     exec .redApply s = .next s ∧
     ((∃ p ∈ o.pieces, p.done = false) →
       exec .redSlotTimeout s = .next (donePiece s o.id 0 0 s.devtime (some (.rtfull, 0, o.ptr))))))

/-- WAITC (R185, R186, R519): its first execution starts its operation and waits; answered, it completes, writes sd with the value, and
raises the freshness floor. MONITOR_REGISTRATION answers it where the word meets the condition, and otherwise registers a monitor and
leaves its strand BLOCKED (R174); WAITC_RETRY reads again.
The barriers (R187-R190, R357-R359): BARA counts an arrival in the strand's record and in ARR and completes the phase where the count
and the credits allow, and traps with BOUND on a second arrival; BARW completes where the phase of the arrival is over and blocks where it
is not; BARX declares, with sd the phase; BARRIER_CREDIT takes the oldest delivery off COUNT that no release holds back (R170). -/
def Obligations.WaitcAndBarrierResult : Prop :=
  ((∀ (d a b : BitVec 5) (x y : Bool) (c : BitVec 2) (s : State) (o : Op) (v : Nat),
     Ready [rdS s.me a y, rdS s.me b false, wrS s.me d x] s → s.cur.2 < 4 → Answered s o [v] →
     watchHit s.me 0 (loadLane (s.me.rs a y) 8) = none →
     ∃ t, exec (.waitc d a b x y c) s = .next t ∧ t.last = .completed ∧ findOp t o.id = none ∧ t.mem = s.mem ∧
       t.me = ({ s.me.ws d x (BitVec.ofNat 64 v) with
         flr := max s.me.flr o.rd, rdMax := max s.me.rdMax o.rd } : Strand).goAt (s.me.pc + 4)) ∧
   (∀ (d a b : BitVec 5) (x y : Bool) (c : BitVec 2) (s : State) (ps : List Piece),
     Ready [rdS s.me a y, rdS s.me b false, wrS s.me d x] s → s.cur.2 < 4 → pending s = none →
     Passes .waitc (loadLane (s.me.rs a y) 8) ps s →
     ∃ t, exec (.waitc d a b x y c) s = .next t ∧
       WaitsForAccess s t { myOp s (.waitc c.toNat (s.me.rs b false) false 0) with pend := true, pieces := ps }) ∧
   (∀ (s : State) (o : Op) (q : Piece) (c : Nat) (b : Word), s.redLines = [] →
     homePiece s s.subj.a 0 (fun k => match k with | .waitc _ _ _ _ => true | _ => false) = some (o, q) →
     o.kind = .waitc c b false 0 → q.n = 8 → q.fault = none → poisoned s q.key 8 = false →
     ∃ t, exec .monitorRegistration s = .next t ∧ t.mem = s.mem ∧
       (condHolds c (BitVec.ofNat 64 (readNat s q.key 8)) b = true →
         ∀ u, findOp t s.subj.a = some u → u.answer = some [readNat s q.key 8]) ∧
       (condHolds c (BitVec.ofNat 64 (readNat s q.key 8)) b = false → monitorsAt s q.key < 1024 →
         t.monitors = s.monitors ++ [⟨o.id, q.key, c, b⟩]) ∧
       (condHolds c (BitVec.ofNat 64 (readNat s q.key 8)) b = false →
         ∀ x i, s.taskSlot o.task = some (x, i) → i < 4 → (s.slot x i).st = .stalled → (s.slot x i).wait = .op o.id →
           t.slot x i = { s.slot x i with st := .blocked })) ∧
   (∀ (s : State) (o : Op) (q : Piece) (c n : Nat) (b : Word), s.redLines = [] → findOp s s.subj.a = some o →
     o.kind = .waitc c b false n → o.pieces = [q] → q.done = true → q.n = 8 → q.fault = none → o.fault = none → o.answer = none →
     n ≤ s.devtime → isHbm q.key = true → bankFree s q.key 8 = true → poisoned s q.key 8 = false →
     condHolds c (BitVec.ofNat 64 (readNat s q.key 8)) b = true →
     ∃ t, exec .waitcRetry s = .next t ∧ ∀ u, findOp t s.subj.a = some u → u.answer = some [readNat s q.key 8])) ∧
  ((∀ (b : BitVec 5) (s : State), s.me.arrival b.toNat ≠ some (barrier s s.myCluster b.toNat).phase → s.cur.2 < 4 →
     ∃ t, exec (.bara b) s = .next t ∧ t.last = .completed ∧
       t.me = (s.me.setArrival b.toNat (some (barrier s s.myCluster b.toNat).phase)).goAt (s.me.pc + 4) ∧
       (let x := barrier s s.myCluster b.toNat
        barrier t s.myCluster b.toNat =
          if x.need ≠ 0 ∧ (x.arr + 1) % 128 = x.need ∧ x.count = 0 then { x with phase := x.phase + 1, arr := 0, ended := s.devtime }
          else { x with arr := (x.arr + 1) % 128 })) ∧
   (∀ (b : BitVec 5) (s : State), s.me.arrival b.toNat = some (barrier s s.myCluster b.toNat).phase →
     exec (.bara b) s = .next (takeTrap s .bound 0x06 0 (b.setWidth 64)) ∧
     exec (.barw b) s = .next
       ((s.onMe (fun t => t.waitIn .blocked (.barrier b.toNat (barrier s s.myCluster b.toNat).phase.toNat))).withLast .waiting)) ∧
   (∀ (b : BitVec 5) (s : State), s.me.arrival b.toNat ≠ some (barrier s s.myCluster b.toNat).phase →
     exec (.barw b) s = .next (s.done 4 (fun t =>
       { t.setArrival b.toNat none with flr := max t.flr (barrier s s.myCluster b.toNat).ended }))) ∧
   (∀ (d a b : BitVec 5) (x y : Bool) (s : State), Ready [rdS s.me a y, wrS s.me d x] s → s.cur.2 < 4 →
     (s.me.rs a y).extractLsb' 40 7 ≤ 64 → (s.me.rs a y).extractLsb' 47 17 = 0 →
     ∃ t, exec (.barx d a b x y) s = .next t ∧ t.last = .completed ∧
       t.me = (s.me.ws d x ((barrier s s.myCluster b.toNat).phase.setWidth 64)).goAt (s.me.pc + 4) ∧
       barrier t s.myCluster b.toNat =
         checkPhase s.devtime { barrier s s.myCluster b.toNat with
           count := count48 ((barrier s s.myCluster b.toNat).count + ((s.me.rs a y).extractLsb' 0 40).toNat)
           need := if (s.me.rs a y).extractLsb' 40 7 = 0 then (barrier s s.myCluster b.toNat).need
                   else ((s.me.rs a y).extractLsb' 40 7).toNat }) ∧
   (∀ (s : State) (b n u : Nat), (s.cluster s.subj.a).credits.find? (fun x => decide (x.2.2 ≤ s.devtime)) = some (b, n, u) →
     ∃ t, exec .barrierCredit s = .next t ∧ (t.cluster s.subj.a).credits = (s.cluster s.subj.a).credits.erase (b, n, u) ∧
       barrier t s.subj.a b =
         checkPhase s.devtime { barrier s s.subj.a b with count := count48 ((barrier s s.subj.a b).count - n) }) ∧
   (∀ s : State, (∀ x ∈ (s.cluster s.subj.a).credits, s.devtime < x.2.2) → exec .barrierCredit s = .next s))

/-! ## Queue objects and stream registers -/

/-- The queue forms as they issue (R194-R196, R444, R445, R450, R454, R456, R458, R459): with their registers at hand, their handle
accepted and translated and no cached kind of it, each completes with its operation under way: QPUSH under a live permit, which it uses;
QPOP, QSTEAL and QAVAIL, whose destinations are owed; PERMIT and PRET, which ask for and give back permits; PERMIT and PRET that have
nothing to ask for or give back change nothing but sd. A QPOP whose option word has bits [9:0] set with bit [10] clear takes the window of
64 mesh cycles (log 28).
The queue forms that wait (R192, R196, R455, R456): QINIT waits STALLED and QPOP.w BLOCKED for the operation that their first execution
starts; QINIT, once its home has answered, writes sd with the handle, the pointer with tag 0x7; QPOP.w, once it is answered, writes the
element and its status to the registers that it named as it issued, or, refused, completes and leaves its fault to be raised, as the other
forms on a handle do (R158, R444; log 27). -/
def Obligations.QueueFormResult : Prop :=
  ((∀ (d a b : BitVec 5) (x y : Bool) (z : BitVec 2) (ps : List Piece) (e : PermitEntry) (s : State), z ≠ 3 →
     Ready ([rdS s.me a y, ⟨0, ((b.toNat + bytesOfCode z.toNat / 8 - 1 : Nat) : Int), true, false⟩] ++
       rdRange b.toNat (bytesOfCode z.toNat / 8) ++ [wrS s.me d x]) s → s.cur.2 < 4 →
     Passes .queue (handleLane (s.me.rs a y)) ps s → cachedKind s (s.me.rs a y) = none →
     permitEntry s.myCore s.me.ctx (s.me.rs a y).toNat = some e → e.count ≠ 0 → s.devtime + 2 < e.expiry →
     ∃ t, exec (.qpush d a b x y z) s = .next t ∧ Issued s t 4
       { myOp s (.qpush (bytesOfCode z.toNat) ((List.range (bytesOfCode z.toNat / 8)).map (fun i => s.me.s (b.toNat + i))) 0 e.reserved) with
         ctr := some .st, regs := [.s (s.me.reg d.toNat x)], pieces := ps, ptr := s.me.rs a y } ∧
       permitEntry t.myCore s.me.ctx (s.me.rs a y).toNat = some { e with count := e.count - 1, busy := e.busy + 1 }) ∧
   (∀ (d a b : BitVec 5) (x y : Bool) (ps : List Piece) (s : State), Ready [rdS s.me a y, rdS s.me b false] s → s.cur.2 < 4 →
     Ready (popUses s.me d x (s.me.rs b false)) s → popOk (s.me.rs b false) = true →
     Passes .queue (handleLane (s.me.rs a y)) ps s → cachedKind s (s.me.rs a y) = none →
     let size := bytesOfCode (bits (s.me.rs b false) 12 11)
     (∃ t, exec (.qpop d a b x y) s = .next t ∧ Issued s t 4
       { myOp s (.qpop size false (popWindow (s.me.rs b false)) 0) with
         ctr := some .ld, regs := popRegs s.me d x size, pieces := ps, ptr := s.me.rs a y }) ∧
     (∃ t, exec (.qsteal d a b x y) s = .next t ∧ Issued s t 4
       { myOp s (.qsteal size) with ctr := some .ld, regs := popRegs s.me d x size, pieces := ps, ptr := s.me.rs a y })) ∧
   (∀ (d a : BitVec 5) (x y : Bool) (ps : List Piece) (s : State), Ready [rdS s.me a y, wrS s.me d x] s → s.cur.2 < 4 →
     Passes .avail (handleLane (s.me.rs a y)) ps s →
     ∃ t, exec (.qavail d a x y) s = .next t ∧ Issued s t 4
       { myOp s .qavail with ctr := some .ld, regs := [.s (s.me.reg d.toNat x)], pieces := ps, ptr := s.me.rs a y }) ∧
   (∀ (d a b : BitVec 5) (x y : Bool) (ps : List Piece) (k : Core) (s : State),
     Ready [rdS s.me a y, rdS s.me b false, wrS s.me d x] s → s.cur.2 < 4 →
     Passes .queue (handleLane (s.me.rs a y)) ps s → (s.me.rs b false).toNat < 2 ^ 32 →
     permitClaim s.devtime s.myCore s.me.ctx (s.me.rs a y).toNat = some k →
     (∀ e, permitEntry k s.me.ctx (s.me.rs a y).toNat = some e → e.reserved = none) →
     ∃ t, exec (.permit d a b x y) s = .next t ∧ Issued s t 4
       { myOp s (.permit (s.me.rs b false).toNat) with
         ctr := some .ld, regs := [.s (s.me.reg d.toNat x)], pieces := ps, ptr := s.me.rs a y }) ∧
   (∀ (a b : BitVec 5) (y : Bool) (ps : List Piece) (e : PermitEntry) (s : State),
     Ready [rdS s.me a y, rdS s.me b false] s → s.cur.2 < 4 → Passes .queue (handleLane (s.me.rs a y)) ps s →
     permitEntry s.myCore s.me.ctx (s.me.rs a y).toNat = some e → e.reserved = none →
     0 < min (s.me.rs b false).toNat e.count →
     ∃ t, exec (.pret a b y) s = .next t ∧ Issued s t 4
       { myOp s (.pret (min (s.me.rs b false).toNat e.count)) with ctr := some .st, pieces := ps, ptr := s.me.rs a y } ∧
       permitEntry t.myCore s.me.ctx (s.me.rs a y).toNat =
         some { e with count := e.count - min (s.me.rs b false).toNat e.count, busy := e.busy + 1 }) ∧
   (∀ (a b : BitVec 5) (y : Bool) (ps : List Piece) (s : State), Ready [rdS s.me a y, rdS s.me b false] s →
     Passes .queue (handleLane (s.me.rs a y)) ps s → permitEntry s.myCore s.me.ctx (s.me.rs a y).toNat = none →
     exec (.pret a b y) s = .next (s.done 4 id))) ∧
  ((∀ (d a b : BitVec 5) (x y : Bool) (s : State) (o : Op) (l : List Nat),
     Ready [rdS s.me a y, rdS s.me b false, wrS s.me d x] s → s.cur.2 < 4 → Answered s o l →
     ∃ t, exec (.qinit d a b x y) s = .next t ∧ t.last = .completed ∧ findOp t o.id = none ∧ t.mem = s.mem ∧
       t.me = ({ s.me.ws d x o.ptr with hor := max s.me.hor o.tc } : Strand).goAt (s.me.pc + 4)) ∧
   (∀ (d a b : BitVec 5) (x y : Bool) (s : State) (ps : List Piece),
     Ready [rdS s.me a y, rdS s.me b false, wrS s.me d x] s → s.cur.2 < 4 → pending s = none →
     ptrCheck .region (s.me.rs a y) = none → (s.me.rs a y).toNat % 64 = 0 → qinitOk (s.me.rs b false) = true →
     Passes .region (handleLane (s.me.rs a y)) ps s →
     ∃ t, exec (.qinit d a b x y) s = .next t ∧ WaitsFor s t .stalled
       { myOp s (.qinit (s.me.rs b false)) with
         pend := true, pieces := ps, ptr := (7#4).append ((s.me.rs a y).setWidth 60) }) ∧
   (∀ (d a b : BitVec 5) (x y : Bool) (s : State) (o : Op) (l : List Nat),
     Ready [rdS s.me a y, rdS s.me b false] s → Ready (popUses s.me d x (s.me.rs b false)) s → s.cur.2 < 4 → Answered s o l →
     ∃ t, exec (.qpopW d a b x y) s = .next t ∧ t.last = .completed ∧ findOp t o.id = none ∧ t.mem = s.mem ∧
       t.me = ({ s.me.setRegs (o.members.map Reg.s) l with rdMax := max s.me.rdMax o.rd } : Strand).goAt (s.me.pc + 4)) ∧
   (∀ (d a b : BitVec 5) (x y : Bool) (s : State) (o : Op) (f : Cause × Nat × Word),
     Ready [rdS s.me a y, rdS s.me b false] s → Ready (popUses s.me d x (s.me.rs b false)) s → s.cur.2 < 4 → pending s = some o →
     opFault o = some f →
     ∃ t, exec (.qpopW d a b x y) s = .next t ∧ t.last = .completed ∧ findOp t o.id = none ∧ t.mem = s.mem ∧
       t.me = ({ s.me with faults := s.me.faults ++
         [{ op := o.id, regs := o.members.map Reg.s, ctr := some .ld, upd := false, cause := f.1, sub := f.2.1, tval := f.2.2, pc := o.pc }] } : Strand).goAt (s.me.pc + 4)) ∧
   (∀ (d a b : BitVec 5) (x y : Bool) (s : State) (ps : List Piece),
     Ready [rdS s.me a y, rdS s.me b false] s → Ready (popUses s.me d x (s.me.rs b false)) s → s.cur.2 < 4 → pending s = none →
     popOk (s.me.rs b false) = true → Passes .queue (handleLane (s.me.rs a y)) ps s → cachedKind s (s.me.rs a y) = none →
     let size := bytesOfCode (bits (s.me.rs b false) 12 11)
     ∃ t, exec (.qpopW d a b x y) s = .next t ∧ WaitsFor s t .blocked
       { myOp s (.qpop size true (popWindow (s.me.rs b false)) 0) with
         pend := true, pieces := ps, ptr := s.me.rs a y
         members := (List.range (size / 8 + 1)).map (fun i => s.me.reg d.toNat x + i) }))

/-- A home serves a queue object (R192-R196, Tables 9.5 and 9.6): QINIT writes a descriptor line of its configuration word with nothing
held; an operation that comes to the home arrives in one of the two mesh cycles of the nanosecond, and is served in its turn: a push with
room stores its element behind the others and raises COUNT; a pop of a FIFO takes its oldest element and moves HEAD, a steal of a FIFO the
same, a pop of a STACK its newest; an empty object answers EMPTY; QAVAIL reads COUNT. The turn is by mesh cycle of arrival, kind and core
(`servedBefore`); a push that has to pair in a stage does not arrive (R199), nor does an operation before those that its task issued
earlier on the object (R161).
Permits at a home (R194, R195): PERMIT grants what fits beside what is held and granted, with a record that expires after the object's
lease, or adds to the standing record of its core and context and renews its expiry; a push under a live record uses one of its permits,
whatever room the object has besides; PRET and PERMIT_EXPIRY take permits off GRANTED. A record whose permits are used up stands with count
0 until it expires (log 67). -/
def Obligations.QueueHomeResult : Prop :=
  ((∀ (s : State) (o : Op) (line : Nat) (v : Word), s.redLines = [] → findOp s s.subj.a = some o → o.kind = .qinit v → o.phase = 0 →
     o.pend = true → (o.pieces.head?).map (·.key) = some line → (∀ m ∈ s.monitors, m.op ≠ o.id) → homeRoom s (line / 64) = true →
     ∃ t, exec .queueHomeQinit s = .next t ∧ Wrote s t line 64
       (1 + bits v 1 0 * 2 + bits v 3 2 * 8 + bits v 31 8 * 2 ^ 24 + (if bits v 47 32 = 0 then 100 else bits v 47 32) * 2 ^ 48) (2 ^ 64 - 1) ∧
       Answers t o.id []) ∧
   (∀ (s : State) (o : Op) (line : Nat), findOp s s.subj.a = some o → o.phase = 0 → (o.pieces.head?).map (·.key) = some line →
     mustPair s o line = false →
     ∀ i, (i = .queueHomePush ∧ (∃ size data kd rid, o.kind = .qpush size data kd rid) ∨
       i = .queueHomePop ∧ (∃ size wt w r, o.kind = .qpop size wt w r) ∨ i = .queueHomeSteal ∧ (∃ size, o.kind = .qsteal size) ∨
       i = .queueHomeAvail ∧ o.kind = .qavail ∨ i = .queueHomePermit ∧ (∃ n, o.kind = .permit n) ∨
       i = .queueHomePret ∧ ∃ n, o.kind = .pret n) →
     (inOrder s o line = false → exec i s = .next s) ∧
     (inOrder s o line = true →
       ∃ t n, exec i s = .next t ∧ findOp t o.id = some { o with phase := 5, pos := n } ∧ t.mem = s.mem ∧ 2 * s.devtime ≤ n ∧
         (∀ x ∈ earlierOnes s o line 5, x.pos < n) ∧ (earlierOnes s o line 5 = [] → n = 2 * s.devtime ∨ n = 2 * s.devtime + 1))) ∧
   (∀ (s : State) (o : Op) (line size k kd : Nat) (data : List Word) (d : Desc), HomeServes s o line (some (codeOf size)) d →
     o.kind = .qpush size data kd none → o.phase = 5 → (o.pieces.head?).map (·.key) = some line → homeTurn s o line = true →
     d.count + d.granted < d.cap → waitingPop s line = none →
     let p := elementPtr o.ptr size ((d.head + d.count) % d.cap)
     elementKey (homeView s o line p) o 2 p = .ok k → homeRoom (homeView s o line p) (k / 64) = true →
     ∃ t, exec .queueHomePush s = .next t ∧ Answers t o.id [1] ∧
       ∃ u, Wrote s u k size (elementNat data) (2 ^ size - 1) ∧
         Wrote u t (line + 8) 12 (descWords d.head (d.count + 1) d.granted) (2 ^ 12 - 1)) ∧
   (∀ (s : State) (o : Op) (line size k w r : Nat) (wt : Bool) (d : Desc), HomeServes s o line (some (codeOf size)) d →
     o.kind = .qpop size wt w r → o.phase = 5 → (o.pieces.head?).map (·.key) = some line → homeTurn s o line = true → d.count ≠ 0 →
     let i := if d.kind = 0 then d.head else (d.head + d.count - 1) % d.cap
     let p := elementPtr o.ptr size i
     elementKey (homeView s o line p) o 1 p = .ok k → homeRoom (homeView s o line p) (k / 64) = true → poisoned s k size = false →
     ∃ t, exec .queueHomePop s = .next t ∧ Answers t o.id (wordsOf size (readNat s k size) ++ [1]) ∧
       Wrote s t (line + 8) 12 (descWords (if d.kind = 0 then (d.head + 1) % d.cap else d.head) (d.count - 1) d.granted) (2 ^ 12 - 1)) ∧
   (∀ (s : State) (o : Op) (line size k : Nat) (d : Desc), HomeServes s o line (some (codeOf size)) d →
     o.kind = .qsteal size → o.phase = 5 → (o.pieces.head?).map (·.key) = some line → homeTurn s o line = true → d.count ≠ 0 → d.kind ≠ 2 →
     let p := elementPtr o.ptr size d.head
     elementKey (homeView s o line p) o 1 p = .ok k → homeRoom (homeView s o line p) (k / 64) = true → poisoned s k size = false →
     ∃ t, exec .queueHomeSteal s = .next t ∧ Answers t o.id (wordsOf size (readNat s k size) ++ [1]) ∧
       Wrote s t (line + 8) 12 (descWords ((d.head + 1) % d.cap) (d.count - 1) d.granted) (2 ^ 12 - 1)) ∧
   (∀ (s : State) (o : Op) (line size w r : Nat) (d : Desc), HomeServes s o line (some (codeOf size)) d →
     o.kind = .qpop size false w r → o.phase = 5 → (o.pieces.head?).map (·.key) = some line → homeTurn s o line = true → d.count = 0 →
     ∃ t, exec .queueHomePop s = .next t ∧ Answers t o.id (List.replicate (size / 8 + 1) 0) ∧ t.mem = s.mem) ∧
   (∀ (s : State) (o : Op) (line : Nat) (d : Desc), HomeServes s o line none d →
     o.kind = .qavail → o.phase = 5 → (o.pieces.head?).map (·.key) = some line → homeTurn s o line = true →
     ∃ t, exec .queueHomeAvail s = .next t ∧ Answers t o.id [d.count] ∧ t.mem = s.mem)) ∧
  ((∀ (s : State) (o : Op) (line want : Nat) (d : Desc), HomeServes s o line none d → o.kind = .permit want → o.phase = 5 →
     (o.pieces.head?).map (·.key) = some line → homeTurn s o line = true →
     let g := min want (d.cap - d.count - d.granted)
     ∃ t, exec .queueHomePermit s = .next t ∧ Answers t o.id [g] ∧
       t.permRecs = [⟨line, o.core, o.ctx, g, some (s.devtime + d.lease * 1000), none⟩] ∧
       Wrote s t (line + 8) 12 (descWords d.head d.count (d.granted + g)) (2 ^ 12 - 1)) ∧
   (∀ (s : State) (o : Op) (line want c e : Nat) (d : Desc), HomeReads s o line none d → o.kind = .permit want → o.phase = 5 →
     (o.pieces.head?).map (·.key) = some line → homeTurn s o line = true →
     s.permRecs = [⟨line, o.core, o.ctx, c, some e, none⟩] → s.devtime < e →
     let g := min want (d.cap - d.count - d.granted)
     ∃ t, exec .queueHomePermit s = .next t ∧ Answers t o.id [g] ∧
       t.permRecs = [⟨line, o.core, o.ctx, c + g, some (s.devtime + d.lease * 1000), none⟩] ∧
       Wrote s t (line + 8) 12 (descWords d.head d.count (d.granted + g)) (2 ^ 12 - 1)) ∧
   (∀ (s : State) (o : Op) (line size k kd c e : Nat) (data : List Word) (d : Desc), HomeReads s o line (some (codeOf size)) d →
     o.kind = .qpush size data kd none → o.phase = 5 → (o.pieces.head?).map (·.key) = some line → homeTurn s o line = true →
     s.permRecs = [⟨line, o.core, o.ctx, c, some e, none⟩] → 0 < c → s.devtime < e → waitingPop s line = none →
     let p := elementPtr o.ptr size ((d.head + d.count) % d.cap)
     elementKey (homeView s o line p) o 2 p = .ok k → homeRoom (homeView s o line p) (k / 64) = true →
     ∃ t, exec .queueHomePush s = .next t ∧ Answers t o.id [1] ∧ t.permRecs = [⟨line, o.core, o.ctx, c - 1, some e, none⟩] ∧
       ∃ u, Wrote s u k size (elementNat data) (2 ^ size - 1) ∧
         Wrote u t (line + 8) 12 (descWords d.head (d.count + 1) (d.granted - 1)) (2 ^ 12 - 1)) ∧
   (∀ (s : State) (o : Op) (line n c e : Nat) (d : Desc), HomeReads s o line none d → o.kind = .pret n → o.phase = 5 →
     (o.pieces.head?).map (·.key) = some line → homeTurn s o line = true → s.permRecs = [⟨line, o.core, o.ctx, c, some e, none⟩] → s.devtime < e →
     ∃ t, exec .queueHomePret s = .next t ∧ Answers t o.id [] ∧
       t.permRecs = [⟨line, o.core, o.ctx, c - min n c, some e, none⟩] ∧
       Wrote s t (line + 8) 12 (descWords d.head d.count (d.granted - min n c)) (2 ^ 12 - 1)) ∧
   (∀ (s : State) (line core ctx c e : Nat), s.redLines = [] → s.subj.a = 0 → s.permRecs = [⟨line, core, ctx, c, some e, none⟩] →
     e ≤ s.devtime → c ≠ 0 →
     ∃ t, exec .permitExpiry s = .next t ∧ t.permRecs = [] ∧
       Wrote s t (line + 8) 12 (descWords (descAt s line).head (descAt s line).count ((descAt s line).granted - c)) (2 ^ 12 - 1)))

/-- Glover pairing and waiting pops (R196, R198-R200): GLOVER_MATCH gives the push's element and 1 to the pop held in the stage, and 1 to
the push, with no access to memory; a pop whose window is over leaves the stage for the home; a QPOP.w that found no monitor entry is
served again.
BIND and UNBIND (R362, R363, R502) and the stream engine (R149, R364): BIND of a queue handle to a free stream register sets it, and
of a bound one traps with BOUND; UNBIND of a register bound to a queue frees it; for a read that wants bytes the engine starts a pop of
the register's object, at once or after 64 mesh cycles, behind the strand's acquire loads and as one of the core's 64 remote requests, once
the descriptor's line is translated (R154, R156, R164), or stages the next message of the register's channel. -/
def Obligations.GloverAndStreamResult : Prop :=
  ((∀ (s : State) (o w : Op) (line size g kd : Nat) (data : List Word) (rid : Option Nat), findOp s s.subj.a = some o →
     o.kind = .qpush size data kd rid → kd = 1 ∨ kd = 2 → o.phase = 0 → (o.pieces.head?).map (·.key) = some line →
     findOp s s.subj.b = some w → (∃ wt win r, w.kind = .qpop size wt win r) → stageOf s s.subj.b = some g → stagePop s g o.ptr line size = some w.id → o.id ≠ w.id →
     onRoute s (clusterOf o.core) (homeCluster line) g = true →
     ∃ t, exec .gloverMatch s = .next t ∧ Answers t w.id (data.map (·.toNat) ++ [1]) ∧ Answers t o.id [1] ∧ t.mem = s.mem ∧
       w.id ∉ (t.cluster g).glover ∧ (t.core w.core).paircnt = (s.core w.core).paircnt + 1) ∧
   (∀ (s : State) (o : Op) (g : Nat), findOp s s.subj.a = some o → stageOf s s.subj.a = some g → windowOver s o = true →
     ∃ t, exec .gloverWindowExpiry s = .next t ∧ s.subj.a ∉ (t.cluster g).glover ∧ t.mem = s.mem ∧
       ∀ q, findOp t s.subj.a = some q → q.phase = 0) ∧
   (∀ (s : State) (o : Op) (line size w r : Nat) (d : Desc), HomeServes s o line (some (codeOf size)) d →
     o.kind = .qpop size true w r → r ≤ s.devtime → o.phase = 3 → (o.pieces.head?).map (·.key) = some line → d.count = 0 →
     homeRoom s (line / 64) = true → monitorsAt s line < 1024 →
     ∃ t, exec .qpopWRetry s = .next t ∧ t.mem = s.mem ∧ ∀ q, findOp t s.subj.a = some q → q.phase = 2 ∧ q.answer = o.answer)) ∧
  ((∀ (r : BitVec 3) (a b : BitVec 5) (y : Bool) (s : State), Ready [rdS s.me a y, rdS s.me b false] s →
     (s.me.q r.toNat).kind = 0 → (s.me.rs b false).toNat % 4 = 1 → (s.me.rs b false).toNat < 12 →
     ptrCheck .queue (s.me.rs a y) = none →
     exec (.bind r a b y) s = .next (s.done 4 (fun t =>
       t.setQ r.toNat { kind := 1, esize := (s.me.rs b false).toNat / 4, source := s.me.rs a y }))) ∧
   (∀ (r : BitVec 3) (a b : BitVec 5) (y : Bool) (s : State), Ready [rdS s.me a y, rdS s.me b false] s →
     (s.me.q r.toNat).kind ≠ 0 → exec (.bind r a b y) s = .next (takeTrap s .bound 0x06 0 (r.setWidth 64))) ∧
   (∀ (r : BitVec 3) (s : State), (s.me.q r.toNat).kind ≤ 1 →
     exec (.unbind r) s = .next (s.done 4 (fun t => t.setQ r.toNat {}))) ∧
   (∀ s : State, let t := s.slot s.subj.a s.subj.b
     let q := t.q s.subj.c
     let s' : State := { s with cur := (s.subj.a, s.subj.b) }
     let due := fun i => i = .streamEnginePop ∧ q.retry = 0 ∨ i = .streamPopRetry ∧ 0 < q.retry ∧ q.retry ≤ s.devtime
     streamWants t s.subj.c = true → q.kind = 1 → s.subj.b < 4 → s.subj.c < 8 → ∀ i, due i →
     (∀ k, translate s' 4 2 (bits q.source 47 0) = .key k → acquiring s' = false → remoteCount s' s.subj.a < 64 →
       ∃ u, exec i s = .next u ∧ ((u.slot s.subj.a s.subj.b).q s.subj.c).pop = some s.nextId ∧
         ∃ o ∈ u.ops, o.id = s.nextId ∧ o.kind = .qpop (bytesOfCode q.esize) false 0 0 ∧ o.ptr = q.source ∧
           o.pieces = [{ key := k, n := 64, ptr := q.source }]) ∧
     (∀ x y z, translate s' 4 2 (bits q.source 47 0) = .walk x y z → t.walk = none →
       ∃ u, exec i s = .next u ∧ u.ops = s.ops ∧ (u.slot s.subj.a s.subj.b).walk = some (x, y, z))) ∧
   (∀ (s : State) (m : Msg), let q := (s.slot s.subj.a s.subj.b).q s.subj.c
     streamWants (s.slot s.subj.a s.subj.b) s.subj.c = true → q.kind = 3 → s.subj.b < 4 → s.subj.c < 8 →
     nextRouted (s.core s.subj.a) q.source.toNat = some m →
     ∃ u, exec .streamEnginePop s = .next u ∧
       ((u.slot s.subj.a s.subj.b).q s.subj.c).stage = q.stage ++ m.pay.toList.flatMap (fun w => leBytes 8 w.toNat)))

/-! ## Messages, launches, the handler table, groups, multicast and migration -/

/-- The buffered sends (R37, R335, R412-R414, R471, R472, R486): with its registers at hand, a well-formed destination and a free entry in
its core's send queue, SEND, SENDR, SENDT and TASK complete with their send last in the strand's buffer; SENDT in an unprivileged
strand whose STATUS.TIMED is 0 traps with PRIV, and a full queue traps with SQFULL. LAUNCH of a grid in e0 and e1 buffers its core-set word, grid and arguments.
HTSET and HMASK (R30, R402-R404): with their registers at hand, a well-formed target word and the right to write the entry, they write
an entry of the own core at once; for another core they wait for HANDLER_TABLE_ENTRY_WRITE, which writes it at the target, and complete
once it has. An entry of another context, unprivileged, traps with PRIV. -/
def Obligations.SendAndHandlerResult : Prop :=
  ((∀ p ∈ ([(.send, 0), (.sendr, 1), (.sendt, 2)] : List ((BitVec 5 → BitVec 5 → Bool → Instr) × Nat)),
     ∀ (a b : BitVec 5) (y : Bool) (s : State), Ready (rdS s.me a y :: rangeUses b 8) s → destOk (s.me.rs a y) = true →
       (p.2 = 2 → s.me.fromTimed = true ∨ s.me.priv = true) →
       exec (p.1 a b y) s = .next
         (if sendUsed s s.cur.1 s.cur.2 p.2 < 32 then s.done 4 (fun t => { t with sends := t.sends ++
           [{ form := 0, net := p.2, dest := (t.rs a y).setWidth 32, data := (List.range 8).map (fun i => t.s (b.toNat + i)),
              pc := t.pc.toNat }] })
          else takeTrap s .sqfull 0x0A 0 (BitVec.ofNat 64 p.2))) ∧
   (∀ (a b : BitVec 5) (y : Bool) (s : State), Ready (rdS s.me a y :: rangeUses b 8) s → destOk (s.me.rs a y) = true →
     s.me.fromTimed = false → s.me.priv = false →
     exec (.sendt a b y) s = .next (takeTrap s .priv 0x02 0 (instrWord (.sendt a b y)))) ∧
   (∀ (a b : BitVec 5) (y : Bool) (s : State), Ready (rdS s.me a y :: rangeUses b 8) s → (s.me.rs a y).toNat < 64 →
     sendUsed s s.cur.1 s.cur.2 0 < 32 →
     exec (.task a b y) s = .next (s.done 4 (fun t => { t with sends := t.sends ++
       [{ form := 1, net := 0, dest := BitVec.ofNat 32 (s.cur.1 + 2 ^ 13 * (s.me.rs a y).toNat),
          data := (List.range 8).map (fun i => t.s (b.toNat + i)), pc := t.pc.toNat }] }))) ∧
   (∀ (d a b : BitVec 5) (x y : Bool) (s : State), Ready [rdS s.me a y, rdS s.me d x] s → Ready (rangeUses b 5) s →
     coreSetOk (s.me.rs a y) = true → (s.me.rs a y).getLsbD 27 = false → s.me.rs d x = 0 →
     gridCount (s.me.e 0) (s.me.e 1) ≤ 2 ^ 24 → sendUsed s s.cur.1 s.cur.2 0 < 32 →
     exec (.launch d a b x y) s = .next (s.done 4 (fun t => { t with sends := t.sends ++
       [{ form := 4, net := 0, dest := 0,
          data := [0, t.rs a y, BitVec.ofNat 64 ((t.e 0).toNat + (t.e 1).toNat % 2 ^ 16 * 2 ^ 32)] ++
            (List.range 5).map (fun i => t.s (b.toNat + i)), pc := t.pc.toNat }] })))) ∧
  ((∀ (a b : BitVec 5) (y : Bool) (s : State), Ready [rdS s.me a y, rdS s.me b false] s → pending s = none →
     (s.me.rs a y).toNat < 2 ^ 19 → (s.me.rs b false).toNat < 2 →
     let w := s.me.rs a y
     let e := (s.core (targetCore w)).entry (targetChan w)
     (s.me.priv = true ∨ entBits e 0 0 = 0 ∨ entBits e 76 64 = s.me.ctx → targetCore w = s.cur.1 →
       exec (.hmask a b y) s = .next
         ((onEntry s s.cur.1 (targetChan w) (fun e => entryMaskBit e ((s.me.rs b false).getLsbD 0))).done 4 id)) ∧
     (s.me.priv = true ∨ entBits e 0 0 = 0 ∨ entBits e 76 64 = s.me.ctx → targetCore w ≠ s.cur.1 →
       (s.die (dieOf (targetCore w))).lost = false → remoteCount s s.cur.1 < 64 → s.cur.2 < 4 →
       ∃ t, exec (.hmask a b y) s = .next t ∧
         WaitsFor s t .stalled { myOp s (.handler true ((s.me.rs b false).setWidth 128)) with pend := true, ptr := w }) ∧
     (s.me.priv = false → entBits e 0 0 = 1 → entBits e 76 64 ≠ s.me.ctx →
       exec (.hmask a b y) s = .next (takeTrap s .priv 0x02 0 (instrWord (.hmask a b y))))) ∧
   (∀ (a b : BitVec 5) (y : Bool) (s : State), Ready (rdS s.me a y :: rangeUses b 2) s → pending s = none →
     (s.me.rs a y).toNat < 2 ^ 19 →
     let w := s.me.rs a y
     let v : BitVec 128 := (s.me.s (b.toNat + 1)).append (s.me.s b.toNat)
     s.me.priv = true ∨ entryPriv s.me.ctx ((s.core (targetCore w)).entry (targetChan w)) v = false →
     (targetCore w = s.cur.1 →
       exec (.htset a b y) s = .next ((onEntry s s.cur.1 (targetChan w) (fun e => entryWrite e v)).done 4 id)) ∧
     (targetCore w ≠ s.cur.1 → (s.die (dieOf (targetCore w))).lost = false → remoteCount s s.cur.1 < 64 → s.cur.2 < 4 →
       ∃ t, exec (.htset a b y) s = .next t ∧ WaitsFor s t .stalled { myOp s (.handler false v) with pend := true, ptr := w })) ∧
   (∀ (a b : BitVec 5) (y : Bool) (s : State) (o : Op) (l : List Nat), Answered s o l → o.fault = none →
     (Ready [rdS s.me a y, rdS s.me b false] s → exec (.hmask a b y) s = .next ((dropOp s o.id).done 4 id)) ∧
     (Ready (rdS s.me a y :: rangeUses b 2) s → exec (.htset a b y) s = .next ((dropOp s o.id).done 4 id))) ∧
   (∀ (s : State) (o : Op) (mask : Bool) (data : BitVec 128), findOp s s.subj.a = some o → o.kind = .handler mask data →
     o.pend = true → o.answer = none →
     ∃ t, exec .handlerTableEntryWrite s = .next t ∧ t.mem = s.mem ∧ (∃ q, findOp t o.id = some q ∧ q.answer = some []) ∧
       (t.core (targetCore o.ptr)).entry (targetChan o.ptr) =
         (if mask then entryMaskBit ((s.core (targetCore o.ptr)).entry (targetChan o.ptr)) (data.getLsbD 0)
          else entryWrite ((s.core (targetCore o.ptr)).entry (targetChan o.ptr)) data)))

/-- Groups (R43, R156, R400): JOIN, LEAVE and GSIZE, where the core has one of its 64 remote requests free, start a request to the group's
root and wait; the root adds the core to the group's members, removes it, or counts them, and answers; a JOIN that needs a 257th record
there is refused with BOUND; answered, they complete, GSIZE with sd the count.
Multicast (R172, R173, R431-R433): MCAST with its registers at hand completes with its store on its way to the group's root; the root
fixes the members in MCAST_SERIALISE; a member whose regions allow it applies the store to its own scratchpad, once its banks have served
the requests that came before (R140), and the last one to apply answers it, with MCASTPART where any has refused. -/
def Obligations.GroupAndMulticastResult : Prop :=
  ((∀ (g : BitVec 12) (d : BitVec 5) (s : State), pending s = none → rootLost s (groupKey s.me.ctx g.toNat) = false →
     remoteCount s s.cur.1 < 64 → s.cur.2 < 4 →
     (∃ t, exec (.join g) s = .next t ∧ WaitsFor s t .stalled { myOp s .join with pend := true, ptr := g.setWidth 64 }) ∧
     (∃ t, exec (.leave g) s = .next t ∧ WaitsFor s t .stalled { myOp s .leave with pend := true, ptr := g.setWidth 64 }) ∧
     (Ready [wrS s.me d false] s →
       ∃ t, exec (.gsize d g) s = .next t ∧ WaitsFor s t .stalled { myOp s .gsize with pend := true, ptr := g.setWidth 64 })) ∧
   (∀ (g : BitVec 12) (d : BitVec 5) (s : State) (o : Op) (n : Nat), Answered s o [n] →
     exec (.join g) s = .next ((dropOp s o.id).done 4 id) ∧ exec (.leave g) s = .next ((dropOp s o.id).done 4 id) ∧
     (Ready [wrS s.me d false] s →
       exec (.gsize d g) s = .next ((dropOp s o.id).done 4 (fun t => t.ws d false (BitVec.ofNat 64 n))))) ∧
   (∀ (s : State) (o : Op), findOp s s.subj.a = some o → o.pend = true → o.answer = none → o.fault = none →
     let key := groupKey o.ctx o.ptr.toNat
     (o.kind = .join → members s key ≠ [] ∨ recordsAt s (groupRoot key) < 256 →
       ∃ t, exec .groupRootUpdate s = .next t ∧ members t key = insertMember o.core (members s key) ∧ t.mem = s.mem ∧
         ∃ q, findOp t o.id = some q ∧ q.answer = some []) ∧
     (o.kind = .join → members s key = [] → 256 ≤ recordsAt s (groupRoot key) →
       ∃ t, exec .groupRootUpdate s = .next t ∧ t.groups = s.groups ∧
         ∃ q, findOp t o.id = some q ∧ q.answer = none ∧ q.fault = some (.bound, 0, o.ptr)) ∧
     (o.kind = .leave → ∃ t, exec .groupRootUpdate s = .next t ∧ members t key = (members s key).filter (· != o.core) ∧
       ∃ q, findOp t o.id = some q ∧ q.answer = some []) ∧
     (o.kind = .gsize → ∃ t, exec .groupRootUpdate s = .next t ∧ (∃ q, findOp t o.id = some q ∧ q.answer = some [(members s key).length]) ∧
       t.groups = s.groups))) ∧
  ((∀ (d a : BitVec 5) (x y : Bool) (z : BitVec 2) (s : State), Ready [rdS s.me a y, rdS s.me d x] s → s.cur.2 < 4 →
     bits (s.me.rs a y) 35 18 = 0 → bits (s.me.rs a y) 63 48 = 0 → bits (s.me.rs a y) 17 0 % 2 ^ z.toNat = 0 →
     rootLost s (groupKey s.me.ctx (bits (s.me.rs a y) 47 36)) = false → acquiring s = false → remoteCount s s.cur.1 < 64 →
     ∃ t, exec (.mcast d a x y z) s = .next t ∧ Issued s t 4
       { myOp s (.mcast (2 ^ z.toNat) ((s.me.rs d x).toNat % 2 ^ (8 * 2 ^ z.toNat))) with ctr := some .st, ptr := s.me.rs a y }) ∧
   (∀ (s : State) (o : Op) (n data c : Nat) (l : List Nat), findOp s s.subj.a = some o → o.kind = .mcast n data → o.phase = 0 →
     s.ops = [o] → members s (opGroup o) = c :: l →
     ∃ t, exec .mcastSerialise s = .next t ∧ ∀ q, findOp t s.subj.a = some q → q.phase = 3 ∧ q.members = c :: l ∧ q.todo = c :: l) ∧
   (∀ (s : State) (o : Op) (n data : Nat), findOp s s.subj.a = some o → o.kind = .mcast n data → mcastNext s o s.subj.b = true →
     s.redLines = [] → regionOk s s.subj.b o.ctx o.asid o.priv (bits o.ptr 17 0) n = true →
     bankFree s (spKey s.subj.b (bits o.ptr 17 0)) n = true → poisoned s (spKey s.subj.b (bits o.ptr 17 0)) n = false → onLostDie s (spKey s.subj.b (bits o.ptr 17 0)) = false →
     ∃ t, exec .mcastMemberApply s = .next t ∧ Wrote s t (spKey s.subj.b (bits o.ptr 17 0)) n data (2 ^ n - 1) ∧
       ∀ q, findOp t s.subj.a = some q → q.todo = o.todo.filter (· != s.subj.b) ∧
         (o.todo.filter (· != s.subj.b) = [] → q.answer = some [] ∧ q.fault = partFault o.refused) ∧
         (o.todo.filter (· != s.subj.b) ≠ [] → q.answer = none)))

/-- MIGRATE (R44, R45, R434, R435): with its register at hand, outside every stream, with no copy or channel bound, the target entry free
or its own, and nothing to wait for, the task leaves its slot in a migration message, its message leaves the receive store, and a
forwarding entry stands for 4 us; before its message the network holds the reports of the faults of engine commands that no WAIT raised,
one each, and nothing where there are none (R281).
MESSAGE_ARRIVAL (R33): the next packet of its flow, with room in the receive store of its target for its channel, is taken as the
newest message there, in its channel's reserved entry if that is free and in a shared one otherwise, under the next arrival number and with
the MSGID of Table 2.3; packets from the host end HALT on channel 0 (R401). A packet that finds no entry waits and holds its network's
input at the core. -/
def Obligations.MessageMovementResult : Prop :=
  (∀ (a : BitVec 5) (y : Bool) (s : State), Ready [rdS s.me a y] s → s.cur.2 < 4 → (s.me.rs a y).toNat < 2 ^ 19 →
     s.me.pub = false → s.me.sub = false → s.me.uns = false → boundStream s.me = none → migrateReady s = true →
     (let e := (s.core (targetCore (s.me.rs a y))).entry (targetChan (s.me.rs a y))
      entBits e 0 0 = 0 ∨ entBits e 76 64 = s.me.ctx) →
     ∃ t, exec (.migrate a y) s = .next t ∧ t.last = .left ∧ t.mem = s.mem ∧ (t.slot s.cur.1 s.cur.2).st = .free ∧
       (∀ m ∈ t.myCore.rx, ¬ (m.chan = s.me.chan ∧ m.seq = s.me.seq)) ∧
       t.myCore.fwd = s.myCore.fwd ++ [⟨s.me.task, targetCore (s.me.rs a y), targetChan (s.me.rs a y), s.devtime + 4000⟩] ∧
       ∃ p : Packet, t.net = (lateFaults s s.cur.1 s.cur.2 s.me).net ++ [p] ∧
         (s.me.faults.any lateFault = false → t.net = s.net ++ [p]) ∧ p.dst = targetCore (s.me.rs a y) ∧ p.net = 0 ∧ p.holds = none ∧
         p.body = .migration (targetChan (s.me.rs a y)) { carriedTask s.me with migWord := instrWord (.migrate a y) } s.devtime) ∧
  (∀ (s : State) (p : Packet) (ch dev core : Nat) (pay : Vector Word 8) (host rep : Bool),
     s.net.find? (fun x => x.pid == s.subj.a && isMessage x) = some p → p.body = .message ch pay host dev core rep none 0 →
     firstOfFlow s p = true → inputOpen s p = true →
     (rxRoom (s.core p.dst) ch = true → entBits ((s.core p.dst).entry ch) 91 91 = 0 →
       ∃ t, exec .messageArrival s = .next t ∧ t.mem = s.mem ∧ t.net = s.net.filter (fun x => x.pid != p.pid) ∧
         (t.core p.dst).rx = (s.core p.dst).rx ++
           [{ chan := ch, seq := (s.core p.dst).nextSeq, pay := pay, shared := (s.core p.dst).rx.any (fun m => m.chan == ch && !m.shared)
              msgid := msgidOf dev (if host then 0 else core) ch host (s.core p.dst).nextSeq, report := rep, flr := p.acq }] ∧
         (t.core p.dst).nextSeq = (s.core p.dst).nextSeq + 1 ∧
         (host = true → ch = 0 → (t.core p.dst).halted = false)) ∧
     (rxRoom (s.core p.dst) ch = false →
       exec .messageArrival s = .next (s.onCore p.dst (fun k => { k with held := mapSet k.held p.net p.pid }))))

/-! ## Instruction channels -/

/-- PUBLISH, UNPUBLISH and RDV (R50, R62, R63, R452, R460, R503): on a free channel of its die PUBLISH makes the strand its publisher, and
on the channel that it publishes changes nothing; PUBLISH of another die's channel traps with SUBERR code 2; UNPUBLISH by the publisher
sends itself down the stream and ends the publication, and by a strand outside every stream traps with SUBERR code 9; RDV changes nothing
but the PC. Of several causes that a PUBLISH meets, the order is the model's reading (log 46).
SUBSCRIBE and its registration (R51, R69, R484): SUBSCRIBE by a strand outside every stream starts a request to the channel's home and
waits; SUBSCRIPTION_REGISTRATION records the port at a channel that does not refuse it, and from then on the strand is subscribed and
BLOCKED until its channel brings it an instruction; where SUBSCRIBE names an address, the port then adds 1 to the word there, released at
DEVICE scope; a channel that refuses it gives SUBERR with its code.
UNSUB, UNSUB.nz and RESUB (R62, R63, R466, R504): a subscriber leaves the stream and watches for markers, by UNSUB.nz only where its
register is not zero; a strand that is no subscriber, and RESUB by a member of its channel, change nothing; RESUB by a strand that has
left a published stream blocks for the marker.
The stream at a port (R51, R53, R55, R56, R69, R72): an instruction that arrives at a joined port is buffered there, and a subscriber
that waits for its channel is READY; a marker lets a port in that has not joined, its subscriber taking over the stream's FMT, extension
registers and PC; the end of the stream traps a BLOCKED subscriber whose port has not joined with ENDED, and detaches its port;
ISSUE_COUNT_REPORT gives the publisher the port's count; FREQUENCY_LOCK_SWITCH sets the group frequency, as it stands then, in the cluster
that was to switch. -/
def Obligations.InstructionChannelResult : Prop :=
  ((∀ (c : BitVec 12) (s : State), let n := c.toNat % 256
     s.me.pub = false → s.me.sub = false → s.me.uns = false → dieOf s.cur.1 = n / 64 → (s.chan n).st = .free → s.cur.2 < 4 →
     ∃ t, exec (.publish c) s = .next t ∧ t.last = .completed ∧ t.mem = s.mem ∧ (t.chan n).st = .published ∧
       (t.chan n).pub = some (s.cur.1, s.cur.2, s.me.task) ∧ (t.chan n).owner = s.me.ctx) ∧
   (∀ (c : BitVec 12) (s : State), s.me.pub = true → s.me.ichan = c.toNat % 256 → exec (.publish c) s = .next (s.done 4 id)) ∧
   (∀ (c : BitVec 12) (s : State), s.me.pub = false → s.me.sub = false → s.me.uns = false → (s.chan (c.toNat % 256)).st = .free →
     dieOf s.cur.1 ≠ c.toNat % 256 / 64 →
     exec (.publish c) s = .next (takeTrap s .suberr 0x13 0 (BitVec.ofNat 64 (c.toNat % 256 * 256 + 2)))) ∧
   (∀ s : State, s.me.pub = true → s.cur.2 < 4 →
     ∃ t, exec .unpublish s = .next t ∧ t.last = .completed ∧ t.mem = s.mem ∧ t.me.pub = false ∧ t.me.pc = s.me.pc + 4) ∧
   (∀ s : State, s.me.pub = false → s.me.sub = false → s.me.uns = false →
     exec .unpublish s = .next (takeTrap s .suberr 0x13 0 9)) ∧
   (∀ (r : BitVec 12) (s : State), exec (.rdv r) s = .next (s.done 4 id))) ∧
  ((∀ (a : BitVec 5) (c : BitVec 12) (s : State), Ready [rdS s.me a false] s → s.cur.2 < 4 → s.me.pub = false → s.me.sub = false →
     s.me.uns = false → pending s = none →
     ∃ t, exec (.subscribe a c) s = .next t ∧
       WaitsFor s t .stalled { myOp s (.subscribe (decide (a ≠ 0))) with
         pend := true, ptr := BitVec.ofNat 64 (c.toNat % 256), args := [s.me.rs a false] }) ∧
   (∀ (s : State) (o : Op) (add : Bool), findOp s s.subj.a = some o → o.kind = .subscribe add → o.fault = none → o.phase ≠ 5 →
     (s.slot o.core o.slot).task = o.task → (s.slot o.core o.slot).st = .ready ∨ (s.slot o.core o.slot).st = .stalled → o.slot < 4 →
     (subscribeRefused s o o.ptr.toNat = none → (s.chan o.ptr.toNat).st = .free →
       ∃ t, exec .subscriptionRegistration s = .next t ∧ (t.chan o.ptr.toNat).st = .registered ∧ (t.chan o.ptr.toNat).owner = o.ctx ∧
         (t.chan o.ptr.toNat).ports = (s.chan o.ptr.toNat).ports ++ [{ core := o.core, slot := o.slot, task := o.task, registered := true }] ∧
         t.slot o.core o.slot = { s.slot o.core o.slot with ichan := o.ptr.toNat, sub := true, st := .blocked, wait := .channel } ∧
         findOp t o.id = (if add then some { o with phase := 5, pend := false } else none)) ∧
     (∀ code, subscribeRefused s o o.ptr.toNat = some code →
       exec .subscriptionRegistration s =
         .next (onOp s o.id (fun o => { o with fault := some (.suberr, 0, suberr o.ptr.toNat code) })))) ∧
   (∀ (s : State) (o : Op) (add : Bool) (ps : List Piece), findOp s s.subj.a = some o → o.kind = .subscribe add → o.fault = none →
     o.phase = 5 → o.slot < 4 →
     let s' : State := { s with cur := (o.core, o.slot) }
     Passes .amo (loadLane ((o.args.head?).getD 0) 8) ps s' → released s' .device = true →
     ∃ t, exec .subscriptionRegistration s = .next t ∧ t.mem = s.mem ∧
       ∃ n ∈ t.ops, n.kind = .amo .add 8 1 ∧ n.ctr = some .ld ∧ n.regs = [] ∧ n.task = (s.slot o.core o.slot).task) ∧
   (∀ (a : BitVec 5) (c : BitVec 12) (s : State) (o : Op) (f : Cause × Nat × Word), Ready [rdS s.me a false] s → pending s = some o →
     o.fault = some f → exec (.subscribe a c) s = .next (takeTrap (dropOp s o.id) f.1 (causeCode f.1) f.2.1 f.2.2))) ∧
  ((∀ s : State, s.me.sub = false → exec .unsub s = .next (s.done 4 id)) ∧
   (∀ (s : State) (q : IPort), s.me.sub = true → s.cur.2 < 4 → (s.chan s.me.ichan).ports = [q] → q.task = s.me.task →
     ∃ t, exec .unsub s = .next t ∧ t.last = .completed ∧ t.mem = s.mem ∧ t.me.sub = false ∧ t.me.uns = true ∧
       (t.chan s.me.ichan).ports = [{ q with uns := true, joined := false, buf := [] }]) ∧
   (∀ (a : BitVec 5) (s : State), Ready [rdS s.me a false] s → s.me.sub = false ∨ s.me.rs a false = 0 →
     exec (.unsubNz a) s = .next (s.done 4 id)) ∧
   (∀ (a : BitVec 5) (s : State), Ready [rdS s.me a false] s → s.me.sub = true → s.me.rs a false ≠ 0 →
     exec (.unsubNz a) s = exec .unsub s) ∧
   (∀ (c : BitVec 8) (r : BitVec 10) (s : State), s.me.pub = true ∨ s.me.sub = true → s.me.ichan = c.toNat →
     exec (.resub c r) s = .next (s.done 4 id)) ∧
   (∀ (c : BitVec 8) (r : BitVec 10) (s : State), s.me.pub = false → s.me.sub = false → s.me.uns = true → s.me.ichan = c.toNat →
     (s.chan c.toNat).st = .published →
     exec (.resub c r) s = .next ((s.onMe (fun t => t.waitIn .blocked (.marker r.toNat false))).withLast .waiting))) ∧
  ((∀ (s : State) (q : IPort) (p : Pub) (l : List Pub), (s.chan s.subj.a).ports = [q] → q.core = s.subj.b → q.slot = s.subj.c →
     q.flight = p :: l → q.uns = false → q.slot < 4 → (s.slot q.core q.slot).task = q.task → (s.slot q.core q.slot).st = .blocked →
     (q.joined = true → (s.slot q.core q.slot).wait = .channel → (s.slot q.core q.slot).ichan = s.subj.a →
       (∀ o ∈ s.ops, subscribing q.task o = false) →
       ∃ t, exec .streamInstructionArrival s = .next t ∧ (t.chan s.subj.a).ports = [{ q with flight := l, buf := q.buf ++ [p] }] ∧
         t.slot q.core q.slot = { s.slot q.core q.slot with st := .ready }) ∧
     (∀ r, q.joined = false → p.instr = .rdv r →
       ∃ t, exec .streamInstructionArrival s = .next t ∧ (t.chan s.subj.a).ports = [joinAfter p { q with flight := l }] ∧
         ((s.slot q.core q.slot).sub = true → t.slot q.core q.slot =
           { s.slot q.core q.slot with fmt := carryFmt p.fmt (s.slot q.core q.slot).fmt, ereg := p.ereg, pc := BitVec.ofNat 48 p.next })) ∧
     (q.joined = false → p.instr = .unpublish ∨ p.instr = .endTask ∨ p.instr = .compactEnd →
       ∃ t, exec .streamInstructionArrival s = .next t ∧ (t.chan s.subj.a).ports = [] ∧ (t.slot q.core q.slot).st = .trapping ∧
         ∃ x, (t.slot q.core q.slot).trap = some x ∧ x.cause = .suberr ∧ x.tval = BitVec.ofNat 64 (s.subj.a % 256 * 256 + 11))) ∧
   (∀ (s : State) (q : IPort), (s.chan s.subj.a).ports = [q] → q.core = s.subj.b → q.slot = s.subj.c →
     ∃ t, exec .issueCountReport s = .next t ∧ (t.chan s.subj.a).ports = [{ q with reported := q.issued }] ∧ t.cores = s.cores) ∧
   (∀ (s : State) (f : Nat), together s s.subj.a = [s.subj.a] → (s.cluster s.subj.a).lockSwitch = some f →
     ∃ t, exec .frequencyLockSwitch s = .next t ∧ (t.cluster s.subj.a).freq = target s s.subj.a ∧ (t.cluster s.subj.a).change = none ∧ (t.cluster s.subj.a).lockSwitch = none ∧
       t.cores = s.cores))

/-! ## Tasks -/

/-- END (R34, R389), its compact form (R91), HALT (R401) and IDLE (R405). With no arrived fault and nothing to wait for, END of a strand
outside every stream ends its task: its sends leave in program order, its message leaves the receive store and its slot is free; HALT, in
a privileged strand on a core with no reservation, also halts the core; before that the strand stalls. IDLE returns 1 after an arrival
since it issued, 0 at its limit, and blocks until then. -/
def Obligations.TaskEndResult : Prop :=
  (∀ p ∈ ([(.endTask, false), (.compactEnd, false), (.halt, true)] : List (Instr × Bool)), ∀ s : State,
    s.me.pub = false → s.me.sub = false → (p.2 = true → s.me.priv = true ∧ s.myCore.rsv = 0) →
    s.me.faults = [] → endReady s = true →
    ∃ t, exec p.1 s = .next t ∧ t.last = .left ∧ t.mem = s.mem ∧ t.me = {} ∧ (p.2 = true → t.myCore.halted = true) ∧
      ((∀ q ∈ s.me.strm.toList, q.kind ≠ 3) →
        t.myCore.rx = s.myCore.rx.filter (fun m => !(m.chan == s.me.chan && m.seq == s.me.seq))) ∧
      ((∀ x ∈ s.me.sends, x.form = 0 ∧ x.dest.getLsbD 19 = false) →
        t.net = s.net ++ (s.me.sends.zipIdx).map (fun x =>
          { pid := s.nextId + x.2, src := s.cur.1, dst := nbits x.1.dest.toNat 12 0, net := x.1.net, since := s.devtime, holds := some s.cur.2,
            body := .message (nbits x.1.dest.toNat 18 13) (payload x.1.data) false s.fabid.toNat s.cur.1 false none 0 }))) ∧
  (∀ p ∈ ([.endTask, .compactEnd] : List Instr), ∀ s : State, s.me.faults = [] → endReady s = false →
    exec p s = .next ((s.onMe (fun t => t.waitIn .stalled .retry)).withLast .waiting)) ∧
  (∀ (d a : BitVec 5) (x y : Bool) (s : State), Ready [rdS s.me a y, wrS s.me d x] s → s.me.pub = false → s.me.sub = false →
    (∀ n l, s.me.wait = .idle n l → n < s.myCore.nextSeq → exec (.idle d a x y) s = .next (s.done 4 (fun t => t.ws d x 1))) ∧
    ((∀ n l, s.me.wait ≠ .idle n l) →
      exec (.idle d a x y) s = .next
        (if s.me.rs a y ≠ 0 ∧ (s.me.rs a y).toNat ≤ s.devtime then s.done 4 (fun t => t.ws d x 0)
         else (s.onMe (fun t => t.waitIn .blocked (.idle s.myCore.nextSeq (s.me.rs a y).toNat))).withLast .waiting)))

/-- A task begins (R34-R36, R42, R44, R285, R286): TASK_START gives the chosen message's task the slot that selection chose, STARTING, with
its registers zero but the window, which holds the payload, its PC, allotment and budget from the handler table entry, and FMT from
DEFFMT with its reserved bits zero; it traps with BUDGET at once where that budget is 0. TASK_RESUME gives the slot the registers of the
task's save image, whose banks can serve it, and what no image holds as it was when the task was saved; MIGRATION_ARRIVAL the strand that
its message carries, under its new channel, its sends still to enter the send queues (R435). How many of the at most 8 core cycles a start
takes is free. What a resumed task keeps beside its image, and that the image is read in one step, are the model's reading (logs 26, 38,
18); that the level shown is the one at which the message was selected, its choice (log 98).
Leaving a slot (R38, R39, R69, R156, R163, R197, R277, R278, R282-R287): TASK_SAVE of a strand whose waits are over first withdraws what
its instruction waits for, and a QPOP.w of it that has been answered completes; then it writes the image line by line, each line one of
the core's 64 remote requests; with the last line its message keeps the image and its slot is free; TRAP_REPORT of a trapped strand with
nothing to drain frees the slot, returns its message to its channel, suspends the channel and makes the report outstanding. -/
def Obligations.TaskBeginAndLeaveResult : Prop :=
  ((∀ (s : State) (i level : Nat) (m : Msg), choose s s.subj.a = some (i, level, m) → m.image = none → m.mig = none →
     let e := (s.core s.subj.a).entry m.chan
     ∃ t u, exec .taskStart s = .next t ∧ t.mem = s.mem ∧ t.slot s.subj.a i = u ∧
       u.st = (if entBits e 127 96 = 0 then .trapping else .starting) ∧ 1 ≤ u.startLeft ∧ u.startLeft ≤ 8 ∧ u.trap.map (·.cause) = (if entBits e 127 96 = 0 then some .budget else none) ∧
       u.chan = m.chan ∧ u.seq = m.seq ∧ u.ctx = entBits e 76 64 ∧ u.level = level ∧ u.pc = BitVec.ofNat 48 (2 * entBits e 47 1) ∧
       u.win = m.pay ∧ u.msgid = m.msgid ∧ u.budget = BitVec.ofNat 32 (entBits e 127 96) ∧
       u.nS = 16 * (entBits e 85 84 + 1) ∧ u.nV = 8 * (entBits e 87 86 + 1) ∧ u.nK = (if entBits e 88 88 = 1 then 8 else 4) ∧
       u.fmt = BitVec.ofNat 27 (nbits (ctxRecord s u.ctx) 90 64) &&& 0x7FF01F3 ∧ (∀ r, u.s r = 0) ∧ (∀ r, u.v r = 0) ∧ (∀ r, r ≠ 0 → u.k r = 0) ∧
       ∀ y ∈ (t.core s.subj.a).rx, y.chan = m.chan → y.seq = m.seq → y.running = true) ∧
   (∀ (s : State) (i level n : Nat) (m : Msg) (k : Strand) (segs : List Seg) (l : List Byte), choose s s.subj.a = some (i, level, m) →
     m.image = some n → m.kept = some k → m.resub = false → s.chans = [] → s.redLines = [] → (s.core s.subj.a).away = [] →
     sendsOf l = [] → nbits (imgNat l 54 1) 2 2 = 0 →
     (hardSegs s (ctxActor s s.subj.a k.ctx) 1 (imagePtr s k.ctx n) 16384).2 = .ok segs →
     (let v := (hardSegs s (ctxActor s s.subj.a k.ctx) 1 (imagePtr s k.ctx n) 16384).1
      segsFree v segs = true ∧ (readSegs v (ctxActor s s.subj.a k.ctx) (imagePtr s k.ctx n) segs).2 = .ok l) →
     ∃ t u, exec .taskResume s = .next t ∧ t.mem = s.mem ∧ t.slot s.subj.a i = u ∧ u.st = .starting ∧ u.task = m.task ∧
       u.ctx = k.ctx ∧ u.asid = k.asid ∧ u.priv = k.priv ∧ u.fromTimed = k.fromTimed ∧ u.nS = k.nS ∧ u.nV = k.nV ∧ u.nK = k.nK ∧
       u.faults = k.faults ∧ u.cause = k.cause ∧ u.epc = k.epc ∧ u.tval = k.tval ∧
       u.pc = BitVec.ofNat 48 (imgNat l 0 8) ∧ u.win = m.pay ∧ u.xi = BitVec.ofNat 16 (imgNat l 52 2) ∧
       (∀ r, r < 64 → r < u.nS → r ≠ 0 → u.s r = word (imgNat l (64 + 8 * r) 8)) ∧
       (∀ r, r < 32 → r < u.nV → u.v r = BitVec.ofNat 128 (imgNat l (576 + 16 * r) 16)) ∧
       n ∉ (t.ctx k.ctx).images) ∧
   (∀ (s : State) (i level : Nat) (m : Msg) (u : Strand), choose s s.subj.a = some (i, level, m) → m.mig = some u →
     entBits ((s.core s.subj.a).entry m.chan) 76 64 = u.ctx →
     ∃ t, exec .migrationArrival s = .next t ∧ t.mem = s.mem ∧
       t.slot s.subj.a i = { u with
         st := .starting, startLeft := 1 + Config.startCycles s.tick % 8, chan := m.chan, seq := m.seq, level := level, timed := false,
         timing := none, started := s.devtime, startNo := s.nextId, entering := true })) ∧
  ((∀ (s v v' : State) (n tc : Nat) (segs : List Seg) (u : Strand), s.slot s.subj.a s.subj.b = u → u.st = .saving → u.saveTo = some n →
     poppedBy s u = none → (u.savePos = 0 → saveReady s u = true) → mapsHold s s.subj.a s.subj.b u = false →
     remoteCount s s.subj.a < 64 → u.why = .preempt → s.subj.b < 4 →
     let p := ptrAdd (imagePtr s u.ctx n) u.savePos
     let s' := perf (if u.savePos = 0 then withdrawWaits s u.task else s) s.subj.a 0x13 1
     hardSegs s' (ctxActor s' s.subj.a u.ctx) 2 p 64 = (v', .ok segs) → segsFree v' segs = true →
     writeRange v' (ctxActor s' s.subj.a u.ctx) p (((imageBytes u s.subj.b u.sub false).drop u.savePos).take 64) segs = (v, .ok tc) →
     (u.savePos + 64 < 16384 →
       ∃ t, exec .taskSave s = .next t ∧ t.mem = v.mem ∧ t.slot s.subj.a s.subj.b = { u with savePos := u.savePos + 64 }) ∧
     (16384 ≤ u.savePos + 64 → (s.ctx u.ctx).mapkeep = false →
       ∃ t, exec .taskSave s = .next t ∧ t.mem = v.mem ∧ (t.slot s.subj.a s.subj.b).st = .free ∧
         ∀ m ∈ (t.core s.subj.a).rx, m.chan = u.chan → m.seq = u.seq →
           m.running = false ∧ m.image = some n ∧ m.task = u.task ∧ m.kept = some u)) ∧
   (∀ (s : State) (o : Op) (l : List Nat) (n : Nat) (u : Strand), s.slot s.subj.a s.subj.b = u → u.st = .saving → u.saveTo = some n →
     poppedBy s u = some (o, l) → s.subj.b < 4 →
     ∃ t, exec .taskSave s = .next t ∧ t.mem = s.mem ∧ findOp t o.id = none ∧ (t.slot s.subj.a s.subj.b).pc = u.pc + 4 ∧
       ∀ r, (t.slot s.subj.a s.subj.b).s r = (u.setRegs (o.members.map Reg.s) l).s r) ∧
   (∀ (s : State) (u : Strand) (tr : TrapInfo), s.slot s.subj.a s.subj.b = u → u.st = .trapping → u.trap = some tr →
     s.clusters = [] → s.ops = [] →
     ∃ t, exec .trapReport s = .next t ∧ t.mem = s.mem ∧ (t.slot s.subj.a s.subj.b).st = .free ∧
       u.chan ∈ (t.core s.subj.a).suspended ∧
       (∀ m ∈ (t.core s.subj.a).rx, m.chan = u.chan → m.seq = u.seq → m.running = false ∧ m.image = none) ∧
       t.reports = s.reports ++ [{ id := reportId s.subj.a s.subj.b u.chan u.ctx, kind := .trap, core := s.subj.a, chan := u.chan,
                                   seq := u.seq, ctx := u.ctx, channels := [(s.subj.a, u.chan)] }]))

/-- The scheduler's other steps (R40, R41, R42, R47, R257, R260, R405): a blocked strand whose wait is over is READY again; an arrival of a
higher level and a capped budget that is used up begin a save to the lowest free image of the context, the latter trapping with BUDGET
where none is free; a budget that is used up traps with BUDGET; at a frame's end the untimed strands of a core with reserved slots are
capped; a channel that has been runnable for the ageing step rises a level.
Contexts (R27, R153, R276): asked by the host driver or a privileged strand, CONTEXT_CREATE writes the context's 64-byte record and its
ASID record, reserved bits zero, where another context that lives uses the ASID with a PHWM that does not fall, and CONTEXT_DESTROY leaves no
group, launch or outstanding report of the context; any other strand's asking changes nothing. The form in which the records come to the
event, that a destroyed context's launches are dropped, and the form in which a privileged strand asks, are the model's (logs 10, 44, 16). -/
def Obligations.SchedulerAndContextResult : Prop :=
  ((∀ s : State, let u := s.slot s.subj.a s.subj.b
     (u.st = .blocked → waitOver s s.subj.a u = true →
       exec .wakeUp s = .next (s.setSlot s.subj.a s.subj.b { u with st := .ready })) ∧
     (∀ n l, u.wait = .idle n l → u.st = .blocked → l ≠ 0 → l ≤ s.devtime →
       exec .idleTimeLimit s = .next (s.setSlot s.subj.a s.subj.b { u with st := .ready })) ∧
     (u.capped.isSome = true → u.st = .ready →
       (∀ n, freeImage s u.ctx = some n →
         exec .budgetExpiry s = .next (s.savingTo s.subj.a s.subj.b n .capped)) ∧
       (freeImage s u.ctx = none → s.subj.b < 4 →
         ∃ t, exec .budgetExpiry s = .next t ∧ (t.slot s.subj.a s.subj.b).st = .trapping ∧
           (t.slot s.subj.a s.subj.b).trap = some { cause := .budget, code := 0x0B, sub := 1, async := false, epc := u.pc.toNat,
                                                    tval := 0, time := s.devtime })) ∧
     (u.capped = none → u.st = .ready → u.unb = false → u.budget = 0 → s.subj.b < 4 →
       ∃ t, exec .budgetExpiry s = .next t ∧ t.mem = s.mem ∧ (t.slot s.subj.a s.subj.b).st = .trapping ∧
         (t.slot s.subj.a s.subj.b).trap = some { cause := .budget, code := 0x0B, sub := 0, async := false, epc := u.pc.toNat,
                                                  tval := 0, time := s.devtime })) ∧
   (∀ (s : State) (i n : Nat), arrivalVictim s s.subj.a = some i → freeImage s (s.slot s.subj.a i).ctx = some n →
     exec .preemptionByArrival s = .next (s.savingTo s.subj.a i n .preempt)) ∧
   (∀ (s : State) (i : Nat), i < 4 → (s.core s.subj.a).rsv ≠ 0 → (s.core s.subj.a).capFrame < s.devtime / 10000 →
     (s.slot s.subj.a i).st = .ready → (s.slot s.subj.a i).timed = false → (s.slot s.subj.a i).capped = none →
     (s.slot s.subj.a i).started < s.devtime / 10000 * 10000 →
     ∃ t, exec .untimedCapExpiry s = .next t ∧
       t.slot s.subj.a i = { s.slot s.subj.a i with capped := some (s.slot s.subj.a i).budget, budget := 0 }) ∧
   (∀ (s : State) (n since : Nat), mapGet (0, 0) (s.core s.subj.a).ages s.subj.b = (n, since) → ages s s.subj.a s.subj.b = true →
     ageStep s s.subj.a ≤ since →
     ∃ t, exec .ageingStep s = .next t ∧ aged (t.core s.subj.a) s.subj.b = n + 1 ∧ t.mem = s.mem)) ∧
  ((∀ s : State, byPrivileged s = true → s.redLines = [] → s.monitors = [] →
     ∃ t, exec .contextCreate s = .next t ∧
       Wrote s t (s.ctxtable.toNat % 2 ^ 40 + 64 * (s.subj.a % 8192)) 64 (s.subj.d.toNat % 2 ^ 512) (2 ^ 64 - 1) ∧
       (let v := s.subj.d.toNat / 2 ^ 512
        let a := nbits s.subj.d.toNat 12 0
        (asidLive s a (s.subj.a % 8192) = false → t.asid a =
          nbits v 39 0 + nbits v 91 52 * 2 ^ 52 + nbits v 107 104 * 2 ^ 104 + nbits v 207 112 * 2 ^ 112) ∧
        (asidLive s a (s.subj.a % 8192) = true → nbits (t.asid a) 159 112 = max (nbits (s.asid a) 159 112) (nbits v 159 112))) ∧
       t.cores = s.cores) ∧
   (∀ s : State, byPrivileged s = false → exec .contextCreate s = .next s ∧ exec .contextDestroy s = .next s) ∧
   (∀ s : State, byPrivileged s = true → let x := s.subj.a % 8192
     ∃ t, exec .contextDestroy s = .next t ∧ (∀ k g, k = x * 4096 + g → g < 4096 → members t k = []) ∧
       (∀ d ∈ t.dies, ∀ l ∈ d.2.launches, l.ctx ≠ x) ∧ (∀ r ∈ t.reports, r.ctx ≠ x)))

/-- The save image (R282, R286; Table 14.3): what a resumed strand takes from an image is what the saved strand held, within its
allotment: PC, MSGID, the budget left and whether it is bounded, FMT's fields, the extension registers, xi, H, scalar, vector and mask registers, and the watch registers with their reserved bits zero. -/
def Obligations.SaveImageRoundTrip : Prop :=
  ∀ (t u : Strand) (slot : Nat) (lost stopped : Bool), u.nS = t.nS → u.nV = t.nV → u.nK = t.nK →
    let r := imageStrand (imageBytes t slot lost stopped) u
    r.pc = t.pc ∧ r.msgid = t.msgid ∧ r.budget = t.capped.getD t.budget ∧ r.unb = t.unb ∧ r.fmt = t.fmt &&& 0x7FF01F3 ∧ r.xi = t.xi ∧ (t.hor < 2 ^ 64 → r.hor = t.hor) ∧
      (∀ i, i < 4 → r.e i = t.e i) ∧ (∀ i, i < t.nS → r.s i = t.s i) ∧ (∀ i, i < t.nV → r.v i = t.v i) ∧
      (∀ i, i < t.nK → r.k i = t.k i) ∧ r.watch = t.watch.map (fun w => w &&& ~~~0x3C)

/-! ## The matrix engine -/

/-- CLAIM, RELEASE and TSCALE (R203, R206, R207, R216, R369, R463, R493), outside a lockstep group: CLAIM of slots and accumulators that
nobody else owns makes them the context's, those newly claimed zeroed with scale 1.0 and no mark, and changes no other owner; one that
another context owns traps with SLOT and its number; RELEASE of claimed ones that no queued entry names frees them; TSCALE sets the scale
of a claimed slot.
The matrix forms as they issue (R209, R214, R215, R217-R223, R485, R489, R491, R494-R496): with their registers at hand, the slots and
accumulators claimed, descriptors and pointers accepted, no mark set and room in the tile queue, TLOAD, TMMA, TSMMA, TZERO and TSTORE
complete with their entry in the queue, counted in tl, the transfers where no acquire is outstanding (R164) and the pages of their rows
are translated (R154); TACCV writes four vector
registers from 16 words of an accumulator row that no queued entry writes. -/
def Obligations.TileIssueResult : Prop :=
  ((∀ (d : BitVec 5) (s : State), Ready [rdS s.me d false] s → s.me.pub = false → s.me.sub = false → s.cur.2 < 4 →
     let g := s.myCluster
     let v := s.me.rs d false
     let mine := fun n => tileOwner (s.cluster g) n = none ∨ tileOwner (s.cluster g) n = some s.me.ctx
     bits v 63 48 = 0 →
     ((∀ n ∈ requested v, mine n) →
       ∃ t, exec (.claim d) s = .next t ∧ t.last = .completed ∧ t.mem = s.mem ∧ t.me = s.me.goAt (s.me.pc + 4) ∧
         (∀ n, n < 48 → tileOwner (t.cluster g) n =
           if n ∈ requested v then some s.me.ctx else tileOwner (s.cluster g) n) ∧
         (∀ n, n < 32 → n ∈ requested v → tileOwner (s.cluster g) n = none →
           mapGet 0x3F800000 (t.cluster g).scales n = 0x3F800000 ∧ mapGet? (t.cluster g).marks n = none ∧
           ∀ b, b < 8192 → mapGet 0 (t.cluster g).slotMem (n * 8192 + b) = 0) ∧
         (∀ a i j, a < 16 → i < 64 → j < 64 → 32 + a ∈ requested v → tileOwner (s.cluster g) (32 + a) = none →
           accWord (t.cluster g) a i j = 0)) ∧
     (∀ n, (requested v).find? (fun n => (tileOwner (s.cluster g) n).isSome && !claimed s n) = some n →
       exec (.claim d) s = .next (takeTrap s .slot 0x0D 0 (word n)))) ∧
   (∀ (d : BitVec 5) (s : State), Ready [rdS s.me d false] s → s.me.pub = false → s.me.sub = false → s.cur.2 < 4 →
     let g := s.myCluster
     let v := s.me.rs d false
     bits v 63 48 = 0 → (∀ n ∈ requested v, claimed s n = true) →
     (∀ e ∈ (s.cluster g).tileq, ∀ n ∈ requested v, namesResource e n = false) →
     ∃ t, exec (.release d) s = .next t ∧ t.last = .completed ∧ t.mem = s.mem ∧ t.me = s.me.goAt (s.me.pc + 4) ∧
       ∀ n, n < 48 → tileOwner (t.cluster g) n = if n ∈ requested v then none else tileOwner (s.cluster g) n) ∧
   (∀ (d a : BitVec 5) (s : State), Ready [rdS s.me a false] s → s.me.pub = false → s.me.sub = false → s.cur.2 < 4 →
     claimed s d.toNat = true →
     ∃ t, exec (.tscale d a) s = .next t ∧ t.last = .completed ∧ t.mem = s.mem ∧ t.me = s.me.goAt (s.me.pc + 4) ∧
       ∀ n, mapGet 0x3F800000 (t.cluster s.myCluster).scales n =
         if n = d.toNat then (s.me.rs a false).setWidth 32 else mapGet 0x3F800000 (s.cluster s.myCluster).scales n)) ∧
  ((∀ (d a b : BitVec 5) (segs : List Seg) (s : State), Ready [rdS s.me a false, rdS s.me b false] s → TileFree s →
     let p := s.me.rs a false
     let v := s.me.rs b false
     acquiring s = false → tloadBad v = false → claimed s d.toNat = true → EnginePtr 6 16 p →
     pageMissing s (rowPages p (16 * bits v 31 16) (16 * bits v 15 8) (bits v 7 0 + 1)) = none →
     (bits v 38 38 = 1 → d.toNat % 2 = 0 ∧ claimed s (d.toNat + 1) = true) →
     rowSegs s s.actor 1 p (16 * bits v 31 16) (16 * bits v 15 8) (List.range (bits v 7 0 + 1)) = .ok segs →
     ∃ t, exec (.tload d a b) s = .next t ∧ TileEntered s t { tileEntry s .tload with
       td := d.toNat, args := [p, v], src := segs, wrS := if bits v 38 38 = 1 then [d.toNat, d.toNat + 1] else [d.toNat]
       device := !nearCluster s.myCluster segs }) ∧
   (∀ (d a b : BitVec 5) (s : State), TileFree s → MulOk s d.toNat a.toNat b.toNat →
     ∃ t, exec (.tmma d a b) s = .next t ∧ TileEntered s t (mulEntry s .tmma d.toNat a.toNat b.toNat
       (List.replicate (s.me.e 0).toNat ((List.range (s.me.e 2).toNat).map (fun i => (i, i)))))) ∧
   (∀ (d a b r : BitVec 5) (kept : List (List (Nat × Nat))) (s : State), Ready [rdS s.me r false] s → TileFree s →
     MulOk s d.toNat a.toNat b.toNat →
     let v := s.me.rs r false
     let x := sparsityOf v
     sparsityBad v (s.me.e 3).toNat (fmtNxa s.me.fmt) (s.me.e 2).toNat = false → claimed s x.slot = true →
     joinAll ((List.range (s.me.e 0).toNat).map (keptLine x (s.cluster s.myCluster) (s.me.e 2).toNat)) = .ok kept →
     ∃ t e, exec (.tsmma d a b r) s = .next t ∧ e = mulEntry s .tsmma d.toNat a.toNat b.toNat kept ∧
       TileEntered s t { e with rdS := e.rdS ++ [x.slot] }) ∧
   (∀ (d : BitVec 5) (s : State), TileFree s → claimed s (32 + d.toNat) = true →
     ∃ t, exec (.tzero d) s = .next t ∧ TileEntered s t { tileEntry s .tzero with td := d.toNat, wrA := [d.toNat] }) ∧
   (∀ (d a b : BitVec 5) (segs : List Seg) (s : State), Ready [rdS s.me a false, rdS s.me b false] s → TileFree s →
     let p := s.me.rs a false
     let v := s.me.rs b false
     acquiring s = false → claimed s (32 + d.toNat) = true → tstoreBad v = false → EnginePtr 4 16 p →
     pageMissing s (rowPages p (16 * bits v 31 16) (storeRowBytes (bits v 35 32) (bits v 15 8 + 1)) (bits v 7 0 + 1)) = none →
     rowSegs s s.actor 2 p (16 * bits v 31 16) (storeRowBytes (bits v 35 32) (bits v 15 8 + 1)) (List.range (bits v 7 0 + 1)) = .ok segs →
     ∃ t, exec (.tstore d a b) s = .next t ∧ TileEntered s t { tileEntry s .tstore with
       td := d.toNat, args := [p, v, s.me.msgid, word s.me.chan, word s.me.seq], dst := segs, rdA := [d.toNat]
       device := !nearCluster s.myCluster segs }) ∧
   (∀ (d a r : BitVec 5) (s : State), Ready [rdS s.me r false] s →
     Ready ((List.range 4).map (fun i => ⟨1, ((d.toNat + i : Nat) : Int), false, true⟩)) s → claimed s (32 + a.toNat) = true →
     bits (s.me.rs r false) 63 8 = 0 → (∀ e ∈ (s.cluster s.myCluster).tileq, e.wrA.contains a.toNat = false) →
     let v := s.me.rs r false
     exec (.taccv d a r) s = .next (s.done 4 (fun t => (List.range 4).foldl (fun t i =>
       t.setV (d.toNat + i) (accVec (s.cluster s.myCluster) a.toNat (bits v 5 0) (16 * bits v 7 6 + 4 * i))) t))))

/-- TILE_OP_COMPLETE (R211, R215, R217, R225): an entry at the head of what it follows is performed: a multiply replaces each element of its
M by N block by the value with its terms added, a clear zeroes its accumulator, a TLOAD whose line can be reached puts it into its slot and
gives its credit, a TSTORE writes its next row, with the rows after it that share its last unit (R171), and holds their credits back until
their completion time (R170); a multiply and a clear leave the queue and their issuer's tl falls. That lines and rows are taken in ascending
order is the model's choice (log 75), and so is that a whole line or row moves in one step (log 9). A TSTORE stopped by a late fault leaves
the queue with the fault deferred to a WAIT of its issuer (R158), its flags not raised (the model's choice, log 93). -/
def Obligations.TilePerform : Prop :=
  (∀ (s : State) (e : TileOp) (c i : Nat), tileReady s s.subj.a s.subj.b = some e → s.taskSlot e.task = some (c, i) → i < 4 →
    e.shared = [] → e.device = false → e.kind = .tmma ∨ e.kind = .tsmma ∨ e.kind = .tzero →
    ∃ t, exec .tileOpComplete s = .next t ∧ t.mem = s.mem ∧ t.slot c i = (s.slot c i).fall .tl ∧
      (t.cluster s.subj.a).tileq = (s.cluster s.subj.a).tileq.filter (fun x => x.n != e.n) ∧
      ∀ a j k, j < 64 → k < 64 → (e.e[0]?).getD 0 ≤ 64 → (e.e[1]?).getD 0 ≤ 64 →
        let old := accWord (s.cluster s.subj.a) a j k
        accWord (t.cluster s.subj.a) a j k =
          if a ≠ e.td then old
          else if e.kind = .tzero then 0
          else if j < (e.e[0]?).getD 0 ∧ k < (e.e[1]?).getD 0 then
            let pitch := if (e.e[3]?).getD 0 = 3 then 256 else 128
            BitVec.ofNat 32 (mulCell e ((e.kept[j]?).getD []) (slotLine (s.cluster s.subj.a) e.ta j pitch)
              (slotLine (s.cluster s.subj.a) e.tb k pitch) old.toNat)
          else old) ∧
  (∀ (s u : State) (e : TileOp) (p v : Word) (l : List Byte), tileReady s s.subj.a s.subj.b = some e → e.kind = .tload →
    e.args = [p, v] → s.redLines = [] → segsFree s (rowOf e.src (16 * bits v 15 8) e.pos) = true →
    (∀ x ∈ rowOf e.src (16 * bits v 15 8) e.pos, keyReady s e.core x.key = true) →
    readSegs { s with portWaits := mapDel s.portWaits e.n } e.actor (ptrAdd p (16 * bits v 31 16 * e.pos)) (rowOf e.src (16 * bits v 15 8) e.pos) = (u, .ok l) → l.length ≤ 256 →
    ∃ t, exec .tileOpComplete s = .next t ∧ t.mem = s.mem ∧ slotLine (t.cluster s.subj.a) e.td e.pos l.length = l ∧
      (bits v 37 37 = 1 → (t.cluster s.subj.a).credits = (s.cluster s.subj.a).credits ++ [(bits v 36 32, 16 * bits v 15 8, 0)])) ∧
  (∀ (s u : State) (e : TileOp) (p v : Word) (rest : List Word) (tc : Nat), tileReady s s.subj.a s.subj.b = some e → e.kind = .tstore →
    e.args = p :: v :: rest → e.fault = none → e.pos < bits v 7 0 + 1 →
    let len := storeRowBytes (bits v 35 32) (bits v 15 8 + 1)
    let row := rowOf e.dst len e.pos
    (e.pos < bits v 7 0 → rowsMeet e.dst len e.pos = false) → segsFree s row = true → (∀ x ∈ row, keyReady s e.core x.key = true) →
    writeRange { s with portWaits := mapDel s.portWaits e.n } e.actor (ptrAdd p (16 * bits v 31 16 * e.pos))
      (storeRow (s.cluster s.subj.a) e e.pos).1 row = (u, .ok tc) →
    ∃ t, exec .tileOpComplete s = .next t ∧ t.mem = u.mem ∧
      (bits v 41 41 = 0 → (t.cluster s.subj.a).tileq = (u.cluster s.subj.a).tileq.map (fun x =>
        if x.n = e.n then { x with pos := e.pos + 1, tc := Nat.max e.tc tc } else x))) ∧
  (∀ (s u : State) (e : TileOp) (tc next : Nat), tileReady s s.subj.a s.subj.b = some e → e.kind = .tstore →
    e.fault = none → e.pos < tstoreRows e →
    let rows := (rowsFrom (tstoreMeets e) (tstoreRows e) e.pos).flatMap (rowOf e.dst (tstoreLen e))
    segsFree s rows = true → (∀ x ∈ rows, keyReady s e.core x.key = true) →
    writeRows (tstoreRow s.subj.a e) (tstoreMeets e) (tstoreRows e) { s with portWaits := mapDel s.portWaits e.n } e.pos 0 =
      (u, .ok (tc, next)) →
    exec .tileOpComplete s = .next (onTile u s.subj.a e.n (fun e => { e with pos := next, tc := Nat.max e.tc tc }))) ∧
  (∀ (s : State) (e : TileOp) (f : Flt) (c i : Nat), tileReady s s.subj.a s.subj.b = some e → e.kind = .tstore → e.fault = some f →
    e.device = false → e.shared = [] → s.taskSlot e.task = some (c, i) → i < 4 →
    ∃ t, exec .tileOpComplete s = .next t ∧ t.mem = s.mem ∧
      (t.cluster s.subj.a).tileq = (s.cluster s.subj.a).tileq.filter (fun x => x.n != e.n) ∧
      t.slot c i = { (s.slot c i).fall .tl with faults := (s.slot c i).faults ++
        [{ op := e.n, regs := [], ctr := some .tl, upd := false, cause := f.1, sub := f.2.1, tval := f.2.2, pc := e.pc }] })

/-- The INT8 multiply (R132, R215): an element takes the exact sum of the products of its line of A and its line of B, modulo 2^32. -/
def Obligations.Int8Multiply : Prop :=
  ∀ (e : TileOp) (k c : Nat) (la lb : List Byte), e.e[3]? = some 2 → k ≤ 512 →
    (mulCell e ((List.range k).map (fun i => (i, i))) la lb c : Int) % 2 ^ 32 =
      ((c : Int) + ((List.range k).map (fun i => lineI8 la i * lineI8 lb i)).sum) % 2 ^ 32

/-! ## The Fuller unit -/

/-- The Fuller forms as they issue (R228-R230, R234, R236, R239-R242, R490; Table 11.3): with their registers at hand, their maps in the
state that they need and unmarked, slots and accumulators claimed, descriptors, pointers and rows accepted, room in the tile queue and,
for a form that accesses memory, no acquire outstanding (R164) and its pages translated (R154), each completes with its entry in the queue, counted in tl, and gives its map
its new state at once; TMAPLOAD once the release at its fork has been made (R169). TMAPFREE of a map that no entry names frees it. -/
def Obligations.FullerIssue : Prop :=
  (∀ (d a b : BitVec 5) (s : State), Ready [rdS s.me a false, rdS s.me b false] s → TileFree s →
    let v := s.me.rs a false
    let w := s.me.rs b false
    let n := bits v 11 0 + 1
    let slots := keySlots n (bits v 17 12 + 1) (bits v 23 19)
    bits v 63 29 = 0 → n ≠ 1 → (bits v 17 12 + 1 ≤ 32 ∨ n ≤ 2048) → bits v 23 19 + slots.length ≤ 32 →
    (n < 64 → bits w 63 n = 0) → (∀ k ∈ slots, claimed s k = true) → (s.cluster s.myCluster).marks = [] → EntryFree s d.toNat →
    ∃ t, exec (.tmatch d a b) s = .next t ∧
      TileEntered s t { tileEntry s .tmatch with
        td := d.toNat, ta := bits v 28 24, args := [v, w], rdS := slots, wrM := [mapKey s.me.ctx d.toNat] } ∧
      myMap t d.toNat = { myMap s d.toNat with st := .matched, n := n, n' := n, depth := 0, protect := w, mark := none }) ∧
  (∀ (d a b r : BitVec 5) (src dst : List Seg) (s : State), Ready [rdS s.me a false, rdS s.me b false, rdS s.me r false] s → TileFree s →
    let m := myMap s d.toNat
    let e0 := (s.me.e 0).toNat
    let v := s.me.rs r false
    acquiring s = false → MapIn s d.toNat .matched → e0 ≤ (sideTokens m.n m.protect 0).length → (0 < e0 → sideTokens m.n m.protect 1 ≠ []) →
    RowsOk s (s.me.rs a false) (s.me.rs b false) v m.n (m.n - e0) src dst →
    ∃ t, exec (.tmerge d a b r) s = .next t ∧
      TileEntered s t { tileEntry s .tmerge with
        td := d.toNat, args := [s.me.rs a false, s.me.rs b false, v], e := [e0], src := src, dst := dst, map := m
        rdM := [mapKey s.me.ctx d.toNat], wrM := [mapKey s.me.ctx d.toNat], device := !nearCluster s.myCluster (src ++ dst) } ∧
      myMap t d.toNat = { m with st := .merged, n' := m.n - e0, depth := 1 }) ∧
  (∀ (d a b r : BitVec 5) (src dst : List Seg) (s : State), Ready [rdS s.me a false, rdS s.me b false, rdS s.me r false] s → TileFree s →
    let m := myMap s d.toNat
    let v := s.me.rs r false
    acquiring s = false → MapIn s d.toNat .merged → RowsOk s (s.me.rs a false) (s.me.rs b false) v m.n' m.n src dst →
    ∃ t, exec (.tunmerge d a b r) s = .next t ∧
      TileEntered s t { tileEntry s .tunmerge with
        td := d.toNat, args := [s.me.rs a false, s.me.rs b false, v], e := [0], src := src, dst := dst, map := m
        rdM := [mapKey s.me.ctx d.toNat], device := !nearCluster s.myCluster (src ++ dst) }) ∧
  (∀ (d a r : BitVec 5) (s : State), Ready [rdS s.me r false] s → TileFree s → claimed s (32 + d.toNat) = true →
    MapIn s a.toNat .merged → 1 ≤ (s.me.e 0).toNat → (s.me.e 0).toNat ≤ 64 → 1 ≤ (s.me.e 1).toNat → (s.me.e 1).toNat ≤ 64 →
    bits (s.me.rs r false) 63 12 = 0 →
    ∃ t, exec (.tmsize d a r) s = .next t ∧ TileEntered s t { tileEntry s .tmsize with
      td := d.toNat, ta := a.toNat, args := [s.me.rs r false], e := [(s.me.e 0).toNat, (s.me.e 1).toNat], map := myMap s a.toNat
      rdA := [d.toNat], wrA := [d.toNat], rdM := [mapKey s.me.ctx a.toNat] }) ∧
  (∀ (d a b : BitVec 5) (s : State), TileFree s → MapIn s a.toNat .merged → MapIn s b.toNat .merged → EntryFree s d.toNat →
    let x := myMap s a.toNat
    let y := myMap s b.toNat
    y.n = x.n' → x.depth + y.depth ≤ 8 →
    ∃ t, exec (.tmapcomp d a b) s = .next t ∧
      TileEntered s t { tileEntry s .tmapcomp with
        td := d.toNat, ta := a.toNat, tb := b.toNat, rdM := [mapKey s.me.ctx a.toNat, mapKey s.me.ctx b.toNat]
        wrM := [mapKey s.me.ctx d.toNat] } ∧
      myMap t d.toNat = { myMap s d.toNat with st := .merged, n := x.n, n' := y.n', depth := x.depth + y.depth, mark := none }) ∧
  (∀ (d : BitVec 5) (s : State), TileFree s →
    (∀ e ∈ (s.cluster s.myCluster).tileq, mapKey s.me.ctx d.toNat ∉ e.rdM ∧ mapKey s.me.ctx d.toNat ∉ e.wrM) →
    ∃ t, exec (.tmapfree d) s = .next t ∧ t.last = .completed ∧ t.mem = s.mem ∧ t.me = s.me.goAt (s.me.pc + 4) ∧ myMap t d.toNat = {}) ∧
  (∀ (d a : BitVec 5) (segs : List Seg) (s : State), Ready [rdS s.me a false] s → TileFree s → acquiring s = false →
    MapIn s d.toNat .merged → EnginePtr 4 64 (s.me.rs a false) → pageMissing s (rangePages (s.me.rs a false) 16448) = none →
    rangeSegs s s.actor 2 (s.me.rs a false) 16448 = .ok segs →
    ∃ t, exec (.tmapsave d a) s = .next t ∧ TileEntered s t { tileEntry s .tmapsave with
      td := d.toNat, args := [s.me.rs a false], dst := segs, map := myMap s d.toNat, rdM := [mapKey s.me.ctx d.toNat]
      device := !nearCluster s.myCluster segs }) ∧
  (∀ (d a : BitVec 5) (segs : List Seg) (h : List Byte) (s : State), Ready [rdS s.me a false] s → TileFree s → EntryFree s d.toNat →
    acquiring s = false → s.redLines = [] → EnginePtr 4 64 (s.me.rs a false) →
    pageMissing s (rangePages (s.me.rs a false) 16448) = none →
    rangeSegs s s.actor 1 (s.me.rs a false) 16448 = .ok segs →
    forked s s.me.task s.nextId s.me.hor (!nearCluster s.myCluster segs) = true → segsFree s (segs.take 1) = true →
    (readSegs s s.actor (s.me.rs a false) ((segs.take 1).map (fun g => { g with len := Nat.min g.len 64 }))).2 = .ok h →
    mapHeaderOk h = true →
    let x := mapOfImage d.toNat h
    ∃ t, exec (.tmapload d a) s = .next t ∧
      TileEntered s t { tileEntry s .tmapload with
        td := d.toNat, args := [s.me.rs a false], src := segs, map := x, wrM := [mapKey s.me.ctx d.toNat]
        device := !nearCluster s.myCluster segs } ∧
      (myMap t d.toNat).st = .merged ∧ (myMap t d.toNat).n = x.n ∧ (myMap t d.toNat).n' = x.n' ∧ (myMap t d.toNat).depth = x.depth)

/-- FULLER_OP_COMPLETE and MAP_RELOAD (R229, R235, R237, R239, R240, R241, R243, R244). In its turn, a match gives every A token the B token
of greatest similarity, the lowest of those that are equal, and clears its map's mark; a merge and an unmerge write their next rows, with
those that share a unit (R171), and at its end a merge gives its map the plan's destinations and sizes; TMSIZE adds each size's bias to its
column; TMAPCOMP composes the destinations and clears the mark; a save writes the map's image; a load or a reload takes its next line; an
entry that is not the Fuller's turn is not performed. A reload of a SAVED identifier enters the tile queue and makes it MERGED. That a
destination a faulted load or merge has not given reads as 0, and such a size as 1, is the model's choice (log 94). -/
def Obligations.FullerPerform : Prop :=
  (∀ (s : State) (e : TileOp) (v w : Word), tileReady s s.subj.a s.subj.b = some e →
    fullerTurn s s.subj.a s.subj.b = true → e.kind = .tmatch → e.args = [v, w] → sideTokens (bits v 11 0 + 1) w 1 ≠ [] →
    let sim := fun (a b : Nat) => similarity (if bits v 18 18 = 0 then f16 else bf16) (keyOf (s.cluster s.subj.a) v a) (keyOf (s.cluster s.subj.a) v b)
    ∃ t, exec .fullerOpComplete s = .next t ∧ t.mem = s.mem ∧ (t.fmap s.subj.a e.ctx e.td).mark = none ∧
      (t.fmap s.subj.a e.ctx e.td).best.map (·.1) = sideTokens (bits v 11 0 + 1) w 0 ∧
      (∀ x ∈ (t.fmap s.subj.a e.ctx e.td).best, x.2.1 ∈ sideTokens (bits v 11 0 + 1) w 1 ∧ x.2.2 = sim x.1 x.2.1 ∧
        ∀ b ∈ sideTokens (bits v 11 0 + 1) w 1, fpLt (fpOf f32 x.2.2) (fpOf f32 (sim x.1 b)) = false ∧
          (b < x.2.1 → fpLt (fpOf f32 (sim x.1 b)) (fpOf f32 x.2.2) = true)) ∧
      (t.fmap s.subj.a e.ctx e.td).sizes =
        if bits v 29 29 = 1 then (s.fmap s.subj.a e.ctx e.ta).sizes else List.replicate (bits v 11 0 + 1) 1) ∧
  (∀ (s u : State) (e : TileOp) (tc next : Nat), tileReady s s.subj.a s.subj.b = some e →
    fullerTurn s s.subj.a s.subj.b = true → e.kind = .tmerge → e.fault = none →
    let m := s.fmap s.subj.a e.ctx e.td
    let p := mergePlan e.map.n ((e.e[0]?).getD 0) m.best
    let rows := fullerSegs e (fun n => let i := (p.live[n]?).getD 0; i :: foldedInto p i)
      (rowsFrom (destsMeet e p.live.length) p.live.length e.pos)
    e.pos < p.live.length → segsFree s rows = true → (∀ x ∈ rows, keyReady s e.core x.key = true) →
    writeRows (tmergeRow e p m.sizes) (destsMeet e p.live.length) p.live.length { s with portWaits := mapDel s.portWaits e.n } e.pos 0 =
      (u, .ok (tc, next)) →
    exec .fullerOpComplete s = .next (onTile u s.subj.a e.n (fun e => { e with pos := next, tc := Nat.max e.tc tc }))) ∧
  (∀ (s : State) (e : TileOp), tileReady s s.subj.a s.subj.b = some e →
    fullerTurn s s.subj.a s.subj.b = true → e.kind = .tmerge → e.fault = none → (e.device = true → e.tc ≤ s.devtime) →
    let m := s.fmap s.subj.a e.ctx e.td
    let p := mergePlan e.map.n ((e.e[0]?).getD 0) m.best
    p.live.length ≤ e.pos →
    ∃ t, exec .fullerOpComplete s = .next t ∧ t.mem = s.mem ∧ (t.fmap s.subj.a e.ctx e.td).dest = p.dest ∧
      (t.fmap s.subj.a e.ctx e.td).sizes = p.live.map (mergedSize p m.sizes) ∧
      (t.cluster s.subj.a).tileq = (s.cluster s.subj.a).tileq.filter (fun x => x.n != e.n)) ∧
  (∀ (s u : State) (e : TileOp) (tc next : Nat), tileReady s s.subj.a s.subj.b = some e →
    fullerTurn s s.subj.a s.subj.b = true → e.kind = .tunmerge → e.fault = none → e.pos < e.map.n →
    let rows := fullerSegs e (fun n => [((s.fmap s.subj.a e.ctx e.td).dest[n]?).getD 0]) (rowsFrom (destsMeet e e.map.n) e.map.n e.pos)
    segsFree s rows = true → (∀ x ∈ rows, keyReady s e.core x.key = true) →
    writeRows (tunmergeRow s.subj.a e) (destsMeet e e.map.n) e.map.n { s with portWaits := mapDel s.portWaits e.n } e.pos 0 = (u, .ok (tc, next)) →
    exec .fullerOpComplete s = .next (onTile u s.subj.a e.n (fun e => { e with pos := next, tc := Nat.max e.tc tc }))) ∧
  (∀ (s : State) (e : TileOp), tileReady s s.subj.a s.subj.b = some e →
    fullerTurn s s.subj.a s.subj.b = true → e.kind = .tmapcomp →
    ∃ t, exec .fullerOpComplete s = .next t ∧ t.mem = s.mem ∧ (t.fmap s.subj.a e.ctx e.td).mark = none ∧
      (t.fmap s.subj.a e.ctx e.td).dest =
        (s.fmap s.subj.a e.ctx e.ta).dest.map (fun i => ((s.fmap s.subj.a e.ctx e.tb).dest[i]?).getD 0) ∧
      (t.fmap s.subj.a e.ctx e.td).sizes = (s.fmap s.subj.a e.ctx e.tb).sizes) ∧
  (∀ (s : State) (e : TileOp) (v : Word) (m n : Nat), tileReady s s.subj.a s.subj.b = some e →
    fullerTurn s s.subj.a s.subj.b = true → e.kind = .tmsize → e.args = [v] →
    e.e = [m, n] → m ≤ 64 → n ≤ 64 →
    ∃ t, exec .fullerOpComplete s = .next t ∧ t.mem = s.mem ∧ ∀ i j, i < 64 → j < 64 →
      let old := accWord (s.cluster s.subj.a) e.td i j
      accWord (t.cluster s.subj.a) e.td i j =
        if i < m ∧ j < n ∧ bits v 11 0 + j < e.map.n' then
          BitVec.ofNat 32 (accAdd old.toNat
            (fpOf f32 (sizeBias (((s.fmap s.subj.a e.ctx e.ta).sizes[bits v 11 0 + j]?).getD 1))))
        else old) ∧
  (∀ (s u : State) (e : TileOp) (p : Word) (tc : Nat), tileReady s s.subj.a s.subj.b = some e →
    fullerTurn s s.subj.a s.subj.b = true → e.kind = .tmapsave → e.args = [p] → e.pos = 0 → e.fault = none →
    let m := s.fmap s.subj.a e.ctx e.td
    segsFree s e.dst = true → (∀ x ∈ e.dst, keyReady s e.core x.key = true) →
    writeRange { s with portWaits := mapDel s.portWaits e.n } e.actor p (mapImage { e.map with dest := m.dest, sizes := m.sizes }) e.dst =
      (u, .ok tc) →
    ∃ t, exec .fullerOpComplete s = .next t ∧ t.mem = u.mem) ∧
  (∀ (s u : State) (e : TileOp) (p : Word) (l : List Byte), tileReady s s.subj.a s.subj.b = some e →
    fullerTurn s s.subj.a s.subj.b = true → e.kind = .tmapload ∨ e.kind = .reload → e.args = [p] → 1 ≤ e.pos → e.pos < 128 →
    let k := (segKey e.src (64 * (e.pos + 1))).getD 0
    bankFree s k 64 = true → keyReady s e.core k = true →
    readRun { s with portWaits := mapDel s.portWaits e.n } e.actor k (ptrAdd p (64 * (e.pos + 1))) 64 5 = (u, .ok l) →
    ∃ t, exec .fullerOpComplete s = .next t ∧ t.mem = u.mem ∧
      (t.fmap s.subj.a e.ctx e.td).dest = (u.fmap s.subj.a e.ctx e.td).dest ++ (halvesAt l 0 32).take (e.map.n - 32 * e.pos)) ∧
  (∀ (s : State), fullerTurn s s.subj.a s.subj.b = false → ∃ t, exec .fullerOpComplete s = .next t ∧ t.mem = s.mem ∧
    t.clusters = s.clusters) ∧
  (∀ (s u : State) (x id : Nat) (rest : List (Nat × Nat)) (segs : List Seg), (s.cluster s.subj.a).reloads = (x, id) :: rest → id < 32 →
    (s.fmap s.subj.a x id).st = .saved → (s.cluster s.subj.a).tileq.length < 32 → entriesUsed (s.cluster s.subj.a) < 32 →
    hardSegs s (ctxActor s (16 * s.subj.a) x) 1 (mapSavePtr s s.subj.a x id) 16448 = (u, .ok segs) →
    ∃ t e, exec .mapReload s = .next t ∧ t.mem = s.mem ∧ (t.cluster s.subj.a).reloads = rest ∧
      (t.cluster s.subj.a).tileq = (s.cluster s.subj.a).tileq ++ [e] ∧ e.kind = .reload ∧ e.src = segs ∧ e.td = id ∧ e.ctx = x ∧
      t.fmap s.subj.a x id = { s.fmap s.subj.a x id with st := .merged }) ∧
  (∀ (s : State), (s.cluster s.subj.a).reloads = [] → exec .mapReload s = .next s)

/-- The plan of a merge (R237): over the best edges of distinct A tokens, whose partners are no A tokens, a merge of r of them leaves n - r
survivors; each survivor's destination is its own place, and each merged token's is that of its partner. -/
def Obligations.MergePlanResult : Prop :=
  ∀ (n r : Nat) (best : List (Nat × Nat × Nat)), (best.map (·.1)).Nodup → (∀ x ∈ best, x.1 < n ∧ x.2.1 < n) →
    (∀ x ∈ best, ∀ y ∈ best, x.2.1 ≠ y.1) → r ≤ best.length →
    let p := mergePlan n r best
    p.chosen.length = r ∧ p.live.length = n - r ∧ p.dest.length = n ∧
      (∀ i, i < n → ∀ j, p.dest[i]? = some j → j < n - r ∧
        ((∀ x ∈ p.chosen, x.1 ≠ i) → p.live[j]? = some i)) ∧
      (∀ x ∈ p.chosen, (∃ v, (x.1, x.2, v) ∈ best) ∧ p.dest[x.1]? = p.dest[x.2]?)

/-! ## Expert routing -/

/-- The routing forms (R246, R247, R249-R251, R427-R429): with their registers at hand, MBOXK declares or releases the core's mailbox
for the context, and traps with SLOT 48 where another context owns it; MBPUT and EXPSEND with well-formed words and a free send queue entry
buffer their put and, once its pages are translated (R154), their row; MBTAKE with enough puts completes with the token's list, best first, on its way to its registers, counted
in ld (R245), and makes its entry COMBINING, and blocks before that. -/
def Obligations.RoutingIssue : Prop :=
  (∀ (a : BitVec 5) (y : Bool) (s : State), Ready [rdS s.me a y] s → (s.me.rs a y).toNat ≤ 8 →
    (s.myCore.mbox.owner = none ∨ s.myCore.mbox.owner = some s.me.ctx →
      exec (.mboxk a y) s = .next ((onMbox s s.cur.1 (fun _ =>
        if s.me.rs a y = 0 then {} else { owner := some s.me.ctx, k := (s.me.rs a y).toNat })).done 4 id)) ∧
    (∀ x, s.myCore.mbox.owner = some x → x ≠ s.me.ctx → exec (.mboxk a y) s = .next (takeTrap s .slot 0x0D 0 48))) ∧
  (∀ (a b : BitVec 5) (y : Bool) (s : State), Ready [rdS s.me a y, rdS s.me b false] s → bits (s.me.rs a y) 31 13 = 0 →
    sendUsed s s.cur.1 s.cur.2 0 < 32 →
    exec (.mbput a b y) s = .next (s.done 4 (fun t => { t with sends := t.sends ++
      [{ form := 2, net := 0, dest := 0, data := [t.rs a y, t.rs b false], pc := t.pc.toNat }] }))) ∧
  (∀ (d a b : BitVec 5) (x y : Bool) (i : Nat) (e : TokenEntry) (s : State),
    Ready [rdS s.me a y, rdS s.me b false, wrS s.me d x] s → s.cur.2 < 4 → (s.me.rs b false).toNat ≤ 255 →
    let m := s.myCore.mbox
    let token := bits (s.me.rs a y) 31 0
    m.owner = some s.me.ctx → Ready (⟨0, s.me.idx d.toNat x + m.k, false, true⟩ :: wrRange s.me d x (m.k + 1)) s →
    m.entries.findIdx? (fun e => e.st == 1 && e.token == token) = some i → m.entries[i]? = some e → e.list ≠ [] →
    ((s.me.rs b false).toNat ≤ e.puts →
      ∃ t, exec (.mbtake d a b x y) s = .next t ∧
        Issued s t 4 { myOp s .mbtake with
          ctr := some .ld, regs := (List.range (m.k + 1)).map (fun j => Reg.s (s.me.reg d.toNat x + j))
          answer := some (takeHead e.list.length e.puts token :: (e.list.map takeWord ++ List.replicate (m.k - e.list.length) 0)) } ∧
        t.myCore.mbox.entries = m.entries.set i { e with
          st := 2, list := [], experts := e.list.map (fun z => z.2.1), got := List.replicate e.list.length false }) ∧
    (e.puts < (s.me.rs b false).toNat →
      exec (.mbtake d a b x y) s =
        .next ((s.onMe (fun t => t.waitIn .blocked (.puts token (s.me.rs b false).toNat))).withLast .waiting))) ∧
  (∀ (d a b : BitVec 5) (x y : Bool) (segs : List Seg) (s : State), Ready [rdS s.me a y, rdS s.me b false, rdS s.me d x] s →
    rowDestOk (s.me.rs a y) = true → tagOf (s.me.rs b false) ≤ 4 → (s.me.rs b false).toNat % 16 = 0 →
    pageMissing s (rangePages (s.me.rs b false) (16 * bits (s.me.rs a y) 25 14)) = none →
    rangeSegs s s.actor 1 (s.me.rs b false) (16 * bits (s.me.rs a y) 25 14) = .ok segs →
    sendUsed s s.cur.1 s.cur.2 (bits (s.me.rs a y) 13 13) < 32 →
    exec (.expsend d a b x y) s = .next (s.done 4 (fun t => { t with sends := t.sends ++
      [{ form := 3, net := bits (t.rs a y) 13 13, dest := 0, data := [t.rs d x, t.rs a y, t.rs b false], pc := t.pc.toNat }] })))

/-- REPL (R250, R465): with its registers at hand, and a replica word whose count N is from 1 to 256 and whose other bits but the attempt
are zero, sd is the replica of the token; any other replica word traps with BOUND and TVAL that word. -/
def Obligations.ReplicaResult : Prop :=
  ∀ (d a b : BitVec 5) (x y : Bool) (s : State), Ready [rdS s.me a y, rdS s.me b false, wrS s.me d x] s →
    let v := s.me.rs b false
    let n := v.toNat % 2 ^ 9
    let h := (s.me.rs a y).toNat % 2 ^ 32 * 0x9E3779B1 % 2 ^ 32
    exec (.repl d a b x y) s = .next
      (if v.extractLsb' 9 7 = 0 ∧ v.extractLsb' 24 40 = 0 ∧ 1 ≤ n ∧ n ≤ 256 then
        s.done 4 (fun t => t.ws d x (BitVec.ofNat 64 ((h * n / 2 ^ 32 + v.toNat / 2 ^ 16 % 2 ^ 8) % n)))
       else takeTrap s .bound 0x06 0 v)

/-- A token's list (R248): a put keeps it ordered by score descending and expert ascending, with no expert twice, and at most k long. -/
def Obligations.TokenListResult : Prop :=
  ∀ (k : Nat) (x : Nat × Nat × Nat) (l : List (Nat × Nat × Nat)), l.length ≤ k → (l.map (fun z => z.2.1)).Nodup →
    l.Pairwise (fun a b => listBefore a b = true) →
    (listPut k x l).length ≤ k ∧ ((listPut k x l).map (fun z => z.2.1)).Nodup ∧
      (listPut k x l).Pairwise (fun a b => listBefore a b = true) ∧
      (∀ z ∈ listPut k x l, z = x ∨ z ∈ l) ∧
      ((∀ y ∈ l, y.2.1 ≠ x.2.1) → l.length < k → x ∈ listPut k x l)

/-- Puts, rows and results as they arrive (R247, R248, R251-R254): MAILBOX_PUT of the next packet of its flow at an open input counts a put and keeps its
score, drops a put to another context's mailbox or with a NaN, or, with no entry FREE, leaves it and holds the input; EXPSEND_ROW_READ takes the row's bytes; RESULT_COMBINE passes a result on
with its rank or counts a duplicate, and ROW_ARRIVAL counts a result whose rank another copy has taken meanwhile as one; ROW_ARRIVAL of an accepted row writes its tag and bytes into its slot and moves TAIL,
once the banks of its header and slot can serve it (R140); an announcement posts a message of the rows present and moves ANN to TAIL. -/
def Obligations.RoutingEvents : Prop :=
  (∀ (s : State) (p : Packet) (ctx : Nat) (sa sb : Word), s.net.find? (fun x => x.pid == s.subj.a) = some p → p.body = .put ctx sa sb →
    firstOfFlow s p = true → inputOpen s p = true →
    let m := (s.core p.dst).mbox
    let x := (bits sb 31 0, bits sb 47 32, bits sb 63 48)
    (m.owner ≠ some ctx ∨ scoreNan (bits sb 31 0) = true →
      ∃ t, exec .mailboxPut s = .next t ∧ t.net = s.net.filter (fun z => z.pid != p.pid) ∧ (t.core p.dst).mbox = m ∧ t.mem = s.mem) ∧
    (∀ (i : Nat) (e : TokenEntry), m.owner = some ctx → scoreNan (bits sb 31 0) = false →
      entryOf m (bits sa 63 32) = some i → m.entries[i]? = some e → e.st = 1 →
      ∃ t, exec .mailboxPut s = .next t ∧ t.net = s.net.filter (fun z => z.pid != p.pid) ∧ t.mem = s.mem ∧
        (t.core p.dst).mbox.entries[i]? = some { e with puts := min (e.puts + 1) 255, list := listPut m.k x e.list }) ∧
    (m.owner = some ctx → scoreNan (bits sb 31 0) = false → entryOf m (bits sa 63 32) = none → (∀ e ∈ m.entries, e.st ≠ 0) →
      ∃ t, exec .mailboxPut s = .next t ∧ t.net = s.net ∧ t.mem = s.mem ∧ (t.core p.dst).mbox = m ∧
        ∀ z ∈ s.net, z.dst = p.dst → z.net = p.net → z.pid ≠ p.pid → inputOpen t z = false)) ∧
  (∀ (s u : State) (p : Packet) (ctx asid : Nat) (priv : Bool) (tag dst ptr : Word) (g segs : List Seg) (l : List Byte),
    s.net.find? (fun x => x.pid == s.subj.a) = some p → p.body = .rowRead ctx asid priv tag dst ptr g → s.redLines = [] →
    hardSegs s ⟨p.src, ctx, asid, priv⟩ 1 ptr (16 * bits dst 25 14) = (u, .ok segs) → segsFree u segs = true →
    (readSegs u ⟨p.src, ctx, asid, priv⟩ ptr segs).2 = .ok l →
    ∃ t, exec .expsendRowRead s = .next t ∧ t.mem = s.mem ∧
      t.net = s.net.map (fun x => if x.pid = p.pid then { x with body := .row ctx asid priv tag dst l none } else x)) ∧
  (∀ (s : State) (p : Packet) (ctx asid : Nat) (priv : Bool) (tag dst : Word) (l : List Byte) (e : TokenEntry),
    s.net.find? (fun x => x.pid == s.subj.a) = some p → p.body = .row ctx asid priv tag dst l none → bits dst 13 13 = 1 →
    firstOfFlow s p = true → inputOpen s p = true →
    (s.core p.dst).mbox.entries.find? (fun e => e.st == 2 && e.token == bits tag 31 0) = some e →
    (∀ j, e.experts.findIdx? (· == bits tag 47 32) = some j → e.got[j]? = some false →
      ∃ t, exec .resultCombine s = .next t ∧ t.cores = s.cores ∧ t.mem = s.mem ∧
        t.net = s.net.map (fun x => if x.pid = p.pid then { x with body := .row ctx asid priv tag dst l (some j) } else x)) ∧
    (e.experts.findIdx? (· == bits tag 47 32) = none →
      ∃ t, exec .resultCombine s = .next t ∧ t.mem = s.mem ∧ (t.core p.dst).dupcnt = (s.core p.dst).dupcnt + 1 ∧
        ∀ x ∈ s.net, x.pid ≠ p.pid → x ∈ t.net)) ∧
  (∀ (s : State) (p : Packet) (ctx asid : Nat) (priv : Bool) (tag dst : Word) (l : List Byte) (j : Nat),
    s.net.find? (fun x => x.pid == s.subj.a) = some p → p.body = .row ctx asid priv tag dst l (some j) → firstOfFlow s p = true →
    inputOpen s p = true → rowFree s p.dst (bits dst 49 32) = true → resultRank (s.core p.dst).mbox tag ≠ some j →
    ∃ t, exec .rowArrival s = .next t ∧ t.mem = s.mem ∧ (t.core p.dst).dupcnt = (s.core p.dst).dupcnt + 1 ∧
      ∀ x ∈ s.net, x.pid ≠ p.pid → x ∈ t.net) ∧
  (∀ (s : State) (p : Packet) (ctx asid : Nat) (priv : Bool) (tag dst : Word) (l : List Byte),
    s.net.find? (fun x => x.pid == s.subj.a) = some p → p.body = .row ctx asid priv tag dst l none → bits dst 13 13 = 0 →
    firstOfFlow s p = true → inputOpen s p = true → rowFree s p.dst (bits dst 49 32) = true →
    rowRefused s p.dst ctx asid priv dst = none →
    let off := bits dst 49 32
    let h := headerAt s p.dst off
    let k := spKey p.dst (slotOff h off)
    ∃ t, exec .rowArrival s = .next t ∧ t.net = s.net.filter (fun z => z.pid != p.pid) ∧ readNat t k 8 = tag.toNat ∧
      (∀ j b, l[j]? = some b → readByte t (k + 16 + j) = b) ∧ (headerAt t p.dst off).tail = (h.tail + 1) % 2 ^ 32) ∧
  (∀ (s : State) (r : Nat), let h := headerAt s s.subj.a s.subj.b
    mapGet? (s.core s.subj.a).rings s.subj.b = some r → headerOk h = true → unannounced h ≠ 0 → rxRoom (s.core s.subj.a) h.ch = true →
    entBits ((s.core s.subj.a).entry h.ch) 91 91 = 0 →
    ∃ t, (h.thresh ≤ unannounced h → exec .announcement s = .next t) ∧
      (h.timer ≠ 0 → r + 1000 * h.timer ≤ s.devtime → exec .rowQueueTimer s = .next t) ∧
      (headerAt t s.subj.a s.subj.b).ann = h.tail ∧ mapGet? (t.core s.subj.a).rings s.subj.b = none ∧
      ∃ m, (t.core s.subj.a).rx = (s.core s.subj.a).rx ++ [m] ∧ m.chan = h.ch ∧
        m.pay = payload [word s.subj.b, word h.ann, word (unannounced h), word s.devtime])

/-! ## Copies -/

/-- COPY and COPYM as they issue (R164, R169, R371, R372, R375, R376): outside a lockstep group, with their registers at hand, no acquire
outstanding, their control word, length, pointers and ranges accepted and the pages of these translated (R154), they complete with their operation under way, counted in cp; a COPY into a stream register of
KIND 2 with no copy counts in nothing and binds itself to the register.
COPY_DONE and COPY_STREAM_DELIVERY (R149, R169-R171, R373, R375): a copy past its fork whose banks can serve it and whose peer locations
have a port moves its next unit, whole as its destination's units are, from its source to its destination; one of scope CORE that has moved
its last byte to no peer, or of a wider scope or to a peer whose writes are then complete, leaves its counter, and otherwise stays; a copy
into a stream stages 16 bytes in its register. That units are moved in ascending order is the model's choice (log 75), and so is that a whole
unit moves in one step (log 9). -/
def Obligations.CopyResult : Prop :=
  ((∀ (d a b : BitVec 5) (x y : Bool) (ss ds cs : List Seg) (s : State), Ready [rdS s.me a y, rdS s.me b false, rdS s.me d x] s →
     s.me.pub = false → s.me.sub = false → acquiring s = false → s.cur.2 < 4 →
     let v := copyCtl s
     let p := s.me.rs a y
     let len := s.me.rs b false
     let cw := bits v 3 3 == 1
     copyCtlBad v = false → bits v 10 10 = 0 → copyLenBad len = false → EnginePtr 6 16 p →
     (cw = true → tagOf (copyCw s) ≠ 5 ∧ EnginePtr 6 8 (copyCw s)) →
     rangeSegs s s.actor 1 p len.toNat = .ok ss → cwSegs s cw (copyCw s) = .ok cs →
     (pageMissing s (rangePages p len.toNat ++ rangePages (s.me.rs d x) len.toNat ++ cwPages cw (copyCw s)) = none → EnginePtr 6 16 (s.me.rs d x) → copyOverlaps p (s.me.rs d x) len.toNat = false →
       rangeSegs s s.actor 2 (s.me.rs d x) len.toNat = .ok ds →
       ∃ t, exec (.copy d a b x y) s = .next t ∧ Issued s t 4 (copyOp s .copy (s.me.rs d x) p len ss ds cs)) ∧
     (pageMissing s (rangePages p len.toNat ++ cwPages cw (copyCw s)) = none → bits (s.me.rs d x) 35 18 = 0 → bits (s.me.rs d x) 63 48 = 0 →
       rootLost s (groupKey s.me.ctx (bits (s.me.rs d x) 47 36)) = false →
       ∃ t, exec (.copym d a b x y) s = .next t ∧ Issued s t 4 (copyOp s .copym (s.me.rs d x) p len ss [] cs))) ∧
   (∀ (d a b : BitVec 5) (x y : Bool) (ss : List Seg) (s : State), Ready [rdS s.me a y, rdS s.me b false] s →
     s.me.pub = false → s.me.sub = false → acquiring s = false → s.cur.2 < 4 →
     let v := copyCtl s
     let p := s.me.rs a y
     let len := s.me.rs b false
     let n := bits v 13 11
     copyCtlBad v = false → bits v 10 10 = 1 → bits v 3 3 = 0 → copyLenBad len = false → EnginePtr 6 16 p →
     (s.me.q n).kind = 2 → (s.me.q n).source = 0 →
     pageMissing s (rangePages p len.toNat) = none → rangeSegs s s.actor 1 p len.toNat = .ok ss →
     ∃ t, exec (.copy d a b x y) s = .next t ∧ t.last = .completed ∧ t.mem = s.mem ∧
       t.ops = s.ops ++ [copyOp s .copy 0 p len ss [] []] ∧
       t.me = (s.me.setQ n { s.me.q n with source := word s.nextId, limit := len.toNat }).goAt (s.me.pc + 4))) ∧
  ((∀ (s : State) (o : Op) (sk dk : Nat), findOp s s.subj.a = some o → o.kind = .copy → bits (opArg o 2) 10 10 = 0 → o.phase ≠ 9 →
     o.fault = none → o.pos < (opArg o 1).toNat → copyForked s o = true → o.flush = false → s.redLines = [] →
     segKey o.dst o.pos = some dk → (isHbm dk = true ∨ isScratch dk = true) → onLostDie s dk = false →
     let n := min (copyUnit o dk) (segRun o.dst o.pos)
     (∀ j, j < n → segKey o.src (o.pos + j) = some (sk + j) ∧ n - j ≤ segRun o.src (o.pos + j) ∧ onLostDie s (sk + j) = false ∧
       (isHbm (sk + j) = true ∨ isScratch (sk + j) = true)) →
     segsFree s (copySegs o) = true → (∀ x ∈ copySegs o, keyReady s o.core x.key = true) → poisoned s sk n = false →
     ∃ t, exec .copyDone s = .next t ∧ Wrote s t dk n (readNat s sk n) (2 ^ n - 1) ∧
       ∀ q, findOp t s.subj.a = some q → q.pos = o.pos + n) ∧
   (∀ (s : State) (o : Op) (c i : Nat), OpOf s s.subj.a c i o → o.kind = .copy ∨ o.kind = .copym → o.phase ≠ 9 → o.fault = none →
     (opArg o 1).toNat ≤ o.pos → bits (opArg o 2) 3 3 = 0 → o.shared = [] → o.ctr = some .cp → opScope o < 5 →
     let wide := 2 ≤ opScope o ∨ (o.kind = .copy ∧ tagOf o.ptr = 5)
     (¬ wide ∨ o.tc ≤ s.devtime →
       ∃ t, exec .copyDone s = .next t ∧ t.mem = s.mem ∧ findOp t s.subj.a = none ∧
         t.slot c i = (if opScope o = 4 then { (s.slot c i).fall .cp with repCp := max (s.slot c i).repCp s.devtime }
           else (s.slot c i).fall .cp)) ∧
     (wide → s.devtime < o.tc → exec .copyDone s = event s)) ∧
   (∀ (s : State) (o : Op) (c i k : Nat), OpOf s s.subj.a c i o → o.kind = .copy → bits (opArg o 2) 10 10 = 1 → o.phase ≠ 9 →
     o.fault = none → (s.slot c i).st ≠ .saving → s.redLines = [] → segKey o.src o.pos = some k → isHbm k = true ∨ isScratch k = true →
     onLostDie s k = false → poisoned s k 16 = false → copyForked s o = true → o.flush = false → o.dst = [] →
     o.pos < (opArg o 1).toNat → segsFree s (copySegs o) = true → (∀ x ∈ copySegs o, keyReady s o.core x.key = true) →
     let n := bits (opArg o 2) 13 11
     ((s.slot c i).q n).stage.length ≤ 48 →
     ∃ t, exec .copyStreamDelivery s = .next t ∧ t.mem = s.mem ∧
       ((t.slot c i).q n).stage = ((s.slot c i).q n).stage ++ leBytes 16 (readNat s k 16) ∧
       ∀ q, findOp t s.subj.a = some q → q.pos = o.pos + 16))

/-! ## Ingest -/

/-- INGCFG and INGQ (R315-R317, R406, R407): with its registers at hand, INGCFG of a profile that nobody else owns and no earlier message or waiting
INGCFG names unloads it, or, its block readable and within Table 16.2, loads the stage that it names, TRANSCODE with the table of charset 34
and TOKENISE with the merges of its table, once the pages of the table are translated (R154), the strand's own accesses to what is read have
settled (R161) and the banks can serve the reads; INGQ of a
well-formed descriptor whose profile is ready, with room in the input queue, writes sd with the ticket and enters the message.
The stages of the ingest chain and the end of its messages (R318-R324). Inflate passes on what it has made of its message, as far as its
queue has room, or reads on in the source, and stops the message with its cause, 7 for a fault on the source, or is done with it; transcode
turns the characters that have come into UTF-8, or passes the bytes on; tokenise turns the next piece into ids; too much stage work (cause 5)
and more than 10 ms without permits (cause 6) stop a message; a row is pushed under a permit, permits asked for again each microsecond; a
stopped message pushes its final row and, where it names a queue for it, its record; a message whose rows are visible leaves the chain, with
its DONE word where it asks for one. How much a stage takes in one step, and the stage that cause 5 names, are the model's choice (log 14). -/
def Obligations.IngestResult : Prop :=
  ((∀ (a b : BitVec 5) (y : Bool) (s : State), Ready [rdS s.me a y, rdS s.me b false] s →
     let v := s.me.rs b false
     let d := dieOf s.cur.1
     let n := bits v 3 0
     profileTaken s d n s.me.ctx = false → profileBusy s d n (s.me.cfgFrom.getD (s.nextId, n)).1 = false → bits v 63 7 = 0 → bits v 5 4 ≠ 3 →
     (bits v 6 6 = 1 →
       ∃ t, t = (numbered s n).onDie d (fun x => { x with profiles := mapDel x.profiles n }) ∧ exec (.ingcfg a b y) s = .next (t.done 4 id)) ∧
     (∀ p, bits v 6 6 = 0 → tagOf (s.me.rs a y) = 4 → Passes .load [{ lane := 0, ptr := s.me.rs a y, n := 64 }] [p] s → settled s p.key 64 = true →
       s.redLines = [] → poisoned s p.key 64 = false →
       let block := readNat s p.key 64
       let old := (profileOf s d n).getD ⟨s.me.ctx, none, none, none⟩
       blockOk (bits v 5 4) block = true →
       (bits v 5 4 = 0 →
         ∃ t, exec (.ingcfg a b y) s = .next t ∧ t.last = .completed ∧ t.mem = s.mem ∧
           profileOf t d n = some { old with inflate := some (bits (word block) 1 0, bits (word block) 3 2) }) ∧
       (bits v 5 4 = 1 → nbits block 5 0 ≠ 34 →
         ∃ t, exec (.ingcfg a b y) s = .next t ∧ t.last = .completed ∧ t.mem = s.mem ∧
           profileOf t d n = some { old with transcode := some (nbits block 5 0, nbits block 6 6 == 1, []) }) ∧
       (∀ segs l, bits v 5 4 = 1 → nbits block 5 0 = 34 →
         let u := touchKey (numbered s n) s.me.ctx p.key
         let q := word (nbits block 127 64)
         pageMissing u (rangePages q 1024) = none → rangeSegs u u.actor 1 q 1024 = .ok segs → segsFree u segs = true →
         (∀ g ∈ segs, settled u g.key g.len = true) → (readSegs u s.actor q segs).2 = .ok l → (∀ c ∈ unpack 4 256 l, scalarOk c = true) →
         ∃ t, exec (.ingcfg a b y) s = .next t ∧ t.last = .completed ∧ t.mem = s.mem ∧
           profileOf t d n = some { old with transcode := some (34, nbits block 6 6 == 1, unpack 4 256 l) }) ∧
       (∀ segs l, bits v 5 4 = 2 → mergesBut s d n + nbits block 63 0 ≤ 524288 →
         let u := touchKey (numbered s n) s.me.ctx p.key
         pageMissing u (rangePages (word (nbits block 127 64)) (8 * nbits block 63 0)) = none → segsFree u segs = true →
         rangeSegs u u.actor 1 (word (nbits block 127 64)) (8 * nbits block 63 0) = .ok segs →
         (∀ g ∈ segs, settled u g.key g.len = true) →
         (readSegs u s.actor (word (nbits block 127 64)) segs).2 = .ok l →
         (∀ i e, (unpack 8 (nbits block 63 0) l)[i]? = some e → nbits e 31 0 < 256 + i ∧ nbits e 63 32 < 256 + i) →
         ∃ t, exec (.ingcfg a b y) s = .next t ∧ t.last = .completed ∧ t.mem = s.mem ∧
           profileOf t d n =
             some { old with tokenise := some ((unpack 8 (nbits block 63 0) l).map (fun e => (nbits e 31 0, nbits e 63 32))) }))) ∧
   (∀ (d a : BitVec 5) (x y : Bool) (p : Piece) (r : Profile) (s : State), Ready [rdS s.me a y, wrS s.me d x] s → s.cur.2 < 4 →
     tagOf (s.me.rs a y) = 0 ∨ tagOf (s.me.rs a y) = 4 → Passes .load [{ lane := 0, ptr := s.me.rs a y, n := 64 }] [p] s →
     settled s p.key 64 = true → s.redLines = [] → poisoned s p.key 64 = false → ingestOk (readNat s p.key 64) = true →
     let die := dieOf s.cur.1
     let m := ingestOf s die (readNat s p.key 64)
     profileOf s die m.profile = some r → r.owner = s.me.ctx → stagesReady r m.skipInflate m.skipTranscode = true →
     ((s.die die).ingest.filter (fun m => m.stage == 0)).length < 256 →
     ∃ t, exec (.ingq d a x y) s = .next t ∧ t.last = .completed ∧ t.mem = s.mem ∧
       t.me = ({ s.me.ws d x (word m.ticket) with repCp := max s.me.repCp s.devtime } : Strand).goAt (s.me.pc + 4) ∧
       (t.die die).ingest = (s.die die).ingest ++ [m] ∧ (t.die die).tickets = ((s.die die).tickets + 1) % 2 ^ 32)) ∧
  ((∀ (s : State) (m : Ingest) (out : List Byte) (stop : Nat), let d := s.subj.a
     inflating s d = some m → inflated s d m = (out, stop) →
     (out ≠ [] → ∃ t, exec .ingestInflate s = .next t ∧ t.mem = s.mem ∧ ∀ z ∈ (t.die d).ingest, z.ticket = m.ticket →
       z = { m with q1 := m.q1 ++ out.take (room1 s d), put := m.put + (out.take (room1 s d)).length }) ∧
     (out = [] → 1 ≤ stop → stop ≤ 8 → ∃ t, exec .ingestInflate s = .next t ∧ t.mem = s.mem ∧
       ∀ z ∈ (t.die d).ingest, z.ticket = m.ticket → z.stage = 3 ∧ z.cause = stop ∧ z.failed = 0 ∧ z.causeTime = s.devtime) ∧
     (out = [] → stop = 0 ∨ 8 < stop → m.raw.length < m.len →
       (∀ u l, sourceNext s m = (u, some (.ok l)) → ∃ t, exec .ingestInflate s = .next t ∧ t.mem = u.mem ∧
         ∀ z ∈ (t.die d).ingest, z.ticket = m.ticket → z = { m with stage := 1, raw := m.raw ++ l }) ∧
       (∀ u f, sourceNext s m = (u, some (.error f)) → ∃ t, exec .ingestInflate s = .next t ∧ t.mem = u.mem ∧
         ∀ z ∈ (t.die d).ingest, z.ticket = m.ticket → z.stage = 3 ∧ z.cause = 7 ∧ z.failed = 0)) ∧
     (out = [] → m.len ≤ m.raw.length →
       (stop = 0 → ∃ t, exec .ingestInflate s = .next t ∧ t.mem = s.mem ∧
         ∀ z ∈ (t.die d).ingest, z.ticket = m.ticket → z = { m with inDone := true }) ∧
       (8 < stop → ∃ t, exec .ingestInflate s = .next t ∧ t.mem = s.mem ∧
         ∀ z ∈ (t.die d).ingest, z.ticket = m.ticket → z.stage = 3 ∧ z.cause = if stop = 10 then 2 else 1))) ∧
   (∀ (s : State) (m : Ingest), let d := s.subj.a
     transcoding s d = some m →
     (m.q1 = [] → ∃ t, exec .ingestTranscode s = .next t ∧ t.mem = s.mem ∧
       ∀ z ∈ (t.die d).ingest, z.ticket = m.ticket → z = { m with trDone := true }) ∧
     (m.q1 ≠ [] → m.skipTranscode = true → ∃ t, exec .ingestTranscode s = .next t ∧ t.mem = s.mem ∧
       ∀ z ∈ (t.die d).ingest, z.ticket = m.ticket →
         z = { m with q1 := m.q1.drop (room2 s d), q2 := m.q2 ++ m.q1.take (room2 s d) }) ∧
     (∀ cs strict table x l out rest e, m.q1 ≠ [] → m.skipTranscode = false → (profileIn s d m).transcode = some (cs, strict, table) →
       (x, l) = (match m.cs with | some c => (c, m.q1) | none => textStart cs table m.q1) →
       transcodeRun x strict table m.inDone m.q1.length (room2 s d) l = (out, rest, e) →
       ∃ t, exec .ingestTranscode s = .next t ∧ t.mem = s.mem ∧ ∀ z ∈ (t.die d).ingest, z.ticket = m.ticket →
         (e = 0 → z = { m with cs := some x, q1 := rest, q2 := m.q2 ++ out }) ∧ (e ≠ 0 → z.stage = 3 ∧ z.cause = e ∧ z.failed = 1))) ∧
   (∀ (s : State) (m : Ingest) (x : Option (List Byte × List Byte)), let d := s.subj.a
     tokenising s d = some (m, x) → ∃ t, exec .ingestTokenise s = .next t ∧ t.mem = s.mem ∧
       ∀ z ∈ (t.die d).ingest, z.ticket = m.ticket →
         z = match x with
           | some (l, rest) => { m with q2 := rest, ids := m.ids ++ pieceIds (((profileIn s d m).tokenise).getD []) l }
           | none => { m with tkDone := true }) ∧
   (∀ (s : State) (m : Ingest), let d := s.subj.a
     (s.die d).ingest.find? overworked = some m → ∃ t, exec .ingestTimeout s = .next t ∧ t.mem = s.mem ∧
       ∀ z ∈ (t.die d).ingest, z.ticket = m.ticket → z.cause = 5 ∧ z.stage = 3) ∧
   (∀ (s : State) (m : Ingest) (rest : List Ingest), let d := s.subj.a
     (s.die d).ingest = m :: rest →
     (m.cause = 0 → outputStalled s.devtime m = true → ∃ t, exec .ingestOutputStall s = .next t ∧
       ∀ z ∈ (t.die d).ingest, z.ticket = m.ticket → z.cause = 6 ∧ z.stage = 4) ∧
     (∀ u g, m.cause = 0 → m.waitFrom.isSome = true → m.retryAt ≤ s.devtime → outputStalled s.devtime m = false → g ≠ 0 →
       chainPermit s d m m.outq (min 64 (rowsReady m)) = (u, g) →
       ∃ t, exec .ingestPermitRetry s = .next t ∧ t.mem = u.mem ∧
         ∀ z ∈ (t.die d).ingest, z.ticket = m.ticket → z = { m with permits := g, waitFrom := none }) ∧
     (m.stage ≠ 0 → m.stage ≠ 4 → m.waitFrom = none → m.cause = 0 → rowsReady m ≠ 0 →
       (∀ u g, m.permits = 0 → g ≠ 0 → chainPermit s d m m.outq (min 64 (rowsReady m)) = (u, g) →
         ∃ t, exec .ingestRowPush s = .next t ∧ t.mem = u.mem ∧
           ∀ z ∈ (t.die d).ingest, z.ticket = m.ticket → z = { m with permits := g, waitFrom := none }) ∧
       (∀ u tc, m.permits ≠ 0 →
         let last := m.tkDone = true ∧ m.ids.length ≤ 14
         chainPush s d m m.outq (rowNat m.tag (if last then 1 else 0) (m.ids.take 14)) = (u, true, tc) →
         ∃ t, exec .ingestRowPush s = .next t ∧ t.mem = u.mem ∧ ∀ z ∈ (t.die d).ingest, z.ticket = m.ticket →
           z.rows = m.rows + 1 ∧ z.permits = m.permits - 1 ∧ z.ids = m.ids.drop 14 ∧ z.emitted = m.emitted + (m.ids.take 14).length ∧
             z.stage = if last then 4 else 1)) ∧
     (∀ u tc, m.stage ≠ 0 → m.stage ≠ 4 → m.waitFrom = none → m.cause ≠ 0 → m.permits ≠ 0 →
       chainPush s d m m.outq (rowNat m.tag 3 []) = (u, true, tc) →
       (m.quarq = 0 → ∃ t, exec .ingestRowPush s = .next t ∧ t.mem = u.mem ∧
         ∀ z ∈ (t.die d).ingest, z.ticket = m.ticket → z.stage = 4 ∧ z.permits = 0) ∧
       (m.quarq ≠ 0 → ∃ t, exec .ingestRowPush s = .next t ∧
         ∀ z ∈ (t.die d).ingest, z.ticket = m.ticket → z.stage = 4 ∧ z.permits = 0)) ∧
     (m.stage = 4 → m.tc ≤ s.devtime →
       ∃ t, exec .ingestRowPush s = .next t ∧ (∀ z ∈ (t.die d).ingest, z.ticket ≠ m.ticket) ∧
         t.mem = if m.doneP = 0 then s.mem
           else (storeStatus s ⟨m.core, m.ctx, m.asid, m.priv⟩ m.doneP
             (word ((if m.cause = 0 then 1 else 2) + m.cause * 2 ^ 8 + m.emitted % 2 ^ 32 * 2 ^ 32))).mem)))

/-! ## System forms -/

/-- CSRR, CSRW and PERFR (R79-R85, R378-R380, R443): with its register at hand CSRR writes sd with the control register that it names;
CSRW writes it, keeps what is read-only, and for the registers from 0x100 traps with PRIV in a strand that is not privileged; PERFR reads a
performance counter. STATUS reads field by field as Table 4.5 gives it; a write clears SPDISC or leaves it, and sets MAPKEEP for the whole
context; a write of FMT with NXA or NXB 3 traps with ILLOP, and another takes its fields and clears sticky flags or leaves them. CAUSE, EPC
and TVAL read zero in a task that no report started (R82). The model's own choices: a write of these three there keeps its value (log 48);
LEVEL of a running task is the level at which it was selected (log 98); a register of a region written with VALID = 0, where the context has
no other region, reads 0 again (log 56). -/
def Obligations.ControlRegisterResult : Prop :=
  (∀ (d a : BitVec 5) (r : BitVec 12) (n : BitVec 3) (x : Bool) (s : State),
    (Ready [wrS s.me d false] s → exec (.csrr d r) s = .next (s.done 4 (fun t => t.ws d false (csrRead s r.toNat)))) ∧
    (Ready [wrS s.me d x] s → exec (.perfr d n x) s = .next (s.done 4 (fun t => t.ws d x ((s.myCore.pmc[n.toNat]?).getD 0)))) ∧
    (s.me.priv = false → 0x100 ≤ r.toNat →
      exec (.csrw a r) s = .next (takeTrap s .priv 0x02 0 (instrWord (.csrw a r))))) ∧
  (∀ s : State, let w := csrRead s 0x000
    bits w 63 16 = 0 ∧ w.getLsbD 15 = s.me.spdisc ∧ w.getLsbD 14 = (s.ctx s.me.ctx).mapkeep ∧ bits w 13 12 = 0 ∧
    w.getLsbD 11 = s.me.fromTimed ∧ bits w 10 8 = s.me.level % 8 ∧ w.getLsbD 7 = s.me.priv ∧ w.getLsbD 6 = s.me.pub ∧
    w.getLsbD 5 = s.me.sub ∧ w.getLsbD 4 = s.me.uns ∧ bits w 3 2 = 0 ∧ bits w 1 0 = s.cur.2 % 4) ∧
  (∀ s : State, csrRead s 0x001 = s.me.fmt.setWidth 64 ∧
    csrRead s 0x002 = (if s.me.supervisor then s.me.cause else 0) ∧ csrRead s 0x003 = (if s.me.supervisor then s.me.epc else 0) ∧
    csrRead s 0x004 = (if s.me.supervisor then s.me.tval else 0) ∧ csrRead s 0x005 = s.me.msgid ∧
    csrRead s 0x006 = BitVec.ofNat 64 (s.me.nK + 2 ^ 8 * s.me.nV + 2 ^ 16 * s.me.nS) ∧
    csrRead s 0x009 = BitVec.ofNat 64 (s.cur.1 % 8192 + s.fabid.toNat * 2 ^ 52) ∧ csrRead s 0x00A = BitVec.ofNat 64 s.devtime ∧
    csrRead s 0x00C = s.myCore.paircnt ∧ csrRead s 0x00D = s.myCore.dupcnt) ∧
  (∀ (a : BitVec 5) (s : State), Ready [rdS s.me a false] s → s.cur.2 < 4 →
    let v := s.me.rs a false
    (∃ t, t = s.onCtx s.me.ctx (fun c => { c with mapkeep := v.getLsbD 14 }) ∧
      exec (.csrw a 0x000) s = .next (t.done 4 (fun t => { t with spdisc := t.spdisc && v.getLsbD 15 }))) ∧
    exec (.csrw a 0x001) s = .next (if bits v 5 4 = 3 ∨ bits v 7 6 = 3 then takeTrap s .illop 0x01 0 (instrWord (.csrw a 0x001))
      else s.done 4 (fun t => { t with
        fmt := (v.setWidth 27 &&& 0x7C001F3) ||| (t.fmt &&& v.setWidth 27 &&& 0x3F0000) })) ∧
    exec (.csrw a 0x002) s = .next (s.done 4 (fun t => { t with cause := v &&& 0x8000FFFF })) ∧
    exec (.csrw a 0x003) s = .next (s.done 4 (fun t => { t with epc := v &&& 0xFFFFFFFFFFFE })) ∧
    exec (.csrw a 0x004) s = .next (s.done 4 (fun t => { t with tval := v })) ∧
    exec (.csrw a 0x005) s = .next (s.done 4 id) ∧ exec (.csrw a 0x00A) s = .next (s.done 4 id) ∧
    exec (.csrw a 0x00C) s = .next ((s.onCore s.cur.1 (fun k => { k with paircnt := v })).done 4 id) ∧
    exec (.csrw a 0x018) s = .next (s.done 4 (fun t => { t with watch := t.watch.set 0 (v &&& ~~~0x3C) })) ∧
    (spregBad v = false → mapGet? s.myCore.spregs s.me.ctx = none → s.myCore.spregs.length < 16 →
      ∃ t, exec (.csrw a 0x010) s = .next t ∧ t.last = .completed ∧ t.mem = s.mem ∧ t.me = s.me.goAt (s.me.pc + 4) ∧
        (spregSet t.myCore s.me.ctx)[0]? = some (if bits v 31 31 = 1 then v &&& 0xC1FF00FF else 0)) ∧
    (s.me.priv = true →
      exec (.csrw a 0x121) s =
        .next ((s.onCore s.cur.1 (fun k => { k with pmsel := k.pmsel.setIfInBounds 1 (v.setWidth 8) })).done 4 id)))

/-- RETT and PREEMPT (R279, R287, R448, R467), privileged: RETT of an outstanding report with action 0 or 1 frees the channels that it
suspended and the report is outstanding no more; of another id it traps with BOUND. PREEMPT of a strand that is not in a slot or is
leaving it returns 0; of its own strand it completes with 1 and the strand begins to be saved to the lowest free image of its context, or
with none free completes with 2 and traps with BUDGET at the instruction after it; of another it waits while that is saved, and returns its
outcome. Unprivileged they trap with PRIV.
TLBINV (R155, R157, R487, R488), privileged: with nobody holding a selected translation it completes; else it waits for every holder;
TRANSLATION_INVALIDATION removes the selected translations from a holder's cache, a whole page of 1 GiB with each of its parts, and the
last one answers: a die's cache before the cores, whose copies are then asked for too, a peer over a READY port. -/
def Obligations.SupervisorFormResult : Prop :=
  ((∀ (a b : BitVec 5) (y : Bool) (s : State), s.me.priv = true → Ready [rdS s.me a y, rdS s.me b false] s →
     (findReport s (s.me.rs a y) = none → exec (.rett a b y) s = .next (takeTrap s .bound 0x06 0 (s.me.rs a y))) ∧
     (∀ r, findReport s (s.me.rs a y) = some r → (s.me.rs b false).toNat < 2 →
       ∃ t : State, exec (.rett a b y) s = .next (t.done 4 id) ∧ t.mem = s.mem ∧ t.reports = s.reports.erase r ∧
         ∀ p ∈ r.channels, p.2 ∉ (t.core p.1).suspended)) ∧
   (∀ (d a : BitVec 5) (y : Bool) (s : State), s.me.priv = true → Ready [rdS s.me a y, wrS s.me d false] s → pending s = none →
     s.cur.2 < 4 → bits (s.me.rs a y) 63 15 = 0 →
     let c := bits (s.me.rs a y) 12 0
     let i := bits (s.me.rs a y) 14 13
     let u := s.slot c i
     (∀ n, (c, i) = s.cur → freeImage s u.ctx = some n →
       exec (.preempt d a y) s = .next ((s.savingTo c i n .preempt).done 4 (fun t => t.ws d false 1))) ∧
     ((c, i) = s.cur → freeImage s u.ctx = none →
       ∃ t, exec (.preempt d a y) s = .next t ∧ t.mem = s.mem ∧ t.me.st = .trapping ∧ t.me.trap = some
         { cause := .budget, code := 0x0B, sub := 1, async := false, epc := (s.me.pc + 4).toNat, tval := 0, time := s.devtime }) ∧
     ((c, i) ≠ s.cur → u.st = .free ∨ u.st = .trapping ∨ u.st = .saving →
       exec (.preempt d a y) s = .next (s.done 4 (fun t => t.ws d false 0))) ∧
     ((c, i) ≠ s.cur → u.st = .starting →
       exec (.preempt d a y) s = .next ((s.onMe (fun t => t.waitIn .stalled .retry)).withLast .waiting)) ∧
     (∀ n, (c, i) ≠ s.cur → u.st = .ready ∨ u.st = .stalled ∨ u.st = .blocked → freeImage s u.ctx = some n →
       ∃ t, exec (.preempt d a y) s = .next t ∧ t.last = .waiting ∧ t.mem = s.mem ∧ t.me = s.me.waitIn .stalled (.op s.nextId) ∧
         t.ops = s.ops.filter (fun o => !subscribing u.task o) ++ [{ myOp s .preempt with pend := true }] ∧
         t.slot c i = { u with st := .saving, why := .preempt, saveTo := some n, savePos := 0, walk := none, preempt := some s.nextId })) ∧
   (∀ (d a : BitVec 5) (y : Bool) (s : State) (o : Op) (n : Nat), s.me.priv = true → Ready [rdS s.me a y, wrS s.me d false] s →
     Answered s o [n] → exec (.preempt d a y) s = .next ((dropOp s o.id).done 4 (fun t => t.ws d false (BitVec.ofNat 64 n)))) ∧
   (∀ (d a b : BitVec 5) (y : Bool) (s : State), s.me.priv = false →
     exec (.rett a b y) s = .next (takeTrap s .priv 0x02 0 (instrWord (.rett a b y))) ∧
     exec (.preempt d a y) s = .next (takeTrap s .priv 0x02 0 (instrWord (.preempt d a y))) ∧
     exec (.tlbinv a b y) s = .next (takeTrap s .priv 0x02 0 (instrWord (.tlbinv a b y))) ∧
     exec (.ctxload a y) s = .next (takeTrap s .priv 0x02 0 (instrWord (.ctxload a y))))) ∧
  ((∀ (a b : BitVec 5) (y : Bool) (s : State), s.me.priv = true → Ready [rdS s.me a y, rdS s.me b false] s → pending s = none →
     s.cur.2 < 4 → bits (s.me.rs a y) 14 13 ≠ 3 → bits (s.me.rs a y) 63 16 = 0 →
     (if bits (s.me.rs a y) 15 15 = 1 then bits (s.me.rs b false) 63 48 = 0 else s.me.rs b false = 0) →
     (holders s (s.me.rs a y) (s.me.rs b false) = [] → exec (.tlbinv a b y) s = .next (s.done 4 id)) ∧
     (∀ h l, holders s (s.me.rs a y) (s.me.rs b false) = h :: l →
       ∃ t, exec (.tlbinv a b y) s = .next t ∧
         WaitsFor s t .stalled { myOp s (.tlbinv (s.me.rs a y) (s.me.rs b false)) with pend := true, todo := h :: l })) ∧
   (∀ (a b : BitVec 5) (y : Bool) (s : State) (o : Op) (l : List Nat), s.me.priv = true → Ready [rdS s.me a y, rdS s.me b false] s →
     Answered s o l → exec (.tlbinv a b y) s = .next ((dropOp s o.id).done 4 id)) ∧
   (∀ (s : State) (o : Op) (sel range : Word), findOp s s.subj.a = some o → o.kind = .tlbinv sel range → s.subj.b ∈ o.todo →
     s.subj.b < 8192 → (∀ h ∈ o.todo, h < 8192) →
     ∃ t, exec .translationInvalidation s = .next t ∧ t.mem = s.mem ∧ (∀ x ∈ (t.core s.subj.b).tlb, invHits sel range x = false) ∧
       ∀ q, findOp t s.subj.a = some q →
         q.todo = o.todo.filter (· != s.subj.b) ∧ ((∀ h ∈ o.todo, h = s.subj.b) → q.answer = some [])) ∧
   (∀ (s : State) (o : Op) (sel range : Word) (d : Nat), findOp s s.subj.a = some o → o.kind = .tlbinv sel range → d < 4 →
     s.subj.b = 8192 + d → s.subj.b ∈ o.todo →
     ∃ t, exec .translationInvalidation s = .next t ∧ t.mem = s.mem ∧
       t.tlb2 = s.tlb2.filter (fun x => !(invHits sel range x && xlatHome s x == d)) ∧
       ∀ q, findOp t s.subj.a = some q → ∀ c ∈ coreHolders t sel range, c ∈ q.todo) ∧
   (∀ (s : State) (o : Op) (sel range : Word) (f : Nat), findOp s s.subj.a = some o → o.kind = .tlbinv sel range →
     s.subj.b = 8196 + f → s.subj.b ∈ o.todo → linkReady s o.core f 0 = true →
     ∃ t, exec .translationInvalidation s = .next t ∧ t.mem = s.mem ∧ (∀ g ∈ t.gens, invHits sel range g.1 = true → f ∉ g.2.2) ∧
       ∀ q, findOp t s.subj.a = some q → q.todo = o.todo.filter (· != s.subj.b)))

/-- CTXSAVE and CTXLOAD (R381-R384), privileged, outside a lockstep group: CTXSAVE, its waits over, takes the strand's image with s(d) = 1
and the PC after it, and sends its lines as stores of the strand, one remote request each, while the core has fewer than 64; with all of
them acknowledged it goes on with s(d) = 0. CTXLOAD of an image that it accepts, the pages translated (R154), the strand's own accesses to it
settled (R161), no acquire outstanding (R164) and its banks able to serve the read, gives the strand the image's registers and PC, and keeps
its MSGID and budget. That it reads the image in one step is the model's choice (log 18). -/
def Obligations.ContextImageResult : Prop :=
  (∀ (d a : BitVec 5) (x y : Bool) (s : State), s.me.priv = true → s.cur.2 < 4 → Ready [rdS s.me a y, wrS s.me d x] s →
    s.me.pub = false → s.me.sub = false →
    (∀ segs, let p := s.me.rs a y
      pending s = none → tagOf p = 0 ∨ tagOf p = 4 → fieldsOk p = true → p.toNat % 64 = 0 →
      pageMissing s (rangePages p 16384) = none → rangeSegs s s.actor 2 p 16384 = .ok segs → ctxsaveReady s = true →
      ∃ t, exec (.ctxsave d a x y) s = .next t ∧ t.last = .waiting ∧ t.mem = s.mem ∧ t.ops = s.ops ++ [ctxsaveOp d x p segs s] ∧
        t.me = s.me.waitIn .stalled .retry) ∧
    (∀ o, pending s = some o → o.pos < 256 → remoteCount s s.cur.1 < 64 →
      ∃ t, exec (.ctxsave d a x y) s = .next t ∧ t.last = .waiting ∧ t.mem = s.mem ∧
        t.me = ({ s.me with cSt := s.me.cSt + 1 } : Strand).waitIn .stalled .retry ∧
        t.ops = s.ops.map (fun q => if q.id = o.id then { q with pos := q.pos + 1 } else q) ++
          [{ myOp s .store with ctr := some .st, pieces := [ctxsaveLine o o.pos] }]) ∧
    (∀ o, pending s = some o → 256 ≤ o.pos → s.me.cSt = 0 →
      exec (.ctxsave d a x y) s = .next ((dropOp s o.id).done 4 (fun t => t.ws d x 0)))) ∧
  (∀ (a : BitVec 5) (y : Bool) (segs : List Seg) (u : State) (l : List Byte) (s : State), s.me.priv = true → s.cur.2 < 4 →
    Ready [rdS s.me a y] s → s.me.pub = false → s.me.sub = false → s.redLines = [] →
    let p := s.me.rs a y
    tagOf p = 0 ∨ tagOf p = 4 → fieldsOk p = true → p.toNat % 64 = 0 → pageMissing s (rangePages p 16384) = none →
    rangeSegs s s.actor 1 p 16384 = .ok segs → acquiring s = false → (∀ x ∈ segs, settled s x.key x.len = true) → segsFree s segs = true →
    readSegs s s.actor p segs = (u, .ok l) → imageOk u l = true →
    sendsFit (u.onMe (fun t => { t with sends := [] })) s.cur.1 s.cur.2 (sendsOf l) = none →
    (∀ o ∈ s.ops, o.task = s.me.task → o.regs = [] ∧ o.kind ≠ .sfu) → imgNat l 0 8 % 2 = 0 →
    ∃ t, exec (.ctxload a y) s = .next t ∧ t.last = .branched ∧ t.mem = s.mem ∧ t.me.pc = BitVec.ofNat 48 (imgNat l 0 8) ∧
      t.me.msgid = s.me.msgid ∧ t.me.budget = s.me.budget ∧
      (∀ r, r < s.me.nS → r < 64 → r ≠ 0 → t.me.s r = word (imgNat l (64 + 8 * r) 8)) ∧
      (∀ r, r < s.me.nV → r < 32 → t.me.v r = BitVec.ofNat 128 (imgNat l (576 + 16 * r) 16)))

/-! ## Clocks -/

/-- PWRREQ, the governor and the regulators (R309-R312, R453): in a cluster that is in no lock domain and has not tripped, a release of the
pin returns 5; a denied request returns its code and changes nothing else; a granted clock at or below the cluster's is pinned and set at
once, with 1, and one above it waits for the regulators, which REGULATOR_SETTLED lets rise. A governor's sample of a window that has ended
moves its choice by the cycles counted, and the target stays within 9 to 31. -/
def Obligations.ClockResult : Prop :=
  (∀ (d a : BitVec 5) (y : Bool) (s : State), Ready [rdS s.me a y, wrS s.me d false] s → pending s = none → s.cur.2 < 4 →
    let g := s.myCluster
    let v := s.me.rs a y
    let f := bits v 4 0
    bits v 63 6 = 0 →
    (bits v 5 5 = 1 →
      ∃ t, exec (.pwrreq d a y) s = .next t ∧ t.mem = s.mem ∧ (t.cluster g).pin = none ∧
        t.me = (s.me.ws d false 5).goAt (s.me.pc + 4)) ∧
    (∀ n, bits v 5 5 = 0 → pwrDenied s g f = some n →
      exec (.pwrreq d a y) s = .next (s.done 4 (fun t => t.ws d false (BitVec.ofNat 64 n)))) ∧
    (bits v 5 5 = 0 → pwrDenied s g f = none → locked s g = false → (s.cluster g).tripped = false → (s.cluster g).lockSwitch = none →
      ∃ t, exec (.pwrreq d a y) s = .next t ∧ t.mem = s.mem ∧ (t.cluster g).pin = some (f, s.me.ctx) ∧
        (f ≤ (s.cluster g).freq → t.last = .completed ∧ (t.cluster g).freq = f ∧ t.me = (s.me.ws d false 1).goAt (s.me.pc + 4)) ∧
        ((s.cluster g).freq < f → t.last = .waiting ∧ (t.cluster g).freq = (s.cluster g).freq ∧ (t.cluster g).change = some f ∧
          t.me = s.me.waitIn .stalled .retry))) ∧
  (∀ (d a : BitVec 5) (y : Bool) (s : State) (o : Op), Ready [rdS s.me a y, wrS s.me d false] s → pending s = some o →
    changing (s.cluster s.myCluster) = false →
    exec (.pwrreq d a y) s = .next ((dropOp s o.id).done 4 (fun t => t.ws d false 1))) ∧
  (∀ s : State, let g := s.subj.a
    (∀ f, together s g = [g] → (s.cluster g).change = some f →
      ∃ t, exec .regulatorSettled s = .next t ∧ (t.cluster g).freq = f ∧ (t.cluster g).change = none ∧ t.cores = s.cores) ∧
    (s.devtime % 10000 = 0 → (s.cluster g).sampled < s.devtime / 10000 → locked s g = false →
      ∃ t, exec .governorSample s = .next t ∧ (t.cluster g).sampled = s.devtime / 10000 ∧ t.cores = s.cores ∧
        (t.cluster g).gov = govern (s.cluster g).gov (s.cluster g).stalls (s.cluster g).busy ∧ (t.cluster g).stalls = 0 ∧
        (t.cluster g).busy = 0) ∧
    (locked s g = false → 9 ≤ target s g ∧ target s g ≤ 31))

/-! ## Launches and timed work -/

/-- The launch unit (R46, R185, R186, R256, R262, R263, R414): a record that can be read puts its launch at its fence; a fence that has
reached its target as it is read is met, one that has not is watched by a monitor; a fence met, with dimensions that are valid, begins the
posting, and one not met within its timeout ends the launch; LAUNCH_TASK_POST posts the next task's message to the next core of the set,
with the instant whose writes its task is to observe; HOST_LAUNCH gives the Tailor a record, or the launch unit a static grid. What the spec
leaves open of a host launch, its checks and the die that serves it, is the model's choice (log 89). -/
def Obligations.LaunchResult : Prop :=
  (∀ (s u : State) (d n : Nat) (l : Launch), findLaunch s s.subj.a = some (d, l) → l.phase = 0 → tagOf l.record = 0 ∨ tagOf l.record = 4 →
    launchFree s l l.record 64 = true → (∃ k, launchRead s l l.record 64 = (u, .ok (n, k))) → s.redLines = [] →
    ∃ t, exec .dimensionRecordRead s = .next t ∧ t.mem = s.mem ∧ ∀ x ∈ (t.die d).launches, x.id = l.id →
      x.phase = 1 ∧ x.fence = word (nbits n 63 0) ∧ x.target = word (nbits n 127 64) ∧ x.dims = word (nbits n 191 128) ∧
        x.status = word (nbits n 255 192) ∧ x.timeout = (if nbits n 287 256 = 0 then 1000 else nbits n 287 256) ∧
        x.maxTasks = nbits n 319 288) ∧
  (∀ (s u : State) (d v k : Nat) (l : Launch), findLaunch s s.subj.a = some (d, l) → l.phase = 1 → fenceDue s l = true → fenceLate s l = false →
    launchFree s l l.fence 8 = true →
    launchRead s l l.fence 8 = (u, .ok (v, k)) → s.redLines = [] →
    ∃ t, exec .launchFenceMet s = .next t ∧ t.mem = s.mem ∧
      (l.target.toNat ≤ v → ∀ x ∈ (t.die d).launches, x.id = l.id → x = { l with met := some v, metAt := s.devtime }) ∧
      (v < l.target.toNat → monitorsAt s k < 64 → t.monitors = s.monitors ++ [⟨l.id, k, 2, l.target⟩])) ∧
  (∀ (s w : State) (d n v k : Nat) (l g : Launch), findLaunch s s.subj.a = some (d, l) → l.phase = 1 → l.met = some v →
    launchFree s l l.dims 8 = true → launchRead s l l.dims 8 = (w, .ok (n, k)) → gridOf l n = some g → g.gx * g.gy * g.gz ≠ 0 → s.redLines = [] →
    ∃ t, exec .launchFenceMet s = .next t ∧ t.mem = s.mem ∧ ∀ x ∈ (t.die d).launches, x.id = l.id → x = { g with phase := 2 }) ∧
  (∀ (s : State) (d : Nat) (l : Launch), findLaunch s s.subj.a = some (d, l) → fenceLate s l = true → l.status = 0 →
    ∃ t, exec .launchFenceTimeout s = .next t ∧ t.mem = s.mem ∧ (∀ x ∈ (t.die d).launches, x.id ≠ l.id) ∧
      ∀ m ∈ t.monitors, m.op ≠ l.id) ∧
  (∀ (s : State) (l : Launch), l.peer = none → (∀ p ∈ s.net, p.pid ≠ s.nextId) →
    (s.die s.subj.a).launches.find? (fun l => l.phase == 2 && decide (l.next < l.gx * l.gy * l.gz)) = some l →
    ∃ t, exec .launchTaskPost s = .next t ∧
      t.net = s.net ++ [{ pid := s.nextId, src := 8192 + s.subj.a, dst := l.c0 + l.next % l.nc, net := 0, since := s.devtime, holds := none,
                          body := .message 0 (payload ([word l.next, word (l.next % l.gx + 2 ^ 16 * (l.next / l.gx % l.gy) +
                            2 ^ 32 * (l.next / l.gx / l.gy)), word (l.gx + 2 ^ 16 * l.gy + 2 ^ 32 * l.gz)] ++ l.args))
                            l.host s.fabid.toNat (if l.host then 0 else l.core) false none 0, acq := l.metAt }]) ∧
  (∀ s : State, s.subj.b = 0 →
    ∃ t j, exec .hostLaunch s = .next t ∧ t.timedJobs = s.timedJobs ++ [j] ∧ j.ctx = s.subj.a % 8192 ∧ j.host = true ∧
      j.record = s.subj.d.setWidth 64 ∧ t.mem = s.mem ∧ t.cores = s.cores) ∧
  (∀ s : State, s.subj.b = 1 →
    let w := fun (i : Nat) => word (s.subj.d.toNat / 2 ^ (64 * i))
    let g := (w 1).toNat
    coreSetOk (w 0) = true → bits (w 0) 27 27 = 0 → nbits g 15 0 * nbits g 31 16 * nbits g 47 32 ≠ 0 →
    nbits g 15 0 * nbits g 31 16 * nbits g 47 32 ≤ 2 ^ 24 →
    ∃ t l, exec .hostLaunch s = .next t ∧ t.mem = s.mem ∧ t.cores = s.cores ∧
      (t.die (dieOf (bits (w 0) 12 0))).launches = (s.die (dieOf (bits (w 0) 12 0))).launches ++ [l] ∧ l.host = true ∧ l.phase = 2 ∧
      l.ctx = s.subj.a % 8192 ∧ l.c0 = bits (w 0) 12 0 ∧ l.nc = bits (w 0) 26 13 ∧ (l.gx, l.gy, l.gz) = (nbits g 15 0, nbits g 31 16, nbits g 47 32) ∧
      l.args = (List.range 5).map (fun k => w (3 + k)))

/-- The Tailor (R263-R267, R272). In its turn a record that is not valid makes no reservation; a valid one for which a frame is found, and
whose permit queue, if it names one, can be used, becomes a PENDING reservation and raises the floors of its clusters; the clocks there, it
reserves its slots and caps the untimed strands in them; these gone, it writes its entries; then it is ACTIVE from its first run frame on,
or, with no frame to be found, it is freed. A frame is found only where every core of the reservation fits in it with at most three reserved
slots. A cancel lets an ACTIVE reservation of its context end with the current frame, after which it is freed, as one of class T1 or T3 is
after its run frame. What a reservation still PENDING counts for is the model's choice (log 70).
Timed tasks (R268, R270, R271): a run frame that begins posts the tasks of its reservation, of class T0, T1 or T3, on the timed network
and moves to the next; one of class T2 posts none; a timed task that began in its run frame, kept its allowance and its budget and has not
ended by the frame's end is reported with DEADLINE and goes on; one blocked beyond its allowance lapses, and none is reported for it. -/
def Obligations.ReservationResult : Prop :=
  ((∀ (s u : State) (j : TimedJob) (n k line : Nat), s.timedJobs.find? (fun j => j.id == s.subj.a) = some j → j.pending = none →
     timedFree s j = true → readTimed s j = (u, .whole n) → nbits n 11 11 = 0 → inTurn s j = true →
     let r := resvOfRecord j n 0
     let r := { r with rid := freeRid u (dieOf r.first), from_ := arrivalOf u j r }
     (recordValid u n r = false →
       ∃ t, exec .tailorAdmission s = .next t ∧ t.resvs = u.resvs ∧ t.timedJobs = u.timedJobs.filter (fun x => x.id != j.id)) ∧
     (recordValid u n r = true → (∀ d ∈ resvDies r, nbits (u.die d).tailorcfg.toNat 31 31 = 1) →
       chooseFrame u r (lastFrame u) = some k → permitLine u r = some line →
       ∃ t, exec .tailorAdmission s = .next t ∧ t.mem = u.mem ∧
         t.resvs = u.resvs ++ [{ r with frame := k, nextFrame := k, endFrame := lastFrame u, step := 1 }] ∧
         (∀ g ∈ resvClusters r, (t.cluster g).floor = floorOf t.resvs g) ∧
         ∀ x ∈ t.timedJobs, x.id = j.id → x.pending = some r.rid)) ∧
   (∀ (s : State) (j : TimedJob) (r : Resv), s.timedJobs.find? (fun j => j.id == s.subj.a) = some j → j.pending = some r.rid →
     s.resvs.find? (fun x => x.rid == r.rid) = some r →
     (r.step = 1 → floorsDone s r = true →
       ∃ t, exec .tailorAdmission s = .next t ∧ t.mem = s.mem ∧ t.timedJobs = s.timedJobs ∧
         t.resvs = s.resvs.map (fun x => if x.rid = r.rid then { x with step := 2 } else x) ∧
         ∀ c ∈ resvCores r, ∀ i, i < 4 →
           t.slot c i = if (t.core c).reservedSlot i = true ∧ cappable (s.slot c i) = true then (s.slot c i).cap else s.slot c i) ∧
     (r.step = 2 → drainsDone s r = true → usesPermits r = false →
       ∃ t, exec .tailorAdmission s = .next t ∧ t.mem = s.mem ∧ t.timedJobs = s.timedJobs ∧
         t.resvs = s.resvs.map (fun x => if x.rid = r.rid then { x with step := 4, pool := 0 } else x) ∧
         ∀ c ∈ resvCores r, (t.core c).entry r.chan = timedEntry r ((s.core c).entry r.chan)) ∧
     ((r.step = 1 ∧ floorsDone s r = false) ∨ (r.step = 2 ∧ drainsDone s r = false) → exec .tailorAdmission s = .next s) ∧
     (∀ k, r.step ≠ 1 → r.step ≠ 2 → firstFrame s r = some k →
       ∃ t, exec .tailorAdmission s = .next t ∧ t.timedJobs = s.timedJobs.filter (fun x => x.id != j.id) ∧
         t.resvs = s.resvs.map (fun x => if x.rid = r.rid then
           { r with st := 1, frame := k, nextFrame := k, endFrame := 0, refill := s.devtime / 10000 + 1 } else x)) ∧
     (r.step ≠ 1 → r.step ≠ 2 → firstFrame s r = none →
       ∃ t, exec .tailorAdmission s = .next t ∧ t.timedJobs = s.timedJobs.filter (fun x => x.id != j.id) ∧
         t.resvs = s.resvs.filter (fun x => x.rid != r.rid))) ∧
   (∀ (s : State) (r : Resv) (k last : Nat), chooseFrame s r last = some k →
     s.devtime / 10000 + 1 ≤ k ∧ k ≤ s.devtime / 10000 + 63 ∧ k ≤ last ∧ ∀ c ∈ resvCores r, ∃ n, n ≤ 3 ∧ (s.core c).rsv ≤ n ∧
       ∀ f ∈ testFrames s { r with frame := k }, frameFits (chainsAt ({ r with frame := k } :: otherResvs s r) c f) n = true) ∧
   (∀ (s u : State) (j : TimedJob) (n : Nat), s.timedJobs.find? (fun j => j.id == s.subj.a && j.pending.isNone) = some j →
     timedFree s j = true →
     readTimed s j = (u, .whole n) → nbits n 11 11 = 1 → recordReserved n = true → statusSpace (statusOf n) = true →
     (∃ r ∈ u.resvs, r.rid = nbits n 143 128 ∧ r.st = 1 ∧ r.ctx = j.ctx) →
     ∃ t, exec .tailorCancel s = .next t ∧ t.timedJobs = u.timedJobs.filter (fun x => x.id != j.id) ∧ t.resvs = u.resvs.map (fun r =>
       if r.rid = nbits n 143 128 then { r with st := 2, endFrame := u.devtime / 10000 } else r)) ∧
   (∀ (s : State) (r : Resv) (k : Nat), s.resvs.find? (fun r => r.rid == s.subj.a) = some r →
     (r.st = 2 ∧ k = r.endFrame) ∨ (r.st = 1 ∧ (r.cls = 1 ∨ r.cls = 3) ∧ k = r.frame) → (k + 1) * 10000 ≤ s.devtime →
     ∃ t, exec .reservationEnd s = .next t ∧ t.resvs = s.resvs.filter (fun x => x.rid != r.rid))) ∧
  ((∀ (s : State) (r : Resv), s.resvs.find? (fun r => r.rid == s.subj.a) = some r → r.st = 1 →
     (r.cls = 1 ∨ r.cls = 3 → r.nextFrame = r.frame) → r.nextFrame * 10000 ≤ s.devtime → usesPermits r = false →
     ∃ t, exec .runFrameStart s = .next t ∧ t.mem = s.mem ∧
       t.net.length = s.net.length + (if r.cls = 2 then 0 else (resvCores r).length * resvTasks r) ∧
       (∀ p ∈ t.net, p ∈ s.net ∨ (p.net = 2 ∧ p.dst ∈ resvCores r)) ∧
       t.resvs = s.resvs.map (fun y => if y.rid = r.rid then
         { y with nextFrame := y.nextFrame + (if y.cls = 0 then y.period else 1) } else y)) ∧
   (∀ (s : State) (x : Timing), let u := s.slot s.subj.a s.subj.b
     u.timing = some x → x.lapsed = false → s.subj.b < 4 →
     (u.st = .ready → x.frameEnd ≤ s.devtime → u.started < x.frameEnd → x.used ≤ x.wait → budgetDue u = false →
       ∃ t, exec .deadline s = .next t ∧ t.mem = s.mem ∧ t.slot s.subj.a s.subj.b = { u with timing := none } ∧
         t.net.length + t.hostRing.length = s.net.length + s.hostRing.length + 1) ∧
     (x.wait < x.used → u.st ≠ .blocked → exec .deadline s = .next s) ∧
     (x.wait < x.used →
       ∃ t, exec .timedWaitLapse s = .next t ∧ t.mem = s.mem ∧
         t.slot s.subj.a s.subj.b = { u with timing := some { x with lapsed := true } })))

/-! ## Errors, the link, bring-up and the host -/

/-- Errors and the loss of a die (R14, R288, R289, R291, R293, R294, R308): a corrected error is counted on its die and logged by its raw
place; an uncorrectable one in a scratchpad poisons its unit, and one of a home bank's table fences the context whose entry it is; a lost
die is out of service, fenced, with nothing of its cores or clusters under way and nothing on its way from it or to it; reset and
re-admitted, its cores and clusters are as after reset, but for the slots retired and the spares used, and its lines of main memory are
poisoned. The model's own readings: what a loss takes with it on the way (log 60), what stands through a re-admission (log 61), and that a
queue object belongs to the context that last initialised it (log 92).
Thermal trips (R313) and the host (R168, R280, R302, R304, R528): a tripped cluster outside every lock domain goes to 9, and is free
again after its recovery; a posted message enters the mesh, a posted write is applied once its home bank has a way (R146), a doorbell releases its report, a register takes what
is written to it, and its reserved bits read zero (R4). -/
def Obligations.ErrorAndHostResult : Prop :=
  ((∀ s : State,
     let d := errorDie s.subj.a s.subj.b s.subj.c
     ∃ t, exec .correctableError s = .next t ∧ (t.die d).errcount = (s.die d).errcount + 1 ∧ t.mem = s.mem ∧
       t.cores = s.cores ∧ (s.errlog.length < s.errSize.toNat → t.errlog = s.errlog ++
         [{ time := s.devtime, die := d, row := s.subj.a, loc := errorPlace s s.subj.a s.subj.b s.subj.c, corrected := true }])) ∧
   (∀ s : State, s.subj.a = 2 → s.subj.b < 8192 →
     ∃ t, exec .uncorrectableError s = .next t ∧ t.mem = s.mem ∧ poisoned t (spKey s.subj.b (s.subj.c % 2 ^ 18)) 1 = true ∧
       t.msi = s.msi ++ [2]) ∧
   (∀ (s : State) (x : Nat), s.subj.a = 5 → tableOwners s (s.subj.b / 4) s.subj.c = [x] →
     ∃ t, exec .uncorrectableError s = .next t ∧
       t = logError (fence s x) (s.subj.b % 4) 5 (errorPlace s 5 s.subj.b s.subj.c) false) ∧
   (∀ s : State, s.subj.a < 4 → (s.die s.subj.a).lost = false →
     ∃ t, exec .dieLoss s = .next t ∧ exec .thermalShutdown s = .next t ∧ (t.die s.subj.a).lost = true ∧
       (∀ o ∈ t.ops, o.core < 8192 → dieOf o.core ≠ s.subj.a) ∧ (∀ p ∈ t.net, p.pid < s.nextId →
         sourceDie p ≠ some s.subj.a ∧ boundFor s.subj.a p = false) ∧
       ∀ g, g / 128 = s.subj.a → (t.cluster g).tileq = [] ∧ (t.cluster g).sfuq = [] ∧ (t.cluster g).glover = [] ∧ (t.cluster g).credits = []) ∧
   (∀ s : State, (s.die s.subj.a).lost = true → (s.die s.subj.a).wasReset = true → (s.die s.subj.a).boot = 5 →
     ∃ t, exec .dieReadmission s = .next t ∧ (t.die s.subj.a).lost = false ∧
       (∀ c, t.core c = if dieOf c = s.subj.a
         then { State.reset.core c with retired := (s.core c).retired, spares := (s.core c).spares } else s.core c) ∧
       (∀ g, t.cluster g = if g / 128 = s.subj.a then State.reset.cluster g else s.cluster g) ∧
       ∀ k, isHbm k = true → keyDie (unitOf k) = some s.subj.a → poisoned t k 1 = true) ∧
   (∀ s : State, (s.die s.subj.a).wasReset = false → exec .dieReadmission s = .next s)) ∧
  ((∀ s : State, s.subj.a < 512 →
     ((s.cluster s.subj.a).tripped = false → locked s s.subj.a = false → 9 ≤ (s.cluster s.subj.a).freq →
       ∃ t, exec .thermalTrip s = .next t ∧ t.mem = s.mem ∧ (t.cluster s.subj.a).tripped = true ∧ (t.cluster s.subj.a).freq = 9) ∧
     ((s.cluster s.subj.a).tripped = true →
       ∃ t, exec .thermalRecovery s = .next t ∧ t.mem = s.mem ∧ (t.cluster s.subj.a).tripped = false)) ∧
   (∀ s : State,
     ∃ t p, exec .hostPostedMessage s = .next t ∧ t.mem = s.mem ∧ t.net = s.net ++ [p] ∧ p.dst = s.subj.a % 8192 ∧ p.net = 0 ∧
       p.body = .message (s.subj.b % 64) (Vector.ofFn (fun i : Fin 8 => word (s.subj.d.toNat / 2 ^ (64 * i.val)))) true s.fabid.toNat 0
         false none 0) ∧
   (∀ s : State, s.redLines = [] → s.subj.a / 8 * 8 < 2 ^ 40 → onLostDie s (s.subj.a / 8 * 8) = false →
     ∃ t, exec .hostPostedWrite s = .next t ∧
       (homeRoom s (s.subj.a / 8 * 8 / 64) = true → Wrote s t (s.subj.a / 8 * 8) 8 (s.subj.d.toNat % 2 ^ 64) 255) ∧
       (homeRoom s (s.subj.a / 8 * 8 / 64) = false → t = { s with agenda := (2, .hostPostedWrite, s.subj) :: s.agenda })) ∧
   (∀ (s : State) (r : Report), barOpen s = true → s.subj.a < 2 → findReport s (s.subj.d.setWidth 64) = some r →
     ∃ t, exec .reportDoorbell s = .next t ∧ t.mem = s.mem ∧ t.reports = s.reports.erase r ∧
       ∀ p ∈ r.channels, p.2 ∉ (t.core p.1).suspended) ∧
   (∀ s : State, s.subj.b = 0 →
     (s.subj.a = 0x10 → exec .hostRegisterWrite s = .next (if s.modReady then s else { s with fabid := s.subj.d.setWidth 12 })) ∧
     (barOpen s = true → s.subj.a = 0x100 → exec .hostRegisterWrite s = .next { s with ctxtable := s.subj.d.setWidth 64 })) ∧
   (∀ (s : State) (d : Nat) (v : Word), d < 4 → barOpen s = true →
     barRead (barWrite s (0x40000 + 0x100 * d) v) (0x40000 + 0x100 * d) = v &&& 0x800003FF))

/-- Ports (R295-R301; Table 15.2): each of a port's steps takes it from the state in which it is due to the next, with what has been found
recorded in PORTSTAT; a resend that fails is counted and one that succeeds ends the row; a READY port narrows as a lane in use fails, within
the lanes in use, and widens once a failed lane has passed its retrain, keeping them; a retrain is counted; a port that is DOWN and not
disabled looks for a partner again, and who asks it to is the model's choice, as is which of several lane groups a port uses (log 91).
The fabric (R299, R303, R528): a message from another device goes on as a packet of the mesh, with its source core, or none where its
device's host launched it; a packet for a peer leaves where a port is READY for it and no earlier packet of its flow waits, one for this
device coming back as a message, and is dropped once it has found no port for 1 ms.
Bring-up (R302, R306, R307; Table 15.4): a stage that passes takes its die to the next, one that fails out of service with its code
plus 0x80; the fourth waits for MODCTL.READY and settled ports, and releases the cores; module reset leaves the module as after reset,
its registers for which the spec gives no value as logs 4 and 62 name them; DIERESET begins the bring-up of a lost die again. -/
def Obligations.LinkAndBringUpResult : Prop :=
  (∀ (s : State) (p : Port), s.subj.a < 16 → s.port s.subj.a = p →
     (portState p = 1 → s.devtime ≤ p.since + 10000000 →
       ∃ t, exec .portPartnerSeen s = .next t ∧ portState (t.port s.subj.a) = 2 ∧ bits (t.port s.subj.a).stat 43 32 = s.subj.b % 4096) ∧
     (portState p = 1 → p.since + 10000000 ≤ s.devtime →
       ∃ t, exec .portDetectTimeout s = .next t ∧ portState (t.port s.subj.a) = 0) ∧
     (portState p = 2 → s.subj.b % 256 ≠ 0 →
       ∃ t, exec .laneTraining s = .next t ∧ portState (t.port s.subj.a) = 3 ∧ bits (t.port s.subj.a).stat 23 16 = s.subj.b % 256) ∧
     (portState p = 2 → s.subj.b % 256 = 0 → p.fails = [] →
       ∃ t, exec .laneTraining s = .next t ∧ portState (t.port s.subj.a) = 1 ∧ (t.port s.subj.a).fails = [s.devtime]) ∧
     (∀ v, portState p = 3 → bestSpeed s.subj.b = some v →
       ∃ t, exec .speedSettle s = .next t ∧ portState (t.port s.subj.a) = 4 ∧ bits (t.port s.subj.a).stat 4 3 = v) ∧
     (∀ v, portState p = 4 → bestWidth (s.subj.b &&& bits p.stat 23 16) = some v →
       ∃ t, exec .widthSettle s = .next t ∧ portState (t.port s.subj.a) = 5 ∧ bits (t.port s.subj.a).stat 7 6 = v) ∧
     (portState p = 5 →
       ∃ t, exec .attestation s = .next t ∧ portState (t.port s.subj.a) = if s.subj.b = 1 then 6 else 7) ∧
     (portState p = 6 →
       (p.resends < 8 →
         ∃ t, exec .flitCrcFailure s = .next t ∧ t.port s.subj.a = { p with resends := if s.subj.b = 1 then p.resends + 1 else 0 }) ∧
       (∀ g, let bit := 2 ^ (s.subj.c % 8)
         bits p.stat 7 6 < s.subj.b % 4 → p.inUse &&& bit = bit → groupIn (p.inUse - bit) (s.subj.b % 4) (fun _ => true) = some g →
         ∃ t, exec .widthMarker s = .next t ∧ portState (t.port s.subj.a) = 6 ∧ bits (t.port s.subj.a).stat 7 6 = s.subj.b % 4 ∧
           (t.port s.subj.a).lanes = p.lanes - bit ∧ (t.port s.subj.a).inUse = g) ∧
       (∀ g, let bit := 2 ^ (s.subj.c % 8)
         s.subj.b % 4 < bits p.stat 7 6 → p.lanes &&& bit ≠ bit →
         groupIn (p.lanes + bit) (s.subj.b % 4) (fun g => g &&& bit == bit && g &&& p.inUse == p.inUse) = some g →
         ∃ t, exec .widthMarker s = .next t ∧ portState (t.port s.subj.a) = 6 ∧ bits (t.port s.subj.a).stat 7 6 = s.subj.b % 4 ∧
           (t.port s.subj.a).lanes = p.lanes + bit ∧ (t.port s.subj.a).inUse = g) ∧
       (8 ≤ p.resends →
         ∃ t, exec .portRetrain s = .next t ∧ portState (t.port s.subj.a) = 2 ∧ (t.port s.subj.a).resends = 0 ∧
           bits (t.port s.subj.a).stat 31 24 = (bits p.stat 31 24 + 1) % 256)) ∧
     (portState p = 0 → bits p.stat 63 63 = 0 → barOpen s = true →
       ∃ t, exec .portRetrain s = .next t ∧ portState (t.port s.subj.a) = 1 ∧
         bits (t.port s.subj.a).stat 31 24 = (bits p.stat 31 24 + 1) % 256) ∧
     (barOpen s = true → s.subj.b = 1 →
       ∃ t, exec .portstatDisable s = .next t ∧ portState (t.port s.subj.a) = 0 ∧ bits (t.port s.subj.a).stat 63 63 = 1 ∧
         (t.port s.subj.a).fails = p.fails)) ∧
  ((∀ s : State, s.subj.a = 0 → s.subj.b < 4096 → s.subj.b ≠ s.fabid.toNat → nbits s.subj.c 21 21 = 0 →
     ∃ t, exec .linkPacketArrival s = .next t ∧ t.mem = s.mem ∧ ∃ p, t.net = s.net ++ [p] ∧ p.dst = nbits s.subj.c 12 0 ∧ p.net =
       nbits s.subj.c 20 19 % 3 ∧ p.holds = none ∧ p.body = .message (nbits s.subj.c 18 13)
         (Vector.ofFn (fun i : Fin 8 => word (s.subj.d.toNat / 2 ^ (64 * i.val)))) (nbits s.subj.c 35 35 == 1) s.subj.b
         (if nbits s.subj.c 35 35 = 1 then 0 else nbits s.subj.c 34 22) false none 0) ∧
   (∀ (s : State) (p : Packet) (dev core ch src : Nat) (host : Bool) (pay : Vector Word 8),
     s.net.find? (fun x => x.pid == s.subj.a) = some p → p.body = .peer dev core ch pay 0 host src → findLaunch s 0 = none →
     (s.subj.a ≠ 0 → linkReady s p.src dev core = true → (∀ q ∈ s.net, q.pid < p.pid → q.src = p.src → q.net = p.net →
         ∀ ch' pay' n' host' src', q.body ≠ .peer dev core ch' pay' n' host' src') →
       ∃ t, exec .linkPacketArrival s = .next t ∧ t.mem = s.mem ∧
         (dev ≠ s.fabid.toNat → t.net = s.net.filter (fun q => q.pid != p.pid)) ∧
         (dev = s.fabid.toNat → ∃ q, t.net = s.net.filter (fun q => q.pid != p.pid) ++ [q] ∧ q.dst = core ∧ q.net = p.net ∧
           q.body = .message ch pay host dev (if host then 0 else src) false none 0)) ∧
     (linkReady s p.src dev core = false → waitedOut s (waitKey p.pid 0) = true →
       ∃ t, exec .routeWaitTimeout s = .next t ∧ t.mem = s.mem ∧ t.net = s.net.filter (fun q => q.pid != p.pid)))) ∧
  ((∀ s : State, s.subj.a < 4 → ((s.die s.subj.a).lost = true → (s.die s.subj.a).wasReset = true) →
     (∀ p ∈ ([(.firmwareStage, 1), (.meshStage, 3)] : List (Instr × Nat)), (s.die s.subj.a).boot = p.2 →
       ∃ t, exec p.1 s = .next t ∧ t.mem = s.mem ∧ (t.die s.subj.a).boot = (if s.subj.b = 1 then p.2 + 1 else p.2 + 0x80) ∧
         (t.die s.subj.a).lost = if s.subj.b = 1 then (s.die s.subj.a).lost else true) ∧
     ((s.die s.subj.a).boot = 2 →
       ∃ t, exec .memoryStage s = .next t ∧ t.mem = s.mem ∧ (t.die s.subj.a).boot = if s.subj.b % 16 = 15 then 3 else 0x82) ∧
     ((s.die s.subj.a).boot = 4 → s.modReady = true →
       (∀ i, i < 4 → portState (s.port (4 * s.subj.a + i)) ∈ [0, 6, 7]) →
       ∃ t, exec .linksStage s = .next t ∧ t.mem = s.mem ∧ (t.die s.subj.a).boot = 5)) ∧
   (∀ s : State, ∃ t, exec .modctlReady s = .next t ∧ t.modReady = true ∧ t.mem = s.mem ∧ t.cores = s.cores) ∧
   (∀ s : State, exec .moduleReset s = .next { State.reset with tick := s.tick, agenda := s.agenda }) ∧
   (∀ (s : State) (d : Nat), d < 4 → barOpen s = true → s.subj.a / 2 ^ d % 2 = 1 → (s.die d).lost = true →
     ∃ t, exec .diereset s = .next t ∧ (t.die d).boot = 1 ∧ (t.die d).lost = true ∧ (t.die d).wasReset = true ∧ t.mem = s.mem))

/-! ## The whole machine -/

/-- Frame of the register forms (R24, R73, R74, R121 and each form's rule): whatever such a form comes to, completing, trapping or
waiting, nothing outside the running strand changes, memory included, but that a strand stopped by BRK takes a save image of its context and is detached from its
channel (R69, R282); in the strand, every register but the destinations, FMT but the
sticky flags of the forms that raise them, and every other register that software names stay as they were. -/
def Obligations.RegisterFormFrame : Prop :=
  ∀ (i : Instr) (s t : State), registerForm i = true → s.cur.2 < 4 → exec i s = .next t →
    OnlyStrand s t ∧ SameBut (destOf s i) s.me t.me ∧ SameRest (flagForm i) s.me t.me

/-- Frame of the forms that start an operation or buffer a send: as they issue, wait or complete, every byte of memory and every other
strand slot stay as they were, and of the running strand's registers only the destinations change, where the form's answer or a copy in
L1 is at hand. What such an operation writes to memory, its own event writes. -/
def Obligations.IssueFrame : Prop :=
  ∀ (i : Instr) (s t : State), issueForm i = true → s.cur.2 < 4 → exec i s = .next t →
    t.mem = s.mem ∧ (∀ c j, (c, j) ≠ s.cur → t.slot c j = s.slot c j) ∧ SameBut (destOf s i) s.me t.me

/-- A step runs the decoded instruction (R22, R86, R96): with nothing due, no input due and a strand that fetches picked, one that publishes
not held, the step runs the instruction at its PC with the strand READY, then retires it and lets time pass; a strand that issues first
after a migration enters its sends before, or traps with SQFULL (R435); where the fetch traps, it traps; a translation that is missing is a
short stall and a line that is missing is brought in, as a remote request, once its core has room for one (R156) and its home bank for the
line (R146); in each case the round robin goes on. The instruction at an even PC is the one that the bytes of the instruction cache decode
to, 2 bytes, or 4 where bit 15 of the first halfword is 1; bytes that decode to none trap with ILLOP and TVAL the encoding. A step that is
an event, or an input that is due, runs that event; for what has become due no time passes. How a pick falls and how much time passes, up to
the next boundary of 10 us, are the model's free values (log 2, log 3). -/
def Obligations.StepRunsDecodedInstruction : Prop :=
  (∀ (s : State) (c j : Nat), dueEvents s = [] → dueInput s = none → pick s = some (.issue c j) → (s.turnTo c j).me.sub = false →
    ((s.turnTo c j).me.pub = true → publisherHeld (s.chan (s.turnTo c j).me.ichan) = false) →
    let v := s.turnTo c j
    let u := if v.me.entering then v.onMe (fun t => { t with entering := false }) else v
    (∀ n, v.me.entering = true → sendsFit v c j v.me.sends = some n →
      step s = .next (passTime (turn (takeTrap u .sqfull 0x0A 0 (word n)) c j))) ∧
    ((v.me.entering = true → sendsFit v c j v.me.sends = none) →
      (∀ i len, fetch u = .instr i len →
        step s = andThen (exec i u.readied) (fun t => passTime (retire u.readied i len t))) ∧
      (∀ x sub tval, fetch u = .trap x sub tval →
        step s = .next (passTime (turn (takeTrap u x (causeCode x) sub tval) c j))) ∧
      (∀ a sp va, fetch u = .walk a sp va →
        step s = .next (passTime (turn ((u.onMe (fun t =>
          { t with walk := some (a, sp, va), walkAt := s.tick, st := .stalled, wait := refetchWait t.wait })).withLast .waiting) c j))) ∧
      (∀ k p, fetch u = .fill k p →
        (homeRoom u (k / 64) = true → remoteCount u c < 64 → step s = .next (passTime (turn (fillLine (perf u c 0x13 1) k p) c j))) ∧
        (homeRoom u (k / 64) = false ∨ 64 ≤ remoteCount u c →
          step s = .next (passTime (turn ((u.onMe (fun t =>
            { t with st := .stalled, wait := refetchWait t.wait })).withLast .waiting) c j)))))) ∧
  (∀ (s : State) (k : Nat) (x : L1Line), s.me.pc.toNat % 2 = 0 → translate s 4 4 s.me.pc.toNat = .key k → onLostDie s k = false →
    icacheHit s (k / 64) = some x →
    (∀ i, l1Value x k 2 < 2 ^ 15 → decodeTableWord 16 (l1Value x k 2) = some i → fetch s = .instr i 2) ∧
    (l1Value x k 2 < 2 ^ 15 → decodeTableWord 16 (l1Value x k 2) = none → fetch s = .trap .illop 0 (word (l1Value x k 2))) ∧
    (∀ l y, 2 ^ 15 ≤ l1Value x k 2 → l1Value x k 2 < 2 ^ 16 → translate s 4 4 ((s.me.pc.toNat + 2) % 2 ^ 48) = .key l →
      onLostDie s l = false → icacheHit s (l / 64) = some y → l1Value y l 2 < 2 ^ 16 →
      (∀ i, decodeTableWord 32 (l1Value x k 2 * 65536 + l1Value y l 2) = some i → fetch s = .instr i 4) ∧
      (decodeTableWord 32 (l1Value x k 2 * 65536 + l1Value y l 2) = none →
        fetch s = .trap .illop 0 (word (l1Value x k 2 * 65536 + l1Value y l 2))))) ∧
  (∀ s : State, s.me.pc.toNat % 2 = 1 → fetch s = .trap .align 0 (word s.me.pc.toNat)) ∧
  (∀ (s : State) (i : Instr) (x : Subject),
    (dueEvents s = [] → dueInput s = none → pick s = some (.event i x) →
      step s = andThen (exec i { s with subj := x, last := .none }) passTime) ∧
    (∀ l, dueEvents s = .event i x :: l → step s = andThen (exec i { s with subj := x, last := .none }) still) ∧
    (∀ u, dueEvents s = [] → dueInput s = some (i, x, u) → isInput i = true →
      step s = andThen (exec i { u with subj := x, last := .none }) passTime)) ∧
  (∀ s : State, s.devtime ≤ (passTime s).devtime ∧ (passTime s).devtime ≤ (s.devtime / 10000 + 1) * 10000 ∧ (still s).devtime = s.devtime)

/-- Words that the spec writes out decode to their instructions (R86-R94, Tables 4.18 and 5.4, the EXT sequence and the fetch stream after
Table 4.18): the bytes A6 04 30 A2 88 88 00 60 hold a compact ADD, VADD.i16 and a compact END; 0x6001 decodes to nothing. -/
def Obligations.DecodeWords : Prop :=
  (decodeTableWord 32 0x82308800 = some (.add 3 1 2 false false) ∧
    decodeTableWord 32 0x88521900 = some (.fadd 5 4 6 false true 0) ∧
    decodeTableWord 32 0xA2308888 = some (.vadd 3 1 2 1 1) ∧ decodeTableWord 32 0xF8123456 = some (.ext 2 0x123456) ∧
    decodeTableWord 32 0x8C200C06 = some (.extHi 2 3) ∧ decodeTableWord 32 0x821C009A = some (.movWindow 1 0 false)) ∧
  (decodeTableWord 16 0x2891 = some (.compactAddi 1 1 1) ∧ decodeTableWord 16 0x717D = some (.compactLi 2 0x7D) ∧
    decodeTableWord 16 0x4482 = some (.compactBeq 1 2) ∧ decodeTableWord 16 0x0594 = some (.compactAdd 3 1 2) ∧
    decodeTableWord 16 0x6000 = some .compactEnd ∧ decodeTableWord 16 0x6001 = none) ∧
  decodeBytes [0xA6, 0x04, 0x30, 0xA2, 0x88, 0x88, 0x00, 0x60] =
    .ok (.compactAdd 1 2 3, [0x30, 0xA2, 0x88, 0x88, 0x00, 0x60]) ∧
  decodeBytes [0x30, 0xA2, 0x88, 0x88, 0x00, 0x60] = .ok (.vadd 3 1 2 1 1, [0x00, 0x60]) ∧
  decodeBytes [0x00, 0x60] = .ok (.compactEnd, [])

/-- Decoding undoes encoding (R86-R94): the encoding of every well-formed instruction decodes to that instruction, with every operand
at every value that the encoding admits. Events of the device have no encoding. -/
def Obligations.EncodeDecodeRoundTrip : Prop :=
  ∀ (i : Instr) (n w : Nat), i.wf = true → encode i = some (n, w) → decodeTableWord n w = some i

/-- Every encoding has one meaning (R86-R94): a word (bit 31, bit 15 of its first halfword, set) or a halfword that decodes at all decodes
to a well-formed instruction of which it is the encoding; so no two encodings name one instruction, and no reserved bit is passed over. -/
def Obligations.DecodeIsCanonical : Prop :=
  ∀ (i : Instr) (w : Nat),
    (2 ^ 31 ≤ w → w < 2 ^ 32 → decodeTableWord 32 w = some i → i.wf = true ∧ encode i = some (32, w)) ∧
    (w < 2 ^ 16 → decodeTableWord 16 w = some i → i.wf = true ∧ encode i = some (16, w))

/-- The memory keeps its canonical form in every step, from every state in which it has it. -/
def Obligations.StepKeepsMemoryCanonical : Prop := ∀ s t : State, s.Inv → step s = .next t → t.Inv

/-- No step ends a run: from every state the step goes on, with every trap, report and error of the spec as a next state. -/
def Obligations.EveryStepGoesOn : Prop := ∀ s : State, goesOn (step s)

/-- Module reset (R4, R19, R306, Tables 2.2, 3.1, 7.7): DEVTIME is 0; every die is at stage 1 of its bring-up; every slot is FREE with s0 0
and k0 all ones; of a handler entry only MASK is set; instruction channels are FREE; LEASE is 3, a lease of 256 ns; no update function is
installed; memory lists nothing and is in canonical form. That bytes which nothing has written read 0 is the model's choice (log 1). -/
def Obligations.ResetState : Prop :=
  State.reset.Inv ∧ State.reset.devtime = 0 ∧ (∀ k, readByte State.reset k = 0) ∧ (∀ d, (State.reset.die d).boot = 1) ∧
  (∀ c i, (State.reset.slot c i).st = .free ∧ (State.reset.slot c i).s 0 = 0 ∧ (State.reset.slot c i).k 0 = 0xFFFF) ∧
  (∀ c ch, (State.reset.core c).entry ch = (1 : BitVec 128) <<< 89) ∧ (∀ c, (State.reset.core c).rx = []) ∧
  (∀ c, (State.reset.chan c).st = .free) ∧ (∀ a, leaseOf State.reset a = 256) ∧ State.reset.ufns = [] ∧ State.reset.modReady = false ∧
  (∀ d, (State.reset.die d).tailorcfg = 50)
end

