-- ==== Sys2Proof/Laws/Map.lean ====
section
/-!
SUPPORT. The finite maps: reading what was set, leaving other keys alone, and rising keys kept.
-/

namespace Sys2Proof.Machine

variable {α : Type}

@[simp] theorem mapGet?_set (m : AMap α) (i : Nat) (v : α) : mapGet? (mapSet m i v) i = some v := by
  induction m with
  | nil => simp [mapSet, mapGet?]
  | cons p t ih =>
    obtain ⟨k, w⟩ := p
    by_cases h : k = i
    · simp [mapSet, mapGet?, h]
    · by_cases h2 : i < k <;> simp [mapSet, mapGet?, h, h2, ih]

theorem mapGet?_set_ne (m : AMap α) {i j : Nat} (v : α) (h : j ≠ i) : mapGet? (mapSet m i v) j = mapGet? m j := by
  induction m with
  | nil => simp [mapSet, mapGet?, Ne.symm h]
  | cons p t ih =>
    obtain ⟨k, w⟩ := p
    by_cases hk : k = i
    · subst hk; simp [mapSet, mapGet?, Ne.symm h]
    · by_cases h2 : i < k
      · simp [mapSet, mapGet?, hk, h2, Ne.symm h]
      · simp only [mapSet, if_neg hk, if_neg h2, mapGet?, ih]

@[simp] theorem mapGet_set (d : α) (m : AMap α) (i : Nat) (v : α) : mapGet d (mapSet m i v) i = v := by
  simp [mapGet]

theorem mapGet_set_ne (d : α) (m : AMap α) {i j : Nat} (v : α) (h : j ≠ i) : mapGet d (mapSet m i v) j = mapGet d m j := by
  simp [mapGet, mapGet?_set_ne m v h]

@[simp] theorem mapSet_set (m : AMap α) (i : Nat) (v w : α) : mapSet (mapSet m i v) i w = mapSet m i w := by
  induction m with
  | nil => simp [mapSet]
  | cons p t ih =>
    obtain ⟨k, x⟩ := p
    by_cases h : k = i
    · simp [mapSet, h]
    · by_cases h2 : i < k <;> simp [mapSet, h, h2, ih]

theorem mapGet?_del (m : AMap α) (i : Nat) : mapGet? (mapDel m i) i = none := by
  induction m with
  | nil => rfl
  | cons p t ih =>
    obtain ⟨k, x⟩ := p
    by_cases h : k = i
    · simpa [mapDel, h] using ih
    · simpa [mapDel, h, mapGet?] using ih

theorem mapGet?_del_ne (m : AMap α) {i j : Nat} (h : j ≠ i) : mapGet? (mapDel m i) j = mapGet? m j := by
  induction m with
  | nil => rfl
  | cons p t ih =>
    obtain ⟨k, x⟩ := p
    by_cases hk : k = i
    · subst hk; simpa [mapDel, mapGet?, Ne.symm h] using ih
    · by_cases hj : k = j
      · subst hj; simp [mapDel, hk, mapGet?]
      · simpa [mapDel, hk, hj, mapGet?] using ih

/-- Every key of a map is above a bound. -/
def keysAbove (b : Nat) (m : AMap α) : Prop := ∀ p ∈ m, b < p.1

theorem mapWf_cons (k : Nat) (v : α) (t : AMap α) : mapWf ((k, v) :: t) = true ↔ keysAbove k t ∧ mapWf t = true := by
  induction t generalizing k v with
  | nil => simp [mapWf, keysAbove]
  | cons p t ih =>
    obtain ⟨l, w⟩ := p
    simp only [mapWf, Bool.and_eq_true, decide_eq_true_eq, keysAbove, List.mem_cons, forall_eq_or_imp]
    constructor
    · rintro ⟨h, hw⟩
      exact ⟨⟨h, fun q hq => lt_trans h (((ih l w).1 hw).1 q hq)⟩, hw⟩
    · rintro ⟨⟨h, _⟩, hw⟩; exact ⟨h, hw⟩

theorem keysAbove_set {b : Nat} {m : AMap α} {i : Nat} (v : α) (hm : keysAbove b m) (hi : b < i) : keysAbove b (mapSet m i v) := by
  induction m with
  | nil => simpa [mapSet, keysAbove] using hi
  | cons p t ih =>
    obtain ⟨k, w⟩ := p
    simp only [keysAbove, List.mem_cons, forall_eq_or_imp] at hm
    have ih := ih hm.2
    by_cases h : k = i
    · simp only [mapSet, h, if_true, keysAbove, List.mem_cons, forall_eq_or_imp]; exact ⟨hi, hm.2⟩
    · by_cases h2 : i < k
      · simp only [mapSet, h, h2, if_true, if_false, keysAbove, List.mem_cons, forall_eq_or_imp]; exact ⟨hi, hm.1, hm.2⟩
      · simp only [mapSet, h, h2, if_false, keysAbove, List.mem_cons, forall_eq_or_imp]; exact ⟨hm.1, ih⟩

/-- Setting a key keeps the keys rising. -/
theorem mapWf_set (m : AMap α) (i : Nat) (v : α) (h : mapWf m = true) : mapWf (mapSet m i v) = true := by
  induction m with
  | nil => rfl
  | cons p t ih =>
    obtain ⟨k, w⟩ := p
    obtain ⟨ha, ht⟩ := (mapWf_cons k w t).1 h
    by_cases hk : k = i
    · subst hk; simp only [mapSet, if_true]; exact (mapWf_cons ..).2 ⟨ha, ht⟩
    · by_cases h2 : i < k
      · simp only [mapSet, hk, h2, if_true, if_false]
        refine (mapWf_cons ..).2 ⟨?_, h⟩
        simp only [keysAbove, List.mem_cons, forall_eq_or_imp]
        exact ⟨h2, fun q hq => lt_trans h2 (ha q hq)⟩
      · simp only [mapSet, hk, h2, if_false]
        exact (mapWf_cons ..).2 ⟨keysAbove_set v ha (by omega), ih ht⟩

/-- A part of a map keeps the keys rising. -/
theorem mapWf_filter (m : AMap α) (f : Nat × α → Bool) (h : mapWf m = true) : mapWf (m.filter f) = true := by
  induction m with
  | nil => rfl
  | cons p t ih =>
    obtain ⟨k, w⟩ := p
    obtain ⟨ha, ht⟩ := (mapWf_cons k w t).1 h
    by_cases hf : f (k, w) = true
    · rw [List.filter_cons_of_pos hf]
      exact (mapWf_cons ..).2 ⟨fun q hq => ha q (List.mem_filter.1 hq).1, ih ht⟩
    · rw [List.filter_cons_of_neg hf]; exact ih ht

theorem mem_mapSet {m : AMap α} {i : Nat} {v : α} {p : Nat × α} (h : p ∈ mapSet m i v) : p = (i, v) ∨ p ∈ m := by
  induction m with
  | nil => left; simpa [mapSet] using h
  | cons q t ih =>
    obtain ⟨k, w⟩ := q
    by_cases hk : k = i
    · simp only [mapSet, hk, if_true, List.mem_cons] at h ⊢; tauto
    · by_cases h2 : i < k
      · simp only [mapSet, hk, h2, if_true, if_false, List.mem_cons] at h ⊢; tauto
      · simp only [mapSet, hk, h2, if_false, List.mem_cons] at h ⊢
        rcases h with h | h
        · right; left; exact h
        · rcases ih h with h | h
          · left; exact h
          · right; right; exact h

end Sys2Proof.Machine
end

