-- ==== Sys2Proof/Laws/Memory.lean ====
section
/-!
SUPPORT. Bytes of memory: read after write, other bytes left alone, and the canonical form kept by every operation that writes memory.
-/

namespace Sys2Proof.Machine

open Sys2Proof

theorem readByte_writeByte (s : State) (k : Nat) (b : Byte) : readByte (writeByte s k b) k = b := by
  unfold readByte writeByte setByte mapGet
  split
  · next h => simp [mapGet?_del, h]
  · simp

theorem readByte_writeByte_ne (s : State) {k j : Nat} (b : Byte) (h : j ≠ k) : readByte (writeByte s k b) j = readByte s j := by
  unfold readByte writeByte setByte mapGet
  split
  · simp [mapGet?_del_ne _ h]
  · simp [mapGet?_set_ne _ _ h]

theorem readByte_writeBytes_out (l : List Byte) (s : State) {k j : Nat} (h : j < k ∨ k + l.length ≤ j) :
    readByte (writeBytes s k l) j = readByte s j := by
  induction l generalizing s k with
  | nil => rfl
  | cons b t ih =>
    simp only [List.length_cons] at h
    simp only [writeBytes]
    rw [ih _ (by omega), readByte_writeByte_ne _ _ (by omega)]

theorem readBytes_writeBytes (l : List Byte) (s : State) (k : Nat) : readBytes (writeBytes s k l) k l.length = l := by
  induction l generalizing s k with
  | nil => rfl
  | cons b t ih =>
    simp only [writeBytes, List.length_cons, readBytes]
    rw [ih, readByte_writeBytes_out t _ (by omega), readByte_writeByte]

theorem readByte_writeNat_out (n : Nat) (s : State) {k j : Nat} (data en : Nat) (h : j < k ∨ k + n ≤ j) :
    readByte (writeNat s k data en n) j = readByte s j := by
  induction n generalizing s k data en with
  | zero => rfl
  | succ n ih =>
    simp only [writeNat]
    rw [ih _ _ _ (by omega)]
    split
    · rw [readByte_writeByte_ne _ _ (by omega)]
    · rfl

/-- A byte write keeps the canonical form. -/
theorem setByte_wf {m : List Host.Cell} (k : Nat) (b : Byte) (h : memWf m = true) : memWf (setByte m k b) = true := by
  simp only [memWf, Bool.and_eq_true, List.all_eq_true] at h ⊢
  unfold setByte
  split
  · exact ⟨mapWf_filter _ _ h.1, fun p hp => h.2 p (List.mem_filter.1 hp).1⟩
  · next hb =>
    refine ⟨mapWf_set _ _ _ h.1, fun p hp => ?_⟩
    rcases mem_mapSet hp with rfl | hp
    · simpa using hb
    · exact h.2 p hp

/-- A part of a canonical memory is canonical. -/
theorem memWf_filter {m : List Host.Cell} (f : Host.Cell → Bool) (h : memWf m = true) : memWf (m.filter f) = true := by
  simp only [memWf, Bool.and_eq_true, List.all_eq_true] at h ⊢
  exact ⟨mapWf_filter _ _ h.1, fun p hp => h.2 p (List.mem_filter.1 hp).1⟩

theorem writeByte_wf {s : State} (k : Nat) (b : Byte) (h : memWf s.mem = true) : memWf (writeByte s k b).mem = true :=
  setByte_wf k b h

theorem writeBytes_wf (l : List Byte) {s : State} (k : Nat) (h : memWf s.mem = true) : memWf (writeBytes s k l).mem = true := by
  induction l generalizing s k with
  | nil => exact h
  | cons b t ih => exact ih (k + 1) (writeByte_wf k b h)

theorem writeNat_wf (n : Nat) {s : State} (k data en : Nat) (h : memWf s.mem = true) : memWf (writeNat s k data en n).mem = true := by
  induction n generalizing s k data en with
  | zero => exact h
  | succ n ih =>
    simp only [writeNat]
    refine ih _ _ _ ?_
    split
    · exact writeByte_wf k _ h
    · exact h

end Sys2Proof.Machine
end

