-- ==== Sys2Proof/Laws/Ops.lean ====
section
/-!
SUPPORT. The shared operations: slots and strands read and written, the checks before an instruction, and how an instruction ends.
-/

namespace Sys2Proof.Machine

open Sys2Proof

/-! ## Cores, slots and strands -/

@[simp] theorem core_setCore (s : State) (c : Nat) (k : Core) : (s.setCore c k).core c = k := by
  simp [State.core, State.setCore]

theorem core_setCore_ne (s : State) {c d : Nat} (k : Core) (h : d ≠ c) : (s.setCore c k).core d = s.core d := by
  simp [State.core, State.setCore, mapGet_set_ne _ _ _ h]

@[simp] theorem setCore_setCore (s : State) (c : Nat) (k l : Core) : (s.setCore c k).setCore c l = s.setCore c l := by
  simp [State.setCore]

theorem slot_setSlot (k : Core) {i : Nat} (t : Strand) (h : i < 4) : (k.setSlot i t).slot i = t := by
  simp [Core.slot, Core.setSlot, h]

theorem slot_setSlot_ne (k : Core) {i j : Nat} (t : Strand) (h : j ≠ i) : (k.setSlot i t).slot j = k.slot j := by
  simp [Core.slot, Core.setSlot, Ne.symm h]

theorem setSlot_out (k : Core) {i : Nat} (t : Strand) (h : 4 ≤ i) : k.setSlot i t = k := by
  have : k.slots.setIfInBounds i t = k.slots := by
    apply Vector.ext; intro j hj; simp [Vector.getElem_setIfInBounds]; omega
  simp [Core.setSlot, this]

@[simp] theorem setSlot_setSlot (k : Core) (i : Nat) (t u : Strand) : (k.setSlot i t).setSlot i u = k.setSlot i u := by
  simp only [Core.setSlot, Core.mk.injEq, and_true]
  apply Vector.ext; intro j hj
  simp only [Vector.getElem_setIfInBounds]
  split <;> rfl

@[simp] theorem cur_onMe (s : State) (f : Strand → Strand) : (s.onMe f).cur = s.cur := rfl
@[simp] theorem cur_onCore (s : State) (c : Nat) (f : Core → Core) : (s.onCore c f).cur = s.cur := rfl
@[simp] theorem cur_setMe (s : State) (t : Strand) : (s.setMe t).cur = s.cur := rfl

/-- Everything a change of the running strand can do: its own slot of its own core. -/
theorem onMe_eq (s : State) (f : Strand → Strand) :
    s.onMe f = s.setCore s.cur.1 ((s.core s.cur.1).setSlot s.cur.2 (f s.me)) := rfl

theorem me_onMe (s : State) (f : Strand → Strand) (h : s.cur.2 < 4) : (s.onMe f).me = f s.me := by
  rw [onMe_eq]
  simp only [State.me, State.slot]
  show ((s.setCore _ _).core s.cur.1).slot s.cur.2 = _
  rw [core_setCore, slot_setSlot _ _ h]

theorem me_onMe_out (s : State) (f : Strand → Strand) (h : 4 ≤ s.cur.2) : (s.onMe f).me = s.me := by
  rw [onMe_eq]
  simp only [State.me, State.slot]
  show ((s.setCore _ _).core s.cur.1).slot s.cur.2 = _
  rw [core_setCore, setSlot_out _ _ h]

/-- Two changes of the running strand are one. -/
theorem onMe_onMe (s : State) (f g : Strand → Strand) : (s.onMe f).onMe g = s.onMe (fun t => g (f t)) := by
  by_cases h : s.cur.2 < 4
  · rw [onMe_eq (s.onMe f), me_onMe s f h, cur_onMe, onMe_eq s f, core_setCore, setCore_setCore, setSlot_setSlot, onMe_eq]
  · rw [onMe_eq (s.onMe f), cur_onMe, onMe_eq s f, core_setCore, setCore_setCore, setSlot_setSlot, setSlot_out _ _ (by omega),
      onMe_eq, setSlot_out _ _ (by omega)]

/-! ## The checks of an instruction's registers -/

/-- A guard passes on registers at hand. -/
theorem guard_ready {us : List Use} {s : State} (h : Ready us s) (body : State → Res) : guard us body s = body s := by
  obtain ⟨h1, h2, h3, h4⟩ := h
  have e1 : us.find? (fun u => !u.inAllot s.me) = none := by
    rw [List.find?_eq_none]; intro u hu; simp [h1 u hu]
  have e2 : (readsOf us).find? (fun r => s.me.lost.contains r) = none := by
    rw [List.find?_eq_none]; intro r hr; rw [h2 r hr]; simp
  have e3 : s.me.faults.filter (fun d => d.regs.any (fun r => (readsOf us).contains r)) = [] := by
    rw [List.filter_eq_nil_iff]; intro d hd; rw [h3 d hd]; simp
  have e4 : s.ops.find? (owes s.me.task (us.map Use.reg)) = none := by
    rw [List.find?_eq_none]; intro o ho; rw [h4 o ho]; simp
  simp only [guard, e1, e2, e3, oldestFault, e4]

/-- What a guard can do: one of its four checks ends the instruction, with the module as it was, or the body runs. -/
theorem guard_cases (us : List Use) (body : State → Res) (s : State) :
    (∃ c sub v, guard us body s = .trap s c sub v) ∨ (∃ w, guard us body s = .stall s w) ∨ guard us body s = body s := by
  unfold guard
  split
  · exact .inl ⟨_, _, _, rfl⟩
  · split
    · exact .inl ⟨_, _, _, rfl⟩
    · split
      · exact .inl ⟨_, _, _, rfl⟩
      · split
        · exact .inr (.inl ⟨_, rfl⟩)
        · exact .inr (.inr rfl)

/-! ## How an instruction ends -/

@[simp] theorem me_withLast (s : State) (l : Last) : (s.withLast l).me = s.me := rfl
@[simp] theorem core_withLast (s : State) (l : Last) (c : Nat) : (s.withLast l).core c = s.core c := rfl
@[simp] theorem cur_withLast (s : State) (l : Last) : (s.withLast l).cur = s.cur := rfl
@[simp] theorem mem_withLast (s : State) (l : Last) : (s.withLast l).mem = s.mem := rfl
@[simp] theorem mem_onMe (s : State) (f : Strand → Strand) : (s.onMe f).mem = s.mem := rfl
@[simp] theorem mem_onCore (s : State) (c : Nat) (f : Core → Core) : (s.onCore c f).mem = s.mem := rfl
@[simp] theorem ops_onMe (s : State) (f : Strand → Strand) : (s.onMe f).ops = s.ops := rfl
@[simp] theorem ops_withLast (s : State) (l : Last) : (s.withLast l).ops = s.ops := rfl

/-- The strand, core and memory see nothing of a pre-emption that comes to nothing. -/
theorem refusePreempt_eq (s : State) : s.refusePreempt = { s with ops := s.refusePreempt.ops } := by
  unfold State.refusePreempt; split <;> rfl

@[simp] theorem me_refusePreempt (s : State) : s.refusePreempt.me = s.me := by rw [refusePreempt_eq]; rfl
@[simp] theorem cur_refusePreempt (s : State) : s.refusePreempt.cur = s.cur := by rw [refusePreempt_eq]
@[simp] theorem core_refusePreempt (s : State) (c : Nat) : s.refusePreempt.core c = s.core c := by rw [refusePreempt_eq]; rfl
@[simp] theorem mem_refusePreempt (s : State) : s.refusePreempt.mem = s.mem := by rw [refusePreempt_eq]

/-- The strand of a trap. -/
theorem me_takeTrap (s : State) (c : Cause) (code sub : Nat) (tval : Word) (h : s.cur.2 < 4) :
    (takeTrap s c code sub tval).me = s.me.trapTo
      { cause := c, code := code, sub := sub, async := false, epc := s.me.pc.toNat, tval := tval, time := s.devtime } := by
  unfold takeTrap
  rw [me_withLast, me_onMe _ _ (by simpa using h), me_refusePreempt]

/-- A trap leaves memory as it was. -/
@[simp] theorem mem_takeTrap (s : State) (c : Cause) (code sub : Nat) (tval : Word) : (takeTrap s c code sub tval).mem = s.mem := by
  simp [takeTrap]

/-- An instruction always answers a next state. -/
theorem finish_goesOn (len : Nat) (r : Res) : goesOn (finish len r) := by
  cases r <;> exact ⟨_, rfl⟩

theorem finish_ok (len : Nat) (s : State) : finish len (.ok s) = .next (s.done len id) := rfl

theorem done_onMe (s : State) (len : Nat) (f g : Strand → Strand) :
    (s.onMe f).done len g = s.done len (fun t => g (f t)) := by
  simp only [State.done, onMe_onMe]

/-- A change of the strand, then the end of the instruction. -/
theorem finish_onMe (len : Nat) (s : State) (f : Strand → Strand) :
    finish len (.ok (s.onMe f)) = .next (s.done len f) := by
  rw [finish_ok, done_onMe]; rfl

theorem finish_jump (len : Nat) (s : State) (n : Nat) : finish len (.jump s n) = .next (s.goto n id) := rfl

theorem goto_onMe (s : State) (n : Nat) (f g : Strand → Strand) : (s.onMe f).goto n g = s.goto n (fun t => g (f t)) := by
  simp only [State.goto, onMe_onMe]

theorem finish_jump_onMe (len : Nat) (s : State) (n : Nat) (f : Strand → Strand) :
    finish len (.jump (s.onMe f) n) = .next (s.goto n f) := by
  rw [finish_jump, goto_onMe]; rfl

end Sys2Proof.Machine
end

