-- ==== Sys2Proof/Laws/Forms.lean ====
section
/-!
SUPPORT. The shared operations of the forms, each with one lemma that says what it can come to: accesses, watches, raised flags, control
transfers, elected and nested forms, instructions that wait, and what a bank does to memory.
-/

namespace Sys2Proof.Machine

open Sys2Proof

/-! ## Accesses -/

/-- An access that passes its checks and finds room goes on with its pieces, those of a load that a copy serves done. -/
theorem access_passes {a : Acc} {lanes : List Lane} {ps : List Piece} {s : State} (h : Passes a lanes ps s)
    (k : List Piece → State → Res) : access a lanes k s = k (served a s ps) s := by
  obtain ⟨h1, h2, h3, h4⟩ := h
  simp [access, h1, h2, h3, h4]

/-- All that an access can come to. -/
theorem access_cases (a : Acc) (lanes : List Lane) (k : List Piece → State → Res) (s : State) :
    (∃ c sub v, access a lanes k s = .trap s c sub v) ∨
    (∃ x y z, access a lanes k s = startWalk s x y z) ∨
    access a lanes k s = .stall s .retry ∨ ∃ ps, Passes a lanes ps s ∧ access a lanes k s = k (served a s ps) s := by
  unfold access
  split
  · exact .inl ⟨_, _, _, rfl⟩
  · exact .inr (.inl ⟨_, _, _, rfl⟩)
  · split
    · exact .inr (.inr (.inl rfl))
    · rename_i h1 h2
      simp only [Bool.or_eq_true, not_or, Bool.not_eq_true] at h2
      exact .inr (.inr (.inr ⟨_, ⟨h1, h2.1.1, h2.1.2, h2.2⟩, rfl⟩))

/-- A stopped strand begins to be saved, or traps where its context has no free image. -/
theorem stopped_cases (why : SaveWhy) (c : Cause) (tval : Word) (s : State) :
    (∃ t, beginSave s s.cur.1 s.cur.2 why = some t ∧ stopped why c tval s = .ok t) ∨
    (beginSave s s.cur.1 s.cur.2 why = none ∧ stopped why c tval s = .trap s c 0 tval) := by
  unfold stopped
  split
  · exact .inl ⟨_, by assumption, rfl⟩
  · exact .inr ⟨by assumption, rfl⟩

/-- A completed access completes; a watch that it matches stops its strand. -/
theorem watched_cases (kind : Nat) (lanes : List Lane) (s : State) :
    (watchHit s.me kind lanes = none ∧ watched kind lanes s = .ok s) ∨
    ∃ p, watchHit s.me kind lanes = some p ∧ watched kind lanes s = stopped (.watch p s.me.pc.toNat s.devtime) .watch p s := by
  unfold watched
  split
  · exact .inr ⟨_, by assumption, rfl⟩
  · exact .inl ⟨by assumption, rfl⟩

/-- No watch that matches: the access completes. -/
theorem watched_none {kind : Nat} {lanes : List Lane} {s : State} (h : watchHit s.me kind lanes = none) :
    watched kind lanes s = .ok s := by simp [watched, h]

/-! ## Raised flags -/

/-- A form that raises flags takes FPX where an enabled flag is raised, and otherwise has its effect with the flags ORed in (R121). -/
theorem raising_cases (fl : Flags) (sat : Bool) (k : State → State) (s : State) :
    (fl &&& fmtXen s.me.fmt ≠ 0 ∧ raising fl sat k s = .trap s .fpx 0 ((fl &&& fmtXen s.me.fmt).setWidth 64)) ∨
    (fl &&& fmtXen s.me.fmt = 0 ∧ raising fl sat k s = .ok ((k s).onMe (fun t => t.raise fl sat))) := by
  unfold raising
  by_cases h : fl &&& fmtXen s.me.fmt = 0
  · exact .inr ⟨h, if_neg (fun c => c h)⟩
  · exact .inl ⟨h, if_pos h⟩

/-- No flag and no clamp leave FMT as it is. -/
@[simp] theorem fmtRaise_none (f : BitVec 27) : fmtRaise f 0 false = f := by simp [fmtRaise]

/-- The flags leave the control fields of FMT as they are. -/
theorem fmtRaise_control (f : BitVec 27) (fl : Flags) (sat : Bool) : fmtRaise f fl sat &&& ~~~fmtSticky = f &&& ~~~fmtSticky := by
  unfold fmtRaise fmtSticky
  apply BitVec.eq_of_getLsbD_eq
  intro i hi
  simp only [BitVec.getLsbD_and, BitVec.getLsbD_or, BitVec.getLsbD_not, BitVec.getLsbD_shiftLeft, BitVec.getLsbD_setWidth]
  interval_cases i <;> cases sat <;> simp

/-! ## Control transfers and lockstep groups -/

/-- All that a control transfer can come to (R59). -/
theorem transfer_cases (taken : Bool) (target : Nat) (s : State) :
    transfer taken target s = .jump s target ∨ transfer taken target s = .ok s ∨ transfer taken target s = subTrap s s.me.ichan 5 := by
  unfold transfer
  cases hc : s.carried with
  | none => cases taken <;> simp
  | some p => simp only; split <;> cases taken <;> simp

/-- Outside a lockstep group an elected form is performed by its strand (R64). -/
theorem elected_alone {ctr : Option Ctr} {body : State → Res} {s : State} (hp : s.me.pub = false) (hs : s.me.sub = false) :
    elected ctr body s = body s := by simp [elected, hp, hs]

/-- A form that a lockstep group may not execute (Table 3.5). -/
theorem notNested_cases (body : State → Res) (s : State) :
    notNested body s = subTrap s s.me.ichan 4 ∨ notNested body s = body s := by
  unfold notNested
  split
  · exact .inl rfl
  · exact .inr rfl

/-- A privileged form in its two modes (R95). -/
theorem privOnly_cases (i : Instr) (body : State → Res) (s : State) :
    (s.me.priv = true ∧ privOnly i body s = body s) ∨
    (s.me.priv = false ∧ privOnly i body s = .trap s .priv 0 (instrWord i)) := by
  unfold privOnly
  cases h : s.me.priv <;> simp

/-! ## Instructions that wait -/

/-- All that an instruction that waits for an operation can come to. -/
theorem awaiting_cases (start : State → Res) (done : Op → List Nat → State → Res) (wait : State → Op → Res) (s : State) :
    (pending s = none ∧ awaiting start done wait s = start s) ∨
    ∃ o, pending s = some o ∧
      ((∃ c sub v, o.fault = some (c, sub, v) ∧
          awaiting start done wait s = .trap { s with ops := s.ops.filter (fun x => x.id != o.id) } c sub v) ∨
       (∃ l, o.fault = none ∧ o.answer = some l ∧
          awaiting start done wait s = done o l { s with ops := s.ops.filter (fun x => x.id != o.id) }) ∨
       (o.fault = none ∧ o.answer = none ∧ awaiting start done wait s = wait s o)) := by
  unfold awaiting
  cases hp : pending s with
  | none => exact .inl ⟨rfl, rfl⟩
  | some o =>
    refine .inr ⟨o, rfl, ?_⟩
    cases hf : o.fault with
    | some f => exact .inl ⟨f.1, f.2.1, f.2.2, rfl, by simp [hf]⟩
    | none =>
      cases ha : o.answer with
      | some l => exact .inr (.inl ⟨l, rfl, rfl, by simp [hf, ha]⟩)
      | none => exact .inr (.inr ⟨rfl, rfl, by simp [hf, ha]⟩)

/-! ## Steps -/

/-- What follows a next state. -/
@[simp] theorem andThen_next (s : State) (f : State → State) : andThen (.next s) f = .next (f s) := rfl

/-- What goes on still goes on with something after it. -/
theorem andThen_goesOn {r : Host.Outcome State Fault Refusal} (h : goesOn r) (f : State → State) : goesOn (andThen r f) := by
  obtain ⟨t, rfl⟩ := h; exact ⟨f t, rfl⟩

/-- An event always answers a next state. -/
theorem event_goesOn (s : State) : goesOn (event s) := ⟨s, rfl⟩

/-! ## What a bank does to memory -/

theorem mem_answerOps (l : List Monitor) (f : State → Monitor → List Nat) (s : State) :
    (l.foldl (fun s m => answerOp s m.op (f s m)) s).mem = s.mem := by
  induction l generalizing s with
  | nil => rfl
  | cons m t ih => rw [List.foldl_cons, ih]; rfl

/-- Waking monitors leaves memory as it is. -/
@[simp] theorem mem_wakeMonitors (s : State) (k n : Nat) : (wakeMonitors s k n).mem = s.mem := mem_answerOps _ _ _

theorem redWrite_wf (n : Nat) {s : State} (r : RedLine) (w : Nat) (h : memWf s.mem = true) : memWf (redWrite s r w n).mem = true := by
  induction n with
  | zero => exact h
  | succ n ih => exact writeNat_wf _ _ _ _ ih

/-- The collapse of a reduction line keeps the memory's form. -/
theorem collapse_wf {s : State} (k : Nat) (b : Bool) (h : memWf s.mem = true) : memWf (collapse s k b).1.mem = true := by
  unfold collapse
  split
  · exact h
  · simp only
    split
    · split <;> exact h
    · simp only [mem_wakeMonitors]; exact redWrite_wf _ _ _ h

/-- A write at a bank keeps the memory's form. -/
theorem applyWrite_wf {s : State} (k n data en : Nat) (h : memWf s.mem = true) : memWf (applyWrite s k n data en).mem = true := by
  have hw := writeNat_wf n k data en (collapse_wf k true h)
  unfold applyWrite
  simp only [mem_wakeMonitors]
  split
  · have : ∀ (u : State) (x : Nat) (b : Bool), (setBad u x b).mem = u.mem := by intro u x b; unfold setBad; (repeat' split) <;> rfl
    rw [this]; exact hw
  · exact hw

/-- A read at a bank keeps the memory's form. -/
theorem applyRead_wf {s : State} (k n : Nat) (h : memWf s.mem = true) : memWf (applyRead s k n).1.mem = true := by
  have := collapse_wf k false h
  unfold applyRead
  simp only
  split <;> exact this

end Sys2Proof.Machine
end

