-- ==== Sys2Proof/Laws/PerInstr.lean ====
section
/-!
SUPPORT. A family of statements over all instructions, one lemma per constructor: the length of an encoding shows in its top bit (R86).
-/

namespace Sys2Proof.Laws

open Sys2Proof

set_option Elab.async false

/-- A flag's bit is 0 or 1. -/
theorem bit_le (b : Bool) : bit b ≤ 1 := by cases b <;> decide

/-- An instruction's encoding is a halfword whose bit 15 is 0, or a word whose bit 31 is 1 (R86); an event has none. -/
def EncodingLength.Statement (i : Instr) : Prop :=
  ∀ n w : Nat, encode i = some (n, w) → (n = 16 ∧ w < 2 ^ 15) ∨ (n = 32 ∧ 2 ^ 31 ≤ w ∧ w < 2 ^ 32)

theorem EncodingLength.add (d : BitVec 5) (a : BitVec 5) (b : BitVec 5) (x : Bool) (y : Bool) :
    EncodingLength.Statement (.add d a b x y) := by
  intro m w' h; have := d.isLt; have := a.isLt; have := b.isLt; have := bit_le x; have := bit_le y
  cases h; omega

theorem EncodingLength.sub (d : BitVec 5) (a : BitVec 5) (b : BitVec 5) (x : Bool) (y : Bool) :
    EncodingLength.Statement (.sub d a b x y) := by
  intro m w' h; have := d.isLt; have := a.isLt; have := b.isLt; have := bit_le x; have := bit_le y
  cases h; omega

theorem EncodingLength.mul (d : BitVec 5) (a : BitVec 5) (b : BitVec 5) (x : Bool) (y : Bool) :
    EncodingLength.Statement (.mul d a b x y) := by
  intro m w' h; have := d.isLt; have := a.isLt; have := b.isLt; have := bit_le x; have := bit_le y
  cases h; omega

theorem EncodingLength.mulh (d : BitVec 5) (a : BitVec 5) (b : BitVec 5) (x : Bool) (y : Bool) :
    EncodingLength.Statement (.mulh d a b x y) := by
  intro m w' h; have := d.isLt; have := a.isLt; have := b.isLt; have := bit_le x; have := bit_le y
  cases h; omega

theorem EncodingLength.mulhn (d : BitVec 5) (a : BitVec 5) (b : BitVec 5) (x : Bool) (y : Bool) :
    EncodingLength.Statement (.mulhn d a b x y) := by
  intro m w' h; have := d.isLt; have := a.isLt; have := b.isLt; have := bit_le x; have := bit_le y
  cases h; omega

theorem EncodingLength.div (d : BitVec 5) (a : BitVec 5) (b : BitVec 5) (x : Bool) (y : Bool) :
    EncodingLength.Statement (.div d a b x y) := by
  intro m w' h; have := d.isLt; have := a.isLt; have := b.isLt; have := bit_le x; have := bit_le y
  cases h; omega

theorem EncodingLength.divn (d : BitVec 5) (a : BitVec 5) (b : BitVec 5) (x : Bool) (y : Bool) :
    EncodingLength.Statement (.divn d a b x y) := by
  intro m w' h; have := d.isLt; have := a.isLt; have := b.isLt; have := bit_le x; have := bit_le y
  cases h; omega

theorem EncodingLength.rem (d : BitVec 5) (a : BitVec 5) (b : BitVec 5) (x : Bool) (y : Bool) :
    EncodingLength.Statement (.rem d a b x y) := by
  intro m w' h; have := d.isLt; have := a.isLt; have := b.isLt; have := bit_le x; have := bit_le y
  cases h; omega

theorem EncodingLength.remn (d : BitVec 5) (a : BitVec 5) (b : BitVec 5) (x : Bool) (y : Bool) :
    EncodingLength.Statement (.remn d a b x y) := by
  intro m w' h; have := d.isLt; have := a.isLt; have := b.isLt; have := bit_le x; have := bit_le y
  cases h; omega

theorem EncodingLength.and (d : BitVec 5) (a : BitVec 5) (b : BitVec 5) (x : Bool) (y : Bool) :
    EncodingLength.Statement (.and d a b x y) := by
  intro m w' h; have := d.isLt; have := a.isLt; have := b.isLt; have := bit_le x; have := bit_le y
  cases h; omega

theorem EncodingLength.or (d : BitVec 5) (a : BitVec 5) (b : BitVec 5) (x : Bool) (y : Bool) :
    EncodingLength.Statement (.or d a b x y) := by
  intro m w' h; have := d.isLt; have := a.isLt; have := b.isLt; have := bit_le x; have := bit_le y
  cases h; omega

theorem EncodingLength.xor (d : BitVec 5) (a : BitVec 5) (b : BitVec 5) (x : Bool) (y : Bool) :
    EncodingLength.Statement (.xor d a b x y) := by
  intro m w' h; have := d.isLt; have := a.isLt; have := b.isLt; have := bit_le x; have := bit_le y
  cases h; omega

theorem EncodingLength.shl (d : BitVec 5) (a : BitVec 5) (b : BitVec 5) (x : Bool) (y : Bool) :
    EncodingLength.Statement (.shl d a b x y) := by
  intro m w' h; have := d.isLt; have := a.isLt; have := b.isLt; have := bit_le x; have := bit_le y
  cases h; omega

theorem EncodingLength.shr (d : BitVec 5) (a : BitVec 5) (b : BitVec 5) (x : Bool) (y : Bool) :
    EncodingLength.Statement (.shr d a b x y) := by
  intro m w' h; have := d.isLt; have := a.isLt; have := b.isLt; have := bit_le x; have := bit_le y
  cases h; omega

theorem EncodingLength.sra (d : BitVec 5) (a : BitVec 5) (b : BitVec 5) (x : Bool) (y : Bool) :
    EncodingLength.Statement (.sra d a b x y) := by
  intro m w' h; have := d.isLt; have := a.isLt; have := b.isLt; have := bit_le x; have := bit_le y
  cases h; omega

theorem EncodingLength.slt (d : BitVec 5) (a : BitVec 5) (b : BitVec 5) (x : Bool) (y : Bool) :
    EncodingLength.Statement (.slt d a b x y) := by
  intro m w' h; have := d.isLt; have := a.isLt; have := b.isLt; have := bit_le x; have := bit_le y
  cases h; omega

theorem EncodingLength.sltn (d : BitVec 5) (a : BitVec 5) (b : BitVec 5) (x : Bool) (y : Bool) :
    EncodingLength.Statement (.sltn d a b x y) := by
  intro m w' h; have := d.isLt; have := a.isLt; have := b.isLt; have := bit_le x; have := bit_le y
  cases h; omega

theorem EncodingLength.min (d : BitVec 5) (a : BitVec 5) (b : BitVec 5) (x : Bool) (y : Bool) :
    EncodingLength.Statement (.min d a b x y) := by
  intro m w' h; have := d.isLt; have := a.isLt; have := b.isLt; have := bit_le x; have := bit_le y
  cases h; omega

theorem EncodingLength.minn (d : BitVec 5) (a : BitVec 5) (b : BitVec 5) (x : Bool) (y : Bool) :
    EncodingLength.Statement (.minn d a b x y) := by
  intro m w' h; have := d.isLt; have := a.isLt; have := b.isLt; have := bit_le x; have := bit_le y
  cases h; omega

theorem EncodingLength.max (d : BitVec 5) (a : BitVec 5) (b : BitVec 5) (x : Bool) (y : Bool) :
    EncodingLength.Statement (.max d a b x y) := by
  intro m w' h; have := d.isLt; have := a.isLt; have := b.isLt; have := bit_le x; have := bit_le y
  cases h; omega

theorem EncodingLength.maxn (d : BitVec 5) (a : BitVec 5) (b : BitVec 5) (x : Bool) (y : Bool) :
    EncodingLength.Statement (.maxn d a b x y) := by
  intro m w' h; have := d.isLt; have := a.isLt; have := b.isLt; have := bit_le x; have := bit_le y
  cases h; omega

theorem EncodingLength.clz (d : BitVec 5) (a : BitVec 5) (x : Bool) (y : Bool) :
    EncodingLength.Statement (.clz d a x y) := by
  intro m w' h; have := d.isLt; have := a.isLt; have := bit_le x; have := bit_le y
  cases h; omega

theorem EncodingLength.popc (d : BitVec 5) (a : BitVec 5) (x : Bool) (y : Bool) :
    EncodingLength.Statement (.popc d a x y) := by
  intro m w' h; have := d.isLt; have := a.isLt; have := bit_le x; have := bit_le y
  cases h; omega

theorem EncodingLength.brev (d : BitVec 5) (a : BitVec 5) (x : Bool) (y : Bool) :
    EncodingLength.Statement (.brev d a x y) := by
  intro m w' h; have := d.isLt; have := a.isLt; have := bit_le x; have := bit_le y
  cases h; omega

theorem EncodingLength.sext (d : BitVec 5) (a : BitVec 5) (x : Bool) (y : Bool) (z : BitVec 2) :
    EncodingLength.Statement (.sext d a x y z) := by
  intro m w' h; have := d.isLt; have := a.isLt; have := bit_le x; have := bit_le y; have := z.isLt
  cases h; omega

theorem EncodingLength.zext (d : BitVec 5) (a : BitVec 5) (x : Bool) (y : Bool) (z : BitVec 2) :
    EncodingLength.Statement (.zext d a x y z) := by
  intro m w' h; have := d.isLt; have := a.isLt; have := bit_le x; have := bit_le y; have := z.isLt
  cases h; omega

theorem EncodingLength.mov (d : BitVec 5) (a : BitVec 5) (x : Bool) (y : Bool) :
    EncodingLength.Statement (.mov d a x y) := by
  intro m w' h; have := d.isLt; have := a.isLt; have := bit_le x; have := bit_le y
  cases h; omega

theorem EncodingLength.movStream (d : BitVec 5) (n : BitVec 3) (x : Bool) :
    EncodingLength.Statement (.movStream d n x) := by
  intro m w' h; have := d.isLt; have := n.isLt; have := bit_le x
  cases h; omega

theorem EncodingLength.movWindow (d : BitVec 5) (n : BitVec 3) (x : Bool) :
    EncodingLength.Statement (.movWindow d n x) := by
  intro m w' h; have := d.isLt; have := n.isLt; have := bit_le x
  cases h; omega

theorem EncodingLength.addi (d : BitVec 5) (a : BitVec 5) (i : BitVec 12) :
    EncodingLength.Statement (.addi d a i) := by
  intro m w' h; have := d.isLt; have := a.isLt; have := i.isLt
  cases h; omega

theorem EncodingLength.andi (d : BitVec 5) (a : BitVec 5) (i : BitVec 12) :
    EncodingLength.Statement (.andi d a i) := by
  intro m w' h; have := d.isLt; have := a.isLt; have := i.isLt
  cases h; omega

theorem EncodingLength.ori (d : BitVec 5) (a : BitVec 5) (i : BitVec 12) :
    EncodingLength.Statement (.ori d a i) := by
  intro m w' h; have := d.isLt; have := a.isLt; have := i.isLt
  cases h; omega

theorem EncodingLength.xori (d : BitVec 5) (a : BitVec 5) (i : BitVec 12) :
    EncodingLength.Statement (.xori d a i) := by
  intro m w' h; have := d.isLt; have := a.isLt; have := i.isLt
  cases h; omega

theorem EncodingLength.shli (d : BitVec 5) (a : BitVec 5) (i : BitVec 6) :
    EncodingLength.Statement (.shli d a i) := by
  intro m w' h; have := d.isLt; have := a.isLt; have := i.isLt
  cases h; omega

theorem EncodingLength.shri (d : BitVec 5) (a : BitVec 5) (i : BitVec 6) :
    EncodingLength.Statement (.shri d a i) := by
  intro m w' h; have := d.isLt; have := a.isLt; have := i.isLt
  cases h; omega

theorem EncodingLength.srai (d : BitVec 5) (a : BitVec 5) (i : BitVec 6) :
    EncodingLength.Statement (.srai d a i) := by
  intro m w' h; have := d.isLt; have := a.isLt; have := i.isLt
  cases h; omega

theorem EncodingLength.slti (d : BitVec 5) (a : BitVec 5) (i : BitVec 12) :
    EncodingLength.Statement (.slti d a i) := by
  intro m w' h; have := d.isLt; have := a.isLt; have := i.isLt
  cases h; omega

theorem EncodingLength.sel (d : BitVec 5) (a : BitVec 5) (b : BitVec 5) (x : Bool) (y : Bool) (c : BitVec 5) :
    EncodingLength.Statement (.sel d a b x y c) := by
  intro m w' h; have := d.isLt; have := a.isLt; have := b.isLt; have := bit_le x; have := bit_le y; have := c.isLt
  cases h; omega

theorem EncodingLength.ffma (d : BitVec 5) (a : BitVec 5) (b : BitVec 5) (x : Bool) (y : Bool) (c : BitVec 5) (t : BitVec 2) :
    EncodingLength.Statement (.ffma d a b x y c t) := by
  intro m w' h; have := d.isLt; have := a.isLt; have := b.isLt; have := bit_le x; have := bit_le y; have := c.isLt; have := t.isLt
  cases h; omega

theorem EncodingLength.fadd (d : BitVec 5) (a : BitVec 5) (b : BitVec 5) (x : Bool) (y : Bool) (t : BitVec 2) :
    EncodingLength.Statement (.fadd d a b x y t) := by
  intro m w' h; have := d.isLt; have := a.isLt; have := b.isLt; have := bit_le x; have := bit_le y; have := t.isLt
  cases h; omega

theorem EncodingLength.fsub (d : BitVec 5) (a : BitVec 5) (b : BitVec 5) (x : Bool) (y : Bool) (t : BitVec 2) :
    EncodingLength.Statement (.fsub d a b x y t) := by
  intro m w' h; have := d.isLt; have := a.isLt; have := b.isLt; have := bit_le x; have := bit_le y; have := t.isLt
  cases h; omega

theorem EncodingLength.fmul (d : BitVec 5) (a : BitVec 5) (b : BitVec 5) (x : Bool) (y : Bool) (t : BitVec 2) :
    EncodingLength.Statement (.fmul d a b x y t) := by
  intro m w' h; have := d.isLt; have := a.isLt; have := b.isLt; have := bit_le x; have := bit_le y; have := t.isLt
  cases h; omega

theorem EncodingLength.fmin (d : BitVec 5) (a : BitVec 5) (b : BitVec 5) (x : Bool) (y : Bool) (t : BitVec 2) :
    EncodingLength.Statement (.fmin d a b x y t) := by
  intro m w' h; have := d.isLt; have := a.isLt; have := b.isLt; have := bit_le x; have := bit_le y; have := t.isLt
  cases h; omega

theorem EncodingLength.fmax (d : BitVec 5) (a : BitVec 5) (b : BitVec 5) (x : Bool) (y : Bool) (t : BitVec 2) :
    EncodingLength.Statement (.fmax d a b x y t) := by
  intro m w' h; have := d.isLt; have := a.isLt; have := b.isLt; have := bit_le x; have := bit_le y; have := t.isLt
  cases h; omega

theorem EncodingLength.fcmpEq (d : BitVec 5) (a : BitVec 5) (b : BitVec 5) (x : Bool) (y : Bool) (t : BitVec 2) :
    EncodingLength.Statement (.fcmpEq d a b x y t) := by
  intro m w' h; have := d.isLt; have := a.isLt; have := b.isLt; have := bit_le x; have := bit_le y; have := t.isLt
  cases h; omega

theorem EncodingLength.fcmpLt (d : BitVec 5) (a : BitVec 5) (b : BitVec 5) (x : Bool) (y : Bool) (t : BitVec 2) :
    EncodingLength.Statement (.fcmpLt d a b x y t) := by
  intro m w' h; have := d.isLt; have := a.isLt; have := b.isLt; have := bit_le x; have := bit_le y; have := t.isLt
  cases h; omega

theorem EncodingLength.fcmpLe (d : BitVec 5) (a : BitVec 5) (b : BitVec 5) (x : Bool) (y : Bool) (t : BitVec 2) :
    EncodingLength.Statement (.fcmpLe d a b x y t) := by
  intro m w' h; have := d.isLt; have := a.isLt; have := b.isLt; have := bit_le x; have := bit_le y; have := t.isLt
  cases h; omega

theorem EncodingLength.fcmpUn (d : BitVec 5) (a : BitVec 5) (b : BitVec 5) (x : Bool) (y : Bool) (t : BitVec 2) :
    EncodingLength.Statement (.fcmpUn d a b x y t) := by
  intro m w' h; have := d.isLt; have := a.isLt; have := b.isLt; have := bit_le x; have := bit_le y; have := t.isLt
  cases h; omega

theorem EncodingLength.fcvt (d : BitVec 5) (a : BitVec 5) (c : BitVec 5) (x : Bool) (y : Bool) (t : BitVec 2) :
    EncodingLength.Statement (.fcvt d a c x y t) := by
  intro m w' h; have := d.isLt; have := a.isLt; have := c.isLt; have := bit_le x; have := bit_le y; have := t.isLt
  cases h; omega

theorem EncodingLength.fdiv (d : BitVec 5) (a : BitVec 5) (b : BitVec 5) (x : Bool) (y : Bool) (t : BitVec 2) :
    EncodingLength.Statement (.fdiv d a b x y t) := by
  intro m w' h; have := d.isLt; have := a.isLt; have := b.isLt; have := bit_le x; have := bit_le y; have := t.isLt
  cases h; omega

theorem EncodingLength.fsqrt (d : BitVec 5) (a : BitVec 5) (x : Bool) (y : Bool) (t : BitVec 2) :
    EncodingLength.Statement (.fsqrt d a x y t) := by
  intro m w' h; have := d.isLt; have := a.isLt; have := bit_le x; have := bit_le y; have := t.isLt
  cases h; omega

theorem EncodingLength.li (d : BitVec 5) (i : BitVec 18) :
    EncodingLength.Statement (.li d i) := by
  intro m w' h; have := d.isLt; have := i.isLt
  cases h; omega

theorem EncodingLength.liW (d : BitVec 5) :
    EncodingLength.Statement (.liW d) := by
  intro m w' h; have := d.isLt
  cases h; omega

theorem EncodingLength.liD (d : BitVec 5) :
    EncodingLength.Statement (.liD d) := by
  intro m w' h; have := d.isLt
  cases h; omega

theorem EncodingLength.lea (d : BitVec 5) (a : BitVec 5) (b : BitVec 5) (x : Bool) (y : Bool) (s : BitVec 2) :
    EncodingLength.Statement (.lea d a b x y s) := by
  intro m w' h; have := d.isLt; have := a.isLt; have := b.isLt; have := bit_le x; have := bit_le y; have := s.isLt
  cases h; omega

theorem EncodingLength.addp (d : BitVec 5) (a : BitVec 5) (b : BitVec 5) (x : Bool) (y : Bool) :
    EncodingLength.Statement (.addp d a b x y) := by
  intro m w' h; have := d.isLt; have := a.isLt; have := b.isLt; have := bit_le x; have := bit_le y
  cases h; omega

theorem EncodingLength.pmake (d : BitVec 5) (a : BitVec 5) (t : BitVec 4) (x : Bool) (y : Bool) :
    EncodingLength.Statement (.pmake d a t x y) := by
  intro m w' h; have := d.isLt; have := a.isLt; have := t.isLt; have := bit_le x; have := bit_le y
  cases h; omega

theorem EncodingLength.ptag (d : BitVec 5) (a : BitVec 5) (x : Bool) (y : Bool) :
    EncodingLength.Statement (.ptag d a x y) := by
  intro m w' h; have := d.isLt; have := a.isLt; have := bit_le x; have := bit_le y
  cases h; omega

theorem EncodingLength.setxi (a : BitVec 5) (y : Bool) :
    EncodingLength.Statement (.setxi a y) := by
  intro m w' h; have := a.isLt; have := bit_le y
  cases h; omega

theorem EncodingLength.addxi (i : BitVec 10) :
    EncodingLength.Statement (.addxi i) := by
  intro m w' h; have := i.isLt
  cases h; omega

theorem EncodingLength.extHi (n : BitVec 2) (i : BitVec 6) :
    EncodingLength.Statement (.extHi n i) := by
  intro m w' h; have := n.isLt; have := i.isLt
  cases h; omega

theorem EncodingLength.ext (n : BitVec 2) (i : BitVec 26) :
    EncodingLength.Statement (.ext n i) := by
  intro m w' h; have := n.isLt; have := i.isLt
  cases h; omega

theorem EncodingLength.beq (a : BitVec 5) (b : BitVec 5) (o : BitVec 12) :
    EncodingLength.Statement (.beq a b o) := by
  intro m w' h; have := a.isLt; have := b.isLt; have := o.isLt
  cases h; omega

theorem EncodingLength.bne (a : BitVec 5) (b : BitVec 5) (o : BitVec 12) :
    EncodingLength.Statement (.bne a b o) := by
  intro m w' h; have := a.isLt; have := b.isLt; have := o.isLt
  cases h; omega

theorem EncodingLength.blt (a : BitVec 5) (b : BitVec 5) (o : BitVec 12) :
    EncodingLength.Statement (.blt a b o) := by
  intro m w' h; have := a.isLt; have := b.isLt; have := o.isLt
  cases h; omega

theorem EncodingLength.bge (a : BitVec 5) (b : BitVec 5) (o : BitVec 12) :
    EncodingLength.Statement (.bge a b o) := by
  intro m w' h; have := a.isLt; have := b.isLt; have := o.isLt
  cases h; omega

theorem EncodingLength.bltn (a : BitVec 5) (b : BitVec 5) (o : BitVec 12) :
    EncodingLength.Statement (.bltn a b o) := by
  intro m w' h; have := a.isLt; have := b.isLt; have := o.isLt
  cases h; omega

theorem EncodingLength.bgen (a : BitVec 5) (b : BitVec 5) (o : BitVec 12) :
    EncodingLength.Statement (.bgen a b o) := by
  intro m w' h; have := a.isLt; have := b.isLt; have := o.isLt
  cases h; omega

theorem EncodingLength.loop (a : BitVec 5) (o : BitVec 12) :
    EncodingLength.Statement (.loop a o) := by
  intro m w' h; have := a.isLt; have := o.isLt
  cases h; omega

theorem EncodingLength.jmp (o : BitVec 24) :
    EncodingLength.Statement (.jmp o) := by
  intro m w' h; have := o.isLt
  cases h; omega

theorem EncodingLength.jal (d : BitVec 5) (o : BitVec 19) :
    EncodingLength.Statement (.jal d o) := by
  intro m w' h; have := d.isLt; have := o.isLt
  cases h; omega

theorem EncodingLength.jr (a : BitVec 5) (y : Bool) :
    EncodingLength.Statement (.jr a y) := by
  intro m w' h; have := a.isLt; have := bit_le y
  cases h; omega

theorem EncodingLength.jalr (d : BitVec 5) (a : BitVec 5) (x : Bool) (y : Bool) :
    EncodingLength.Statement (.jalr d a x y) := by
  intro m w' h; have := d.isLt; have := a.isLt; have := bit_le x; have := bit_le y
  cases h; omega

theorem EncodingLength.brk (c : BitVec 10) :
    EncodingLength.Statement (.brk c) := by
  intro m w' h; have := c.isLt
  cases h; omega

theorem EncodingLength.ld (d : BitVec 5) (a : BitVec 5) (t : BitVec 3) (o : BitVec 2) (s : BitVec 3) (i : BitVec 5) :
    EncodingLength.Statement (.ld d a t o s i) := by
  intro m w' h; have := d.isLt; have := a.isLt; have := t.isLt; have := o.isLt; have := s.isLt; have := i.isLt
  cases h; omega

theorem EncodingLength.ldv (d : BitVec 5) (a : BitVec 5) (k : BitVec 3) (o : BitVec 2) (s : BitVec 3) (i : BitVec 5) :
    EncodingLength.Statement (.ldv d a k o s i) := by
  intro m w' h; have := d.isLt; have := a.isLt; have := k.isLt; have := o.isLt; have := s.isLt; have := i.isLt
  cases h; omega

theorem EncodingLength.ldg (d : BitVec 5) (a : BitVec 5) (k : BitVec 3) (w : BitVec 2) (b : BitVec 5) :
    EncodingLength.Statement (.ldg d a k w b) := by
  intro m w' h; have := d.isLt; have := a.isLt; have := k.isLt; have := w.isLt; have := b.isLt
  cases h; omega

theorem EncodingLength.pref (a : BitVec 5) (l : BitVec 1) (i : BitVec 5) :
    EncodingLength.Statement (.pref a l i) := by
  intro m w' h; have := a.isLt; have := l.isLt; have := i.isLt
  cases h; omega

theorem EncodingLength.st (d : BitVec 5) (a : BitVec 5) (t : BitVec 2) (o : BitVec 2) (s : BitVec 3) (i : BitVec 5) :
    EncodingLength.Statement (.st d a t o s i) := by
  intro m w' h; have := d.isLt; have := a.isLt; have := t.isLt; have := o.isLt; have := s.isLt; have := i.isLt
  cases h; omega

theorem EncodingLength.stv (d : BitVec 5) (a : BitVec 5) (k : BitVec 3) (o : BitVec 2) (s : BitVec 3) (i : BitVec 5) :
    EncodingLength.Statement (.stv d a k o s i) := by
  intro m w' h; have := d.isLt; have := a.isLt; have := k.isLt; have := o.isLt; have := s.isLt; have := i.isLt
  cases h; omega

theorem EncodingLength.sts (d : BitVec 5) (a : BitVec 5) (k : BitVec 3) (w : BitVec 2) (b : BitVec 5) :
    EncodingLength.Statement (.sts d a k w b) := by
  intro m w' h; have := d.isLt; have := a.isLt; have := k.isLt; have := w.isLt; have := b.isLt
  cases h; omega

theorem EncodingLength.amoAdd (d : BitVec 5) (a : BitVec 5) (b : BitVec 5) (x : Bool) (y : Bool) (z : BitVec 2) :
    EncodingLength.Statement (.amoAdd d a b x y z) := by
  intro m w' h; have := d.isLt; have := a.isLt; have := b.isLt; have := bit_le x; have := bit_le y; have := z.isLt
  cases h; omega

theorem EncodingLength.amoAnd (d : BitVec 5) (a : BitVec 5) (b : BitVec 5) (x : Bool) (y : Bool) (z : BitVec 2) :
    EncodingLength.Statement (.amoAnd d a b x y z) := by
  intro m w' h; have := d.isLt; have := a.isLt; have := b.isLt; have := bit_le x; have := bit_le y; have := z.isLt
  cases h; omega

theorem EncodingLength.amoOr (d : BitVec 5) (a : BitVec 5) (b : BitVec 5) (x : Bool) (y : Bool) (z : BitVec 2) :
    EncodingLength.Statement (.amoOr d a b x y z) := by
  intro m w' h; have := d.isLt; have := a.isLt; have := b.isLt; have := bit_le x; have := bit_le y; have := z.isLt
  cases h; omega

theorem EncodingLength.amoXor (d : BitVec 5) (a : BitVec 5) (b : BitVec 5) (x : Bool) (y : Bool) (z : BitVec 2) :
    EncodingLength.Statement (.amoXor d a b x y z) := by
  intro m w' h; have := d.isLt; have := a.isLt; have := b.isLt; have := bit_le x; have := bit_le y; have := z.isLt
  cases h; omega

theorem EncodingLength.amoMin (d : BitVec 5) (a : BitVec 5) (b : BitVec 5) (x : Bool) (y : Bool) (z : BitVec 2) :
    EncodingLength.Statement (.amoMin d a b x y z) := by
  intro m w' h; have := d.isLt; have := a.isLt; have := b.isLt; have := bit_le x; have := bit_le y; have := z.isLt
  cases h; omega

theorem EncodingLength.amoMax (d : BitVec 5) (a : BitVec 5) (b : BitVec 5) (x : Bool) (y : Bool) (z : BitVec 2) :
    EncodingLength.Statement (.amoMax d a b x y z) := by
  intro m w' h; have := d.isLt; have := a.isLt; have := b.isLt; have := bit_le x; have := bit_le y; have := z.isLt
  cases h; omega

theorem EncodingLength.amoSwap (d : BitVec 5) (a : BitVec 5) (b : BitVec 5) (x : Bool) (y : Bool) (z : BitVec 2) :
    EncodingLength.Statement (.amoSwap d a b x y z) := by
  intro m w' h; have := d.isLt; have := a.isLt; have := b.isLt; have := bit_le x; have := bit_le y; have := z.isLt
  cases h; omega

theorem EncodingLength.cas (d : BitVec 5) (a : BitVec 5) (b : BitVec 5) (x : Bool) (y : Bool) (z : BitVec 2) :
    EncodingLength.Statement (.cas d a b x y z) := by
  intro m w' h; have := d.isLt; have := a.isLt; have := b.isLt; have := bit_le x; have := bit_le y; have := z.isLt
  cases h; omega

theorem EncodingLength.ufn (d : BitVec 5) (a : BitVec 5) (b : BitVec 5) (x : Bool) (y : Bool) :
    EncodingLength.Statement (.ufn d a b x y) := by
  intro m w' h; have := d.isLt; have := a.isLt; have := b.isLt; have := bit_le x; have := bit_le y
  cases h; omega

theorem EncodingLength.ufncfg (a : BitVec 5) (b : BitVec 5) (y : Bool) :
    EncodingLength.Statement (.ufncfg a b y) := by
  intro m w' h; have := a.isLt; have := b.isLt; have := bit_le y
  cases h; omega

theorem EncodingLength.red (a : BitVec 5) (b : BitVec 5) (y : Bool) (z : BitVec 2) :
    EncodingLength.Statement (.red a b y z) := by
  intro m w' h; have := a.isLt; have := b.isLt; have := bit_le y; have := z.isLt
  cases h; omega

theorem EncodingLength.waitc (d : BitVec 5) (a : BitVec 5) (b : BitVec 5) (x : Bool) (y : Bool) (c : BitVec 2) :
    EncodingLength.Statement (.waitc d a b x y c) := by
  intro m w' h; have := d.isLt; have := a.isLt; have := b.isLt; have := bit_le x; have := bit_le y; have := c.isLt
  cases h; omega

theorem EncodingLength.fence (o : BitVec 2) (s : BitVec 3) :
    EncodingLength.Statement (.fence o s) := by
  intro m w' h; have := o.isLt; have := s.isLt
  cases h; omega

theorem EncodingLength.bara (b : BitVec 5) :
    EncodingLength.Statement (.bara b) := by
  intro m w' h; have := b.isLt
  cases h; omega

theorem EncodingLength.barw (b : BitVec 5) :
    EncodingLength.Statement (.barw b) := by
  intro m w' h; have := b.isLt
  cases h; omega

theorem EncodingLength.barx (d : BitVec 5) (a : BitVec 5) (b : BitVec 5) (x : Bool) (y : Bool) :
    EncodingLength.Statement (.barx d a b x y) := by
  intro m w' h; have := d.isLt; have := a.isLt; have := b.isLt; have := bit_le x; have := bit_le y
  cases h; omega

theorem EncodingLength.wait (l : BitVec 6) (s : BitVec 6) (c : BitVec 6) (t : BitVec 6) :
    EncodingLength.Statement (.wait l s c t) := by
  intro m w' h; have := l.isLt; have := s.isLt; have := c.isLt; have := t.isLt
  cases h; omega

theorem EncodingLength.qinit (d : BitVec 5) (a : BitVec 5) (b : BitVec 5) (x : Bool) (y : Bool) :
    EncodingLength.Statement (.qinit d a b x y) := by
  intro m w' h; have := d.isLt; have := a.isLt; have := b.isLt; have := bit_le x; have := bit_le y
  cases h; omega

theorem EncodingLength.qpush (d : BitVec 5) (a : BitVec 5) (b : BitVec 5) (x : Bool) (y : Bool) (z : BitVec 2) :
    EncodingLength.Statement (.qpush d a b x y z) := by
  intro m w' h; have := d.isLt; have := a.isLt; have := b.isLt; have := bit_le x; have := bit_le y; have := z.isLt
  cases h; omega

theorem EncodingLength.qpop (d : BitVec 5) (a : BitVec 5) (b : BitVec 5) (x : Bool) (y : Bool) :
    EncodingLength.Statement (.qpop d a b x y) := by
  intro m w' h; have := d.isLt; have := a.isLt; have := b.isLt; have := bit_le x; have := bit_le y
  cases h; omega

theorem EncodingLength.qpopW (d : BitVec 5) (a : BitVec 5) (b : BitVec 5) (x : Bool) (y : Bool) :
    EncodingLength.Statement (.qpopW d a b x y) := by
  intro m w' h; have := d.isLt; have := a.isLt; have := b.isLt; have := bit_le x; have := bit_le y
  cases h; omega

theorem EncodingLength.qsteal (d : BitVec 5) (a : BitVec 5) (b : BitVec 5) (x : Bool) (y : Bool) :
    EncodingLength.Statement (.qsteal d a b x y) := by
  intro m w' h; have := d.isLt; have := a.isLt; have := b.isLt; have := bit_le x; have := bit_le y
  cases h; omega

theorem EncodingLength.qavail (d : BitVec 5) (a : BitVec 5) (x : Bool) (y : Bool) :
    EncodingLength.Statement (.qavail d a x y) := by
  intro m w' h; have := d.isLt; have := a.isLt; have := bit_le x; have := bit_le y
  cases h; omega

theorem EncodingLength.permit (d : BitVec 5) (a : BitVec 5) (b : BitVec 5) (x : Bool) (y : Bool) :
    EncodingLength.Statement (.permit d a b x y) := by
  intro m w' h; have := d.isLt; have := a.isLt; have := b.isLt; have := bit_le x; have := bit_le y
  cases h; omega

theorem EncodingLength.pret (a : BitVec 5) (b : BitVec 5) (y : Bool) :
    EncodingLength.Statement (.pret a b y) := by
  intro m w' h; have := a.isLt; have := b.isLt; have := bit_le y
  cases h; omega

theorem EncodingLength.bind (n : BitVec 3) (a : BitVec 5) (b : BitVec 5) (y : Bool) :
    EncodingLength.Statement (.bind n a b y) := by
  intro m w' h; have := n.isLt; have := a.isLt; have := b.isLt; have := bit_le y
  cases h; omega

theorem EncodingLength.unbind (n : BitVec 3) :
    EncodingLength.Statement (.unbind n) := by
  intro m w' h; have := n.isLt
  cases h; omega

theorem EncodingLength.send (a : BitVec 5) (b : BitVec 5) (y : Bool) :
    EncodingLength.Statement (.send a b y) := by
  intro m w' h; have := a.isLt; have := b.isLt; have := bit_le y
  cases h; omega

theorem EncodingLength.sendt (a : BitVec 5) (b : BitVec 5) (y : Bool) :
    EncodingLength.Statement (.sendt a b y) := by
  intro m w' h; have := a.isLt; have := b.isLt; have := bit_le y
  cases h; omega

theorem EncodingLength.sendr (a : BitVec 5) (b : BitVec 5) (y : Bool) :
    EncodingLength.Statement (.sendr a b y) := by
  intro m w' h; have := a.isLt; have := b.isLt; have := bit_le y
  cases h; omega

theorem EncodingLength.mcast (d : BitVec 5) (a : BitVec 5) (x : Bool) (y : Bool) (z : BitVec 2) :
    EncodingLength.Statement (.mcast d a x y z) := by
  intro m w' h; have := d.isLt; have := a.isLt; have := bit_le x; have := bit_le y; have := z.isLt
  cases h; omega

theorem EncodingLength.task (a : BitVec 5) (b : BitVec 5) (y : Bool) :
    EncodingLength.Statement (.task a b y) := by
  intro m w' h; have := a.isLt; have := b.isLt; have := bit_le y
  cases h; omega

theorem EncodingLength.launch (d : BitVec 5) (a : BitVec 5) (b : BitVec 5) (x : Bool) (y : Bool) :
    EncodingLength.Statement (.launch d a b x y) := by
  intro m w' h; have := d.isLt; have := a.isLt; have := b.isLt; have := bit_le x; have := bit_le y
  cases h; omega

theorem EncodingLength.htset (a : BitVec 5) (b : BitVec 5) (y : Bool) :
    EncodingLength.Statement (.htset a b y) := by
  intro m w' h; have := a.isLt; have := b.isLt; have := bit_le y
  cases h; omega

theorem EncodingLength.hmask (a : BitVec 5) (b : BitVec 5) (y : Bool) :
    EncodingLength.Statement (.hmask a b y) := by
  intro m w' h; have := a.isLt; have := b.isLt; have := bit_le y
  cases h; omega

theorem EncodingLength.msgid (d : BitVec 5) (x : Bool) :
    EncodingLength.Statement (.msgid d x) := by
  intro m w' h; have := d.isLt; have := bit_le x
  cases h; omega

theorem EncodingLength.migrate (a : BitVec 5) (y : Bool) :
    EncodingLength.Statement (.migrate a y) := by
  intro m w' h; have := a.isLt; have := bit_le y
  cases h; omega

theorem EncodingLength.publish (c : BitVec 12) :
    EncodingLength.Statement (.publish c) := by
  intro m w' h; have := c.isLt
  cases h; omega

theorem EncodingLength.subscribe (a : BitVec 5) (c : BitVec 12) :
    EncodingLength.Statement (.subscribe a c) := by
  intro m w' h; have := a.isLt; have := c.isLt
  cases h; omega

theorem EncodingLength.unsubNz (a : BitVec 5) :
    EncodingLength.Statement (.unsubNz a) := by
  intro m w' h; have := a.isLt
  cases h; omega

theorem EncodingLength.resub (c : BitVec 8) (r : BitVec 10) :
    EncodingLength.Statement (.resub c r) := by
  intro m w' h; have := c.isLt; have := r.isLt
  cases h; omega

theorem EncodingLength.rdv (r : BitVec 12) :
    EncodingLength.Statement (.rdv r) := by
  intro m w' h; have := r.isLt
  cases h; omega

theorem EncodingLength.join (g : BitVec 12) :
    EncodingLength.Statement (.join g) := by
  intro m w' h; have := g.isLt
  cases h; omega

theorem EncodingLength.leave (g : BitVec 12) :
    EncodingLength.Statement (.leave g) := by
  intro m w' h; have := g.isLt
  cases h; omega

theorem EncodingLength.gsize (d : BitVec 5) (g : BitVec 12) :
    EncodingLength.Statement (.gsize d g) := by
  intro m w' h; have := d.isLt; have := g.isLt
  cases h; omega

theorem EncodingLength.vadd (d : BitVec 5) (a : BitVec 5) (b : BitVec 5) (k : BitVec 3) (t : BitVec 4) :
    EncodingLength.Statement (.vadd d a b k t) := by
  intro m w' h; have := d.isLt; have := a.isLt; have := b.isLt; have := k.isLt; have := t.isLt
  cases h; omega

theorem EncodingLength.vsub (d : BitVec 5) (a : BitVec 5) (b : BitVec 5) (k : BitVec 3) (t : BitVec 4) :
    EncodingLength.Statement (.vsub d a b k t) := by
  intro m w' h; have := d.isLt; have := a.isLt; have := b.isLt; have := k.isLt; have := t.isLt
  cases h; omega

theorem EncodingLength.vadds (d : BitVec 5) (a : BitVec 5) (b : BitVec 5) (k : BitVec 3) (t : BitVec 4) :
    EncodingLength.Statement (.vadds d a b k t) := by
  intro m w' h; have := d.isLt; have := a.isLt; have := b.isLt; have := k.isLt; have := t.isLt
  cases h; omega

theorem EncodingLength.vsubs (d : BitVec 5) (a : BitVec 5) (b : BitVec 5) (k : BitVec 3) (t : BitVec 4) :
    EncodingLength.Statement (.vsubs d a b k t) := by
  intro m w' h; have := d.isLt; have := a.isLt; have := b.isLt; have := k.isLt; have := t.isLt
  cases h; omega

theorem EncodingLength.vmul (d : BitVec 5) (a : BitVec 5) (b : BitVec 5) (k : BitVec 3) (t : BitVec 4) :
    EncodingLength.Statement (.vmul d a b k t) := by
  intro m w' h; have := d.isLt; have := a.isLt; have := b.isLt; have := k.isLt; have := t.isLt
  cases h; omega

theorem EncodingLength.vmulh (d : BitVec 5) (a : BitVec 5) (b : BitVec 5) (k : BitVec 3) (t : BitVec 4) :
    EncodingLength.Statement (.vmulh d a b k t) := by
  intro m w' h; have := d.isLt; have := a.isLt; have := b.isLt; have := k.isLt; have := t.isLt
  cases h; omega

theorem EncodingLength.vfma (d : BitVec 5) (a : BitVec 5) (b : BitVec 5) (k : BitVec 3) (t : BitVec 4) :
    EncodingLength.Statement (.vfma d a b k t) := by
  intro m w' h; have := d.isLt; have := a.isLt; have := b.isLt; have := k.isLt; have := t.isLt
  cases h; omega

theorem EncodingLength.vmin (d : BitVec 5) (a : BitVec 5) (b : BitVec 5) (k : BitVec 3) (t : BitVec 4) :
    EncodingLength.Statement (.vmin d a b k t) := by
  intro m w' h; have := d.isLt; have := a.isLt; have := b.isLt; have := k.isLt; have := t.isLt
  cases h; omega

theorem EncodingLength.vmax (d : BitVec 5) (a : BitVec 5) (b : BitVec 5) (k : BitVec 3) (t : BitVec 4) :
    EncodingLength.Statement (.vmax d a b k t) := by
  intro m w' h; have := d.isLt; have := a.isLt; have := b.isLt; have := k.isLt; have := t.isLt
  cases h; omega

theorem EncodingLength.vabs (d : BitVec 5) (a : BitVec 5) (k : BitVec 3) (t : BitVec 4) :
    EncodingLength.Statement (.vabs d a k t) := by
  intro m w' h; have := d.isLt; have := a.isLt; have := k.isLt; have := t.isLt
  cases h; omega

theorem EncodingLength.vneg (d : BitVec 5) (a : BitVec 5) (k : BitVec 3) (t : BitVec 4) :
    EncodingLength.Statement (.vneg d a k t) := by
  intro m w' h; have := d.isLt; have := a.isLt; have := k.isLt; have := t.isLt
  cases h; omega

theorem EncodingLength.vand (d : BitVec 5) (a : BitVec 5) (b : BitVec 5) (k : BitVec 3) (t : BitVec 4) :
    EncodingLength.Statement (.vand d a b k t) := by
  intro m w' h; have := d.isLt; have := a.isLt; have := b.isLt; have := k.isLt; have := t.isLt
  cases h; omega

theorem EncodingLength.vor (d : BitVec 5) (a : BitVec 5) (b : BitVec 5) (k : BitVec 3) (t : BitVec 4) :
    EncodingLength.Statement (.vor d a b k t) := by
  intro m w' h; have := d.isLt; have := a.isLt; have := b.isLt; have := k.isLt; have := t.isLt
  cases h; omega

theorem EncodingLength.vxor (d : BitVec 5) (a : BitVec 5) (b : BitVec 5) (k : BitVec 3) (t : BitVec 4) :
    EncodingLength.Statement (.vxor d a b k t) := by
  intro m w' h; have := d.isLt; have := a.isLt; have := b.isLt; have := k.isLt; have := t.isLt
  cases h; omega

theorem EncodingLength.vnot (d : BitVec 5) (a : BitVec 5) (k : BitVec 3) (t : BitVec 4) :
    EncodingLength.Statement (.vnot d a k t) := by
  intro m w' h; have := d.isLt; have := a.isLt; have := k.isLt; have := t.isLt
  cases h; omega

theorem EncodingLength.vshl (d : BitVec 5) (a : BitVec 5) (b : BitVec 5) (k : BitVec 3) (t : BitVec 4) :
    EncodingLength.Statement (.vshl d a b k t) := by
  intro m w' h; have := d.isLt; have := a.isLt; have := b.isLt; have := k.isLt; have := t.isLt
  cases h; omega

theorem EncodingLength.vshr (d : BitVec 5) (a : BitVec 5) (b : BitVec 5) (k : BitVec 3) (t : BitVec 4) :
    EncodingLength.Statement (.vshr d a b k t) := by
  intro m w' h; have := d.isLt; have := a.isLt; have := b.isLt; have := k.isLt; have := t.isLt
  cases h; omega

theorem EncodingLength.vsra (d : BitVec 5) (a : BitVec 5) (b : BitVec 5) (k : BitVec 3) (t : BitVec 4) :
    EncodingLength.Statement (.vsra d a b k t) := by
  intro m w' h; have := d.isLt; have := a.isLt; have := b.isLt; have := k.isLt; have := t.isLt
  cases h; omega

theorem EncodingLength.vsel (d : BitVec 5) (a : BitVec 5) (b : BitVec 5) (k : BitVec 3) (t : BitVec 4) :
    EncodingLength.Statement (.vsel d a b k t) := by
  intro m w' h; have := d.isLt; have := a.isLt; have := b.isLt; have := k.isLt; have := t.isLt
  cases h; omega

theorem EncodingLength.vdot (d : BitVec 5) (a : BitVec 5) (b : BitVec 5) (k : BitVec 3) (t : BitVec 4) :
    EncodingLength.Statement (.vdot d a b k t) := by
  intro m w' h; have := d.isLt; have := a.isLt; have := b.isLt; have := k.isLt; have := t.isLt
  cases h; omega

theorem EncodingLength.vshuf (d : BitVec 5) (a : BitVec 5) (b : BitVec 5) (k : BitVec 3) (t : BitVec 4) :
    EncodingLength.Statement (.vshuf d a b k t) := by
  intro m w' h; have := d.isLt; have := a.isLt; have := b.isLt; have := k.isLt; have := t.isLt
  cases h; omega

theorem EncodingLength.vbcast (d : BitVec 5) (a : BitVec 5) (k : BitVec 3) (t : BitVec 4) :
    EncodingLength.Statement (.vbcast d a k t) := by
  intro m w' h; have := d.isLt; have := a.isLt; have := k.isLt; have := t.isLt
  cases h; omega

theorem EncodingLength.vmovs (d : BitVec 5) (a : BitVec 5) (l : BitVec 4) (t : BitVec 4) :
    EncodingLength.Statement (.vmovs d a l t) := by
  intro m w' h; have := d.isLt; have := a.isLt; have := l.isLt; have := t.isLt
  cases h; omega

theorem EncodingLength.vmovsStream (d : BitVec 5) (n : BitVec 3) :
    EncodingLength.Statement (.vmovsStream d n) := by
  intro m w' h; have := d.isLt; have := n.isLt
  cases h; omega

theorem EncodingLength.vins (d : BitVec 5) (a : BitVec 5) (l : BitVec 4) (t : BitVec 4) :
    EncodingLength.Statement (.vins d a l t) := by
  intro m w' h; have := d.isLt; have := a.isLt; have := l.isLt; have := t.isLt
  cases h; omega

theorem EncodingLength.vcvt (d : BitVec 5) (a : BitVec 5) (s : BitVec 4) (k : BitVec 3) (t : BitVec 4) :
    EncodingLength.Statement (.vcvt d a s k t) := by
  intro m w' h; have := d.isLt; have := a.isLt; have := s.isLt; have := k.isLt; have := t.isLt
  cases h; omega

theorem EncodingLength.vred (d : BitVec 5) (a : BitVec 5) (o : BitVec 5) (k : BitVec 3) (t : BitVec 4) :
    EncodingLength.Statement (.vred d a o k t) := by
  intro m w' h; have := d.isLt; have := a.isLt; have := o.isLt; have := k.isLt; have := t.isLt
  cases h; omega

theorem EncodingLength.vscan (d : BitVec 5) (a : BitVec 5) (o : BitVec 5) (k : BitVec 3) (t : BitVec 4) :
    EncodingLength.Statement (.vscan d a o k t) := by
  intro m w' h; have := d.isLt; have := a.isLt; have := o.isLt; have := k.isLt; have := t.isLt
  cases h; omega

theorem EncodingLength.vmatch (d : BitVec 5) (a : BitVec 5) (b : BitVec 5) (k : BitVec 3) (p : BitVec 2) (w : BitVec 2) :
    EncodingLength.Statement (.vmatch d a b k p w) := by
  intro m w' h; have := d.isLt; have := a.isLt; have := b.isLt; have := k.isLt; have := p.isLt; have := w.isLt
  cases h; omega

theorem EncodingLength.vcompress (d : BitVec 5) (a : BitVec 5) (b : BitVec 5) (k : BitVec 3) (t : BitVec 4) :
    EncodingLength.Statement (.vcompress d a b k t) := by
  intro m w' h; have := d.isLt; have := a.isLt; have := b.isLt; have := k.isLt; have := t.isLt
  cases h; omega

theorem EncodingLength.vexpand (d : BitVec 5) (a : BitVec 5) (b : BitVec 5) (k : BitVec 3) (t : BitVec 4) :
    EncodingLength.Statement (.vexpand d a b k t) := by
  intro m w' h; have := d.isLt; have := a.isLt; have := b.isLt; have := k.isLt; have := t.isLt
  cases h; omega

theorem EncodingLength.vclass (d : BitVec 5) (a : BitVec 5) (k : BitVec 3) (t : BitVec 4) :
    EncodingLength.Statement (.vclass d a k t) := by
  intro m w' h; have := d.isLt; have := a.isLt; have := k.isLt; have := t.isLt
  cases h; omega

theorem EncodingLength.vrcp (d : BitVec 5) (a : BitVec 5) (k : BitVec 3) (t : BitVec 4) :
    EncodingLength.Statement (.vrcp d a k t) := by
  intro m w' h; have := d.isLt; have := a.isLt; have := k.isLt; have := t.isLt
  cases h; omega

theorem EncodingLength.vrsq (d : BitVec 5) (a : BitVec 5) (k : BitVec 3) (t : BitVec 4) :
    EncodingLength.Statement (.vrsq d a k t) := by
  intro m w' h; have := d.isLt; have := a.isLt; have := k.isLt; have := t.isLt
  cases h; omega

theorem EncodingLength.vexp2 (d : BitVec 5) (a : BitVec 5) (k : BitVec 3) (t : BitVec 4) :
    EncodingLength.Statement (.vexp2 d a k t) := by
  intro m w' h; have := d.isLt; have := a.isLt; have := k.isLt; have := t.isLt
  cases h; omega

theorem EncodingLength.vlog2 (d : BitVec 5) (a : BitVec 5) (k : BitVec 3) (t : BitVec 4) :
    EncodingLength.Statement (.vlog2 d a k t) := by
  intro m w' h; have := d.isLt; have := a.isLt; have := k.isLt; have := t.isLt
  cases h; omega

theorem EncodingLength.vtanh (d : BitVec 5) (a : BitVec 5) (k : BitVec 3) (t : BitVec 4) :
    EncodingLength.Statement (.vtanh d a k t) := by
  intro m w' h; have := d.isLt; have := a.isLt; have := k.isLt; have := t.isLt
  cases h; omega

theorem EncodingLength.vdiv (d : BitVec 5) (a : BitVec 5) (b : BitVec 5) (k : BitVec 3) (t : BitVec 4) :
    EncodingLength.Statement (.vdiv d a b k t) := by
  intro m w' h; have := d.isLt; have := a.isLt; have := b.isLt; have := k.isLt; have := t.isLt
  cases h; omega

theorem EncodingLength.vcmpEq (d : BitVec 3) (a : BitVec 5) (b : BitVec 5) (k : BitVec 3) (t : BitVec 4) :
    EncodingLength.Statement (.vcmpEq d a b k t) := by
  intro m w' h; have := d.isLt; have := a.isLt; have := b.isLt; have := k.isLt; have := t.isLt
  cases h; omega

theorem EncodingLength.vcmpNe (d : BitVec 3) (a : BitVec 5) (b : BitVec 5) (k : BitVec 3) (t : BitVec 4) :
    EncodingLength.Statement (.vcmpNe d a b k t) := by
  intro m w' h; have := d.isLt; have := a.isLt; have := b.isLt; have := k.isLt; have := t.isLt
  cases h; omega

theorem EncodingLength.vcmpLt (d : BitVec 3) (a : BitVec 5) (b : BitVec 5) (k : BitVec 3) (t : BitVec 4) :
    EncodingLength.Statement (.vcmpLt d a b k t) := by
  intro m w' h; have := d.isLt; have := a.isLt; have := b.isLt; have := k.isLt; have := t.isLt
  cases h; omega

theorem EncodingLength.vcmpLe (d : BitVec 3) (a : BitVec 5) (b : BitVec 5) (k : BitVec 3) (t : BitVec 4) :
    EncodingLength.Statement (.vcmpLe d a b k t) := by
  intro m w' h; have := d.isLt; have := a.isLt; have := b.isLt; have := k.isLt; have := t.isLt
  cases h; omega

theorem EncodingLength.vcmpGt (d : BitVec 3) (a : BitVec 5) (b : BitVec 5) (k : BitVec 3) (t : BitVec 4) :
    EncodingLength.Statement (.vcmpGt d a b k t) := by
  intro m w' h; have := d.isLt; have := a.isLt; have := b.isLt; have := k.isLt; have := t.isLt
  cases h; omega

theorem EncodingLength.vcmpGe (d : BitVec 3) (a : BitVec 5) (b : BitVec 5) (k : BitVec 3) (t : BitVec 4) :
    EncodingLength.Statement (.vcmpGe d a b k t) := by
  intro m w' h; have := d.isLt; have := a.isLt; have := b.isLt; have := k.isLt; have := t.isLt
  cases h; omega

theorem EncodingLength.vcmpUn (d : BitVec 3) (a : BitVec 5) (b : BitVec 5) (k : BitVec 3) (t : BitVec 4) :
    EncodingLength.Statement (.vcmpUn d a b k t) := by
  intro m w' h; have := d.isLt; have := a.isLt; have := b.isLt; have := k.isLt; have := t.isLt
  cases h; omega

theorem EncodingLength.kand (d : BitVec 3) (a : BitVec 3) (b : BitVec 3) :
    EncodingLength.Statement (.kand d a b) := by
  intro m w' h; have := d.isLt; have := a.isLt; have := b.isLt
  cases h; omega

theorem EncodingLength.kor (d : BitVec 3) (a : BitVec 3) (b : BitVec 3) :
    EncodingLength.Statement (.kor d a b) := by
  intro m w' h; have := d.isLt; have := a.isLt; have := b.isLt
  cases h; omega

theorem EncodingLength.kxor (d : BitVec 3) (a : BitVec 3) (b : BitVec 3) :
    EncodingLength.Statement (.kxor d a b) := by
  intro m w' h; have := d.isLt; have := a.isLt; have := b.isLt
  cases h; omega

theorem EncodingLength.knot (d : BitVec 3) (a : BitVec 3) :
    EncodingLength.Statement (.knot d a) := by
  intro m w' h; have := d.isLt; have := a.isLt
  cases h; omega

theorem EncodingLength.kmov (d : BitVec 3) (a : BitVec 3) :
    EncodingLength.Statement (.kmov d a) := by
  intro m w' h; have := d.isLt; have := a.isLt
  cases h; omega

theorem EncodingLength.kmovScalar (d : BitVec 3) (s : BitVec 5) :
    EncodingLength.Statement (.kmovScalar d s) := by
  intro m w' h; have := d.isLt; have := s.isLt
  cases h; omega

theorem EncodingLength.kpop (d : BitVec 5) (a : BitVec 3) :
    EncodingLength.Statement (.kpop d a) := by
  intro m w' h; have := d.isLt; have := a.isLt
  cases h; omega

theorem EncodingLength.kfirst (d : BitVec 5) (a : BitVec 3) :
    EncodingLength.Statement (.kfirst d a) := by
  intro m w' h; have := d.isLt; have := a.isLt
  cases h; omega

theorem EncodingLength.claim (s : BitVec 5) :
    EncodingLength.Statement (.claim s) := by
  intro m w' h; have := s.isLt
  cases h; omega

theorem EncodingLength.release (s : BitVec 5) :
    EncodingLength.Statement (.release s) := by
  intro m w' h; have := s.isLt
  cases h; omega

theorem EncodingLength.tload (d : BitVec 5) (a : BitVec 5) (b : BitVec 5) :
    EncodingLength.Statement (.tload d a b) := by
  intro m w' h; have := d.isLt; have := a.isLt; have := b.isLt
  cases h; omega

theorem EncodingLength.tmma (d : BitVec 5) (a : BitVec 5) (b : BitVec 5) :
    EncodingLength.Statement (.tmma d a b) := by
  intro m w' h; have := d.isLt; have := a.isLt; have := b.isLt
  cases h; omega

theorem EncodingLength.tsmma (d : BitVec 5) (a : BitVec 5) (b : BitVec 5) (s : BitVec 5) :
    EncodingLength.Statement (.tsmma d a b s) := by
  intro m w' h; have := d.isLt; have := a.isLt; have := b.isLt; have := s.isLt
  cases h; omega

theorem EncodingLength.tzero (d : BitVec 5) :
    EncodingLength.Statement (.tzero d) := by
  intro m w' h; have := d.isLt
  cases h; omega

theorem EncodingLength.tstore (d : BitVec 5) (a : BitVec 5) (b : BitVec 5) :
    EncodingLength.Statement (.tstore d a b) := by
  intro m w' h; have := d.isLt; have := a.isLt; have := b.isLt
  cases h; omega

theorem EncodingLength.tscale (d : BitVec 5) (a : BitVec 5) :
    EncodingLength.Statement (.tscale d a) := by
  intro m w' h; have := d.isLt; have := a.isLt
  cases h; omega

theorem EncodingLength.taccv (d : BitVec 5) (a : BitVec 5) (s : BitVec 5) :
    EncodingLength.Statement (.taccv d a s) := by
  intro m w' h; have := d.isLt; have := a.isLt; have := s.isLt
  cases h; omega

theorem EncodingLength.tmatch (d : BitVec 5) (a : BitVec 5) (b : BitVec 5) :
    EncodingLength.Statement (.tmatch d a b) := by
  intro m w' h; have := d.isLt; have := a.isLt; have := b.isLt
  cases h; omega

theorem EncodingLength.tmerge (d : BitVec 5) (a : BitVec 5) (b : BitVec 5) (s : BitVec 5) :
    EncodingLength.Statement (.tmerge d a b s) := by
  intro m w' h; have := d.isLt; have := a.isLt; have := b.isLt; have := s.isLt
  cases h; omega

theorem EncodingLength.tmsize (d : BitVec 5) (a : BitVec 5) (s : BitVec 5) :
    EncodingLength.Statement (.tmsize d a s) := by
  intro m w' h; have := d.isLt; have := a.isLt; have := s.isLt
  cases h; omega

theorem EncodingLength.tunmerge (d : BitVec 5) (a : BitVec 5) (b : BitVec 5) (s : BitVec 5) :
    EncodingLength.Statement (.tunmerge d a b s) := by
  intro m w' h; have := d.isLt; have := a.isLt; have := b.isLt; have := s.isLt
  cases h; omega

theorem EncodingLength.tmapcomp (d : BitVec 5) (a : BitVec 5) (b : BitVec 5) :
    EncodingLength.Statement (.tmapcomp d a b) := by
  intro m w' h; have := d.isLt; have := a.isLt; have := b.isLt
  cases h; omega

theorem EncodingLength.tmapfree (d : BitVec 5) :
    EncodingLength.Statement (.tmapfree d) := by
  intro m w' h; have := d.isLt
  cases h; omega

theorem EncodingLength.tmapsave (d : BitVec 5) (a : BitVec 5) :
    EncodingLength.Statement (.tmapsave d a) := by
  intro m w' h; have := d.isLt; have := a.isLt
  cases h; omega

theorem EncodingLength.tmapload (d : BitVec 5) (a : BitVec 5) :
    EncodingLength.Statement (.tmapload d a) := by
  intro m w' h; have := d.isLt; have := a.isLt
  cases h; omega

theorem EncodingLength.mboxk (a : BitVec 5) (y : Bool) :
    EncodingLength.Statement (.mboxk a y) := by
  intro m w' h; have := a.isLt; have := bit_le y
  cases h; omega

theorem EncodingLength.mbput (a : BitVec 5) (b : BitVec 5) (y : Bool) :
    EncodingLength.Statement (.mbput a b y) := by
  intro m w' h; have := a.isLt; have := b.isLt; have := bit_le y
  cases h; omega

theorem EncodingLength.mbtake (d : BitVec 5) (a : BitVec 5) (b : BitVec 5) (x : Bool) (y : Bool) :
    EncodingLength.Statement (.mbtake d a b x y) := by
  intro m w' h; have := d.isLt; have := a.isLt; have := b.isLt; have := bit_le x; have := bit_le y
  cases h; omega

theorem EncodingLength.repl (d : BitVec 5) (a : BitVec 5) (b : BitVec 5) (x : Bool) (y : Bool) :
    EncodingLength.Statement (.repl d a b x y) := by
  intro m w' h; have := d.isLt; have := a.isLt; have := b.isLt; have := bit_le x; have := bit_le y
  cases h; omega

theorem EncodingLength.expsend (d : BitVec 5) (a : BitVec 5) (b : BitVec 5) (x : Bool) (y : Bool) :
    EncodingLength.Statement (.expsend d a b x y) := by
  intro m w' h; have := d.isLt; have := a.isLt; have := b.isLt; have := bit_le x; have := bit_le y
  cases h; omega

theorem EncodingLength.copy (d : BitVec 5) (a : BitVec 5) (b : BitVec 5) (x : Bool) (y : Bool) :
    EncodingLength.Statement (.copy d a b x y) := by
  intro m w' h; have := d.isLt; have := a.isLt; have := b.isLt; have := bit_le x; have := bit_le y
  cases h; omega

theorem EncodingLength.copym (d : BitVec 5) (a : BitVec 5) (b : BitVec 5) (x : Bool) (y : Bool) :
    EncodingLength.Statement (.copym d a b x y) := by
  intro m w' h; have := d.isLt; have := a.isLt; have := b.isLt; have := bit_le x; have := bit_le y
  cases h; omega

theorem EncodingLength.ingcfg (a : BitVec 5) (b : BitVec 5) (y : Bool) :
    EncodingLength.Statement (.ingcfg a b y) := by
  intro m w' h; have := a.isLt; have := b.isLt; have := bit_le y
  cases h; omega

theorem EncodingLength.ingq (d : BitVec 5) (a : BitVec 5) (x : Bool) (y : Bool) :
    EncodingLength.Statement (.ingq d a x y) := by
  intro m w' h; have := d.isLt; have := a.isLt; have := bit_le x; have := bit_le y
  cases h; omega

theorem EncodingLength.trap (a : BitVec 5) (b : BitVec 5) (y : Bool) :
    EncodingLength.Statement (.trap a b y) := by
  intro m w' h; have := a.isLt; have := b.isLt; have := bit_le y
  cases h; omega

theorem EncodingLength.rett (a : BitVec 5) (b : BitVec 5) (y : Bool) :
    EncodingLength.Statement (.rett a b y) := by
  intro m w' h; have := a.isLt; have := b.isLt; have := bit_le y
  cases h; omega

theorem EncodingLength.ecall (c : BitVec 10) :
    EncodingLength.Statement (.ecall c) := by
  intro m w' h; have := c.isLt
  cases h; omega

theorem EncodingLength.csrr (d : BitVec 5) (r : BitVec 12) :
    EncodingLength.Statement (.csrr d r) := by
  intro m w' h; have := d.isLt; have := r.isLt
  cases h; omega

theorem EncodingLength.csrw (a : BitVec 5) (r : BitVec 12) :
    EncodingLength.Statement (.csrw a r) := by
  intro m w' h; have := a.isLt; have := r.isLt
  cases h; omega

theorem EncodingLength.tlbinv (a : BitVec 5) (b : BitVec 5) (y : Bool) :
    EncodingLength.Statement (.tlbinv a b y) := by
  intro m w' h; have := a.isLt; have := b.isLt; have := bit_le y
  cases h; omega

theorem EncodingLength.ctxsave (d : BitVec 5) (a : BitVec 5) (x : Bool) (y : Bool) :
    EncodingLength.Statement (.ctxsave d a x y) := by
  intro m w' h; have := d.isLt; have := a.isLt; have := bit_le x; have := bit_le y
  cases h; omega

theorem EncodingLength.ctxload (a : BitVec 5) (y : Bool) :
    EncodingLength.Statement (.ctxload a y) := by
  intro m w' h; have := a.isLt; have := bit_le y
  cases h; omega

theorem EncodingLength.idle (d : BitVec 5) (a : BitVec 5) (x : Bool) (y : Bool) :
    EncodingLength.Statement (.idle d a x y) := by
  intro m w' h; have := d.isLt; have := a.isLt; have := bit_le x; have := bit_le y
  cases h; omega

theorem EncodingLength.pwrreq (d : BitVec 5) (a : BitVec 5) (y : Bool) :
    EncodingLength.Statement (.pwrreq d a y) := by
  intro m w' h; have := d.isLt; have := a.isLt; have := bit_le y
  cases h; omega

theorem EncodingLength.perfr (d : BitVec 5) (n : BitVec 3) (x : Bool) :
    EncodingLength.Statement (.perfr d n x) := by
  intro m w' h; have := d.isLt; have := n.isLt; have := bit_le x
  cases h; omega

theorem EncodingLength.preempt (d : BitVec 5) (a : BitVec 5) (y : Bool) :
    EncodingLength.Statement (.preempt d a y) := by
  intro m w' h; have := d.isLt; have := a.isLt; have := bit_le y
  cases h; omega

theorem EncodingLength.setfmt (a : BitVec 5) (y : Bool) :
    EncodingLength.Statement (.setfmt a y) := by
  intro m w' h; have := a.isLt; have := bit_le y
  cases h; omega

theorem EncodingLength.getfmt (d : BitVec 5) (x : Bool) :
    EncodingLength.Statement (.getfmt d x) := by
  intro m w' h; have := d.isLt; have := bit_le x
  cases h; omega

theorem EncodingLength.compactAdd (d : BitVec 3) (a : BitVec 3) (b : BitVec 3) :
    EncodingLength.Statement (.compactAdd d a b) := by
  intro m w' h; have := d.isLt; have := a.isLt; have := b.isLt
  cases h; omega

theorem EncodingLength.compactSub (d : BitVec 3) (a : BitVec 3) (b : BitVec 3) :
    EncodingLength.Statement (.compactSub d a b) := by
  intro m w' h; have := d.isLt; have := a.isLt; have := b.isLt
  cases h; omega

theorem EncodingLength.compactAnd (d : BitVec 3) (a : BitVec 3) (b : BitVec 3) :
    EncodingLength.Statement (.compactAnd d a b) := by
  intro m w' h; have := d.isLt; have := a.isLt; have := b.isLt
  cases h; omega

theorem EncodingLength.compactOr (d : BitVec 3) (a : BitVec 3) (b : BitVec 3) :
    EncodingLength.Statement (.compactOr d a b) := by
  intro m w' h; have := d.isLt; have := a.isLt; have := b.isLt
  cases h; omega

theorem EncodingLength.compactXor (d : BitVec 3) (a : BitVec 3) (b : BitVec 3) :
    EncodingLength.Statement (.compactXor d a b) := by
  intro m w' h; have := d.isLt; have := a.isLt; have := b.isLt
  cases h; omega

theorem EncodingLength.compactMov (d : BitVec 3) (a : BitVec 3) :
    EncodingLength.Statement (.compactMov d a) := by
  intro m w' h; have := d.isLt; have := a.isLt
  cases h; omega

theorem EncodingLength.compactShl (d : BitVec 3) (a : BitVec 3) (b : BitVec 3) :
    EncodingLength.Statement (.compactShl d a b) := by
  intro m w' h; have := d.isLt; have := a.isLt; have := b.isLt
  cases h; omega

theorem EncodingLength.compactShr (d : BitVec 3) (a : BitVec 3) (b : BitVec 3) :
    EncodingLength.Statement (.compactShr d a b) := by
  intro m w' h; have := d.isLt; have := a.isLt; have := b.isLt
  cases h; omega

theorem EncodingLength.compactSra (d : BitVec 3) (a : BitVec 3) (b : BitVec 3) :
    EncodingLength.Statement (.compactSra d a b) := by
  intro m w' h; have := d.isLt; have := a.isLt; have := b.isLt
  cases h; omega

theorem EncodingLength.compactAddi (d : BitVec 3) (a : BitVec 3) (i : BitVec 4) :
    EncodingLength.Statement (.compactAddi d a i) := by
  intro m w' h; have := d.isLt; have := a.isLt; have := i.isLt
  cases h; omega

theorem EncodingLength.compactShli (d : BitVec 3) (a : BitVec 3) (i : BitVec 4) :
    EncodingLength.Statement (.compactShli d a i) := by
  intro m w' h; have := d.isLt; have := a.isLt; have := i.isLt
  cases h; omega

theorem EncodingLength.compactShri (d : BitVec 3) (a : BitVec 3) (i : BitVec 4) :
    EncodingLength.Statement (.compactShri d a i) := by
  intro m w' h; have := d.isLt; have := a.isLt; have := i.isLt
  cases h; omega

theorem EncodingLength.compactLd (d : BitVec 3) (a : BitVec 3) (i : BitVec 4) :
    EncodingLength.Statement (.compactLd d a i) := by
  intro m w' h; have := d.isLt; have := a.isLt; have := i.isLt
  cases h; omega

theorem EncodingLength.compactSt (d : BitVec 3) (a : BitVec 3) (i : BitVec 4) :
    EncodingLength.Statement (.compactSt d a i) := by
  intro m w' h; have := d.isLt; have := a.isLt; have := i.isLt
  cases h; omega

theorem EncodingLength.compactLdv (d : BitVec 3) (a : BitVec 3) (i : BitVec 4) :
    EncodingLength.Statement (.compactLdv d a i) := by
  intro m w' h; have := d.isLt; have := a.isLt; have := i.isLt
  cases h; omega

theorem EncodingLength.compactStv (d : BitVec 3) (a : BitVec 3) (i : BitVec 4) :
    EncodingLength.Statement (.compactStv d a i) := by
  intro m w' h; have := d.isLt; have := a.isLt; have := i.isLt
  cases h; omega

theorem EncodingLength.compactBeq (a : BitVec 3) (o : BitVec 7) :
    EncodingLength.Statement (.compactBeq a o) := by
  intro m w' h; have := a.isLt; have := o.isLt
  cases h; omega

theorem EncodingLength.compactBne (a : BitVec 3) (o : BitVec 7) :
    EncodingLength.Statement (.compactBne a o) := by
  intro m w' h; have := a.isLt; have := o.isLt
  cases h; omega

theorem EncodingLength.compactVaddF32 (d : BitVec 3) (a : BitVec 3) (b : BitVec 3) :
    EncodingLength.Statement (.compactVaddF32 d a b) := by
  intro m w' h; have := d.isLt; have := a.isLt; have := b.isLt
  cases h; omega

theorem EncodingLength.compactVmulF32 (d : BitVec 3) (a : BitVec 3) (b : BitVec 3) :
    EncodingLength.Statement (.compactVmulF32 d a b) := by
  intro m w' h; have := d.isLt; have := a.isLt; have := b.isLt
  cases h; omega

theorem EncodingLength.compactVfmaF32 (d : BitVec 3) (a : BitVec 3) (b : BitVec 3) :
    EncodingLength.Statement (.compactVfmaF32 d a b) := by
  intro m w' h; have := d.isLt; have := a.isLt; have := b.isLt
  cases h; omega

theorem EncodingLength.compactVaddI32 (d : BitVec 3) (a : BitVec 3) (b : BitVec 3) :
    EncodingLength.Statement (.compactVaddI32 d a b) := by
  intro m w' h; have := d.isLt; have := a.isLt; have := b.isLt
  cases h; omega

theorem EncodingLength.compactSlt (d : BitVec 3) (a : BitVec 3) (b : BitVec 3) :
    EncodingLength.Statement (.compactSlt d a b) := by
  intro m w' h; have := d.isLt; have := a.isLt; have := b.isLt
  cases h; omega

theorem EncodingLength.compactLi (d : BitVec 3) (i : BitVec 7) :
    EncodingLength.Statement (.compactLi d i) := by
  intro m w' h; have := d.isLt; have := i.isLt
  cases h; omega

theorem EncodingLength.compactVsubF32 (d : BitVec 3) (a : BitVec 3) (b : BitVec 3) :
    EncodingLength.Statement (.compactVsubF32 d a b) := by
  intro m w' h; have := d.isLt; have := a.isLt; have := b.isLt
  cases h; omega

theorem EncodingLength.endTask : EncodingLength.Statement .endTask := by
  intro n w h; cases h; decide

theorem EncodingLength.yield : EncodingLength.Statement .yield := by
  intro n w h; cases h; decide

theorem EncodingLength.nop : EncodingLength.Statement .nop := by
  intro n w h; cases h; decide

theorem EncodingLength.unpublish : EncodingLength.Statement .unpublish := by
  intro n w h; cases h; decide

theorem EncodingLength.unsub : EncodingLength.Statement .unsub := by
  intro n w h; cases h; decide

theorem EncodingLength.halt : EncodingLength.Statement .halt := by
  intro n w h; cases h; decide

theorem EncodingLength.compactJrS0 : EncodingLength.Statement .compactJrS0 := by
  intro n w h; cases h; decide

theorem EncodingLength.compactJrS1 : EncodingLength.Statement .compactJrS1 := by
  intro n w h; cases h; decide

theorem EncodingLength.compactJrS2 : EncodingLength.Statement .compactJrS2 := by
  intro n w h; cases h; decide

theorem EncodingLength.compactJrS3 : EncodingLength.Statement .compactJrS3 := by
  intro n w h; cases h; decide

theorem EncodingLength.compactJrS4 : EncodingLength.Statement .compactJrS4 := by
  intro n w h; cases h; decide

theorem EncodingLength.compactJrS5 : EncodingLength.Statement .compactJrS5 := by
  intro n w h; cases h; decide

theorem EncodingLength.compactJrS6 : EncodingLength.Statement .compactJrS6 := by
  intro n w h; cases h; decide

theorem EncodingLength.compactJrS7 : EncodingLength.Statement .compactJrS7 := by
  intro n w h; cases h; decide

theorem EncodingLength.compactEnd : EncodingLength.Statement .compactEnd := by
  intro n w h; cases h; decide

theorem EncodingLength.compactNop : EncodingLength.Statement .compactNop := by
  intro n w h; cases h; decide

theorem EncodingLength.compactYield : EncodingLength.Statement .compactYield := by
  intro n w h; cases h; decide

theorem EncodingLength.compactWait : EncodingLength.Statement .compactWait := by
  intro n w h; cases h; decide

theorem EncodingLength.compactBrk : EncodingLength.Statement .compactBrk := by
  intro n w h; cases h; decide

theorem EncodingLength.messageArrival : EncodingLength.Statement .messageArrival := by
  intro n w h; cases h

theorem EncodingLength.taskStart : EncodingLength.Statement .taskStart := by
  intro n w h; cases h

theorem EncodingLength.taskResume : EncodingLength.Statement .taskResume := by
  intro n w h; cases h

theorem EncodingLength.mapReload : EncodingLength.Statement .mapReload := by
  intro n w h; cases h

theorem EncodingLength.migrationArrival : EncodingLength.Statement .migrationArrival := by
  intro n w h; cases h

theorem EncodingLength.wakeUp : EncodingLength.Statement .wakeUp := by
  intro n w h; cases h

theorem EncodingLength.budgetExpiry : EncodingLength.Statement .budgetExpiry := by
  intro n w h; cases h

theorem EncodingLength.preemptionByArrival : EncodingLength.Statement .preemptionByArrival := by
  intro n w h; cases h

theorem EncodingLength.taskSave : EncodingLength.Statement .taskSave := by
  intro n w h; cases h

theorem EncodingLength.trapReport : EncodingLength.Statement .trapReport := by
  intro n w h; cases h

theorem EncodingLength.contextCreate : EncodingLength.Statement .contextCreate := by
  intro n w h; cases h

theorem EncodingLength.contextDestroy : EncodingLength.Statement .contextDestroy := by
  intro n w h; cases h

theorem EncodingLength.loadReply : EncodingLength.Statement .loadReply := by
  intro n w h; cases h

theorem EncodingLength.storeAck : EncodingLength.Statement .storeAck := by
  intro n w h; cases h

theorem EncodingLength.deferredFaultArrival : EncodingLength.Statement .deferredFaultArrival := by
  intro n w h; cases h

theorem EncodingLength.forwardingEntryExpiry : EncodingLength.Statement .forwardingEntryExpiry := by
  intro n w h; cases h

theorem EncodingLength.leaseGrant : EncodingLength.Statement .leaseGrant := by
  intro n w h; cases h

theorem EncodingLength.leaseEnd : EncodingLength.Statement .leaseEnd := by
  intro n w h; cases h

theorem EncodingLength.hbmLineFill : EncodingLength.Statement .hbmLineFill := by
  intro n w h; cases h

theorem EncodingLength.storeApply : EncodingLength.Statement .storeApply := by
  intro n w h; cases h

theorem EncodingLength.atomicApply : EncodingLength.Statement .atomicApply := by
  intro n w h; cases h

theorem EncodingLength.ufnApply : EncodingLength.Statement .ufnApply := by
  intro n w h; cases h

theorem EncodingLength.redApply : EncodingLength.Statement .redApply := by
  intro n w h; cases h

theorem EncodingLength.redSlotTimeout : EncodingLength.Statement .redSlotTimeout := by
  intro n w h; cases h

theorem EncodingLength.monitorRegistration : EncodingLength.Statement .monitorRegistration := by
  intro n w h; cases h

theorem EncodingLength.waitcRetry : EncodingLength.Statement .waitcRetry := by
  intro n w h; cases h

theorem EncodingLength.scratchpadBankAccess : EncodingLength.Statement .scratchpadBankAccess := by
  intro n w h; cases h

theorem EncodingLength.translationWalk : EncodingLength.Statement .translationWalk := by
  intro n w h; cases h

theorem EncodingLength.queueHomeQinit : EncodingLength.Statement .queueHomeQinit := by
  intro n w h; cases h

theorem EncodingLength.queueHomePush : EncodingLength.Statement .queueHomePush := by
  intro n w h; cases h

theorem EncodingLength.queueHomePop : EncodingLength.Statement .queueHomePop := by
  intro n w h; cases h

theorem EncodingLength.queueHomeSteal : EncodingLength.Statement .queueHomeSteal := by
  intro n w h; cases h

theorem EncodingLength.queueHomeAvail : EncodingLength.Statement .queueHomeAvail := by
  intro n w h; cases h

theorem EncodingLength.queueHomePermit : EncodingLength.Statement .queueHomePermit := by
  intro n w h; cases h

theorem EncodingLength.queueHomePret : EncodingLength.Statement .queueHomePret := by
  intro n w h; cases h

theorem EncodingLength.permitExpiry : EncodingLength.Statement .permitExpiry := by
  intro n w h; cases h

theorem EncodingLength.qpopWRetry : EncodingLength.Statement .qpopWRetry := by
  intro n w h; cases h

theorem EncodingLength.gloverMatch : EncodingLength.Statement .gloverMatch := by
  intro n w h; cases h

theorem EncodingLength.gloverWindowExpiry : EncodingLength.Statement .gloverWindowExpiry := by
  intro n w h; cases h

theorem EncodingLength.streamEnginePop : EncodingLength.Statement .streamEnginePop := by
  intro n w h; cases h

theorem EncodingLength.streamPopRetry : EncodingLength.Statement .streamPopRetry := by
  intro n w h; cases h

theorem EncodingLength.sfuAccept : EncodingLength.Statement .sfuAccept := by
  intro n w h; cases h

theorem EncodingLength.sfuResult : EncodingLength.Statement .sfuResult := by
  intro n w h; cases h

theorem EncodingLength.copyDone : EncodingLength.Statement .copyDone := by
  intro n w h; cases h

theorem EncodingLength.tileOpComplete : EncodingLength.Statement .tileOpComplete := by
  intro n w h; cases h

theorem EncodingLength.fullerOpComplete : EncodingLength.Statement .fullerOpComplete := by
  intro n w h; cases h

theorem EncodingLength.barrierCredit : EncodingLength.Statement .barrierCredit := by
  intro n w h; cases h

theorem EncodingLength.groupRootUpdate : EncodingLength.Statement .groupRootUpdate := by
  intro n w h; cases h

theorem EncodingLength.mcastSerialise : EncodingLength.Statement .mcastSerialise := by
  intro n w h; cases h

theorem EncodingLength.mcastMemberApply : EncodingLength.Statement .mcastMemberApply := by
  intro n w h; cases h

theorem EncodingLength.streamInstructionArrival : EncodingLength.Statement .streamInstructionArrival := by
  intro n w h; cases h

theorem EncodingLength.issueCountReport : EncodingLength.Statement .issueCountReport := by
  intro n w h; cases h

theorem EncodingLength.subscriptionRegistration : EncodingLength.Statement .subscriptionRegistration := by
  intro n w h; cases h

theorem EncodingLength.frequencyLockSwitch : EncodingLength.Statement .frequencyLockSwitch := by
  intro n w h; cases h

theorem EncodingLength.mailboxPut : EncodingLength.Statement .mailboxPut := by
  intro n w h; cases h

theorem EncodingLength.resultCombine : EncodingLength.Statement .resultCombine := by
  intro n w h; cases h

theorem EncodingLength.expsendRowRead : EncodingLength.Statement .expsendRowRead := by
  intro n w h; cases h

theorem EncodingLength.rowArrival : EncodingLength.Statement .rowArrival := by
  intro n w h; cases h

theorem EncodingLength.rowQueueTimer : EncodingLength.Statement .rowQueueTimer := by
  intro n w h; cases h

theorem EncodingLength.announcement : EncodingLength.Statement .announcement := by
  intro n w h; cases h

theorem EncodingLength.launchTaskPost : EncodingLength.Statement .launchTaskPost := by
  intro n w h; cases h

theorem EncodingLength.dimensionRecordRead : EncodingLength.Statement .dimensionRecordRead := by
  intro n w h; cases h

theorem EncodingLength.launchFenceMet : EncodingLength.Statement .launchFenceMet := by
  intro n w h; cases h

theorem EncodingLength.launchFenceTimeout : EncodingLength.Statement .launchFenceTimeout := by
  intro n w h; cases h

theorem EncodingLength.tailorAdmission : EncodingLength.Statement .tailorAdmission := by
  intro n w h; cases h

theorem EncodingLength.tailorCancel : EncodingLength.Statement .tailorCancel := by
  intro n w h; cases h

theorem EncodingLength.runFrameStart : EncodingLength.Statement .runFrameStart := by
  intro n w h; cases h

theorem EncodingLength.untimedCapExpiry : EncodingLength.Statement .untimedCapExpiry := by
  intro n w h; cases h

theorem EncodingLength.deadline : EncodingLength.Statement .deadline := by
  intro n w h; cases h

theorem EncodingLength.reservationEnd : EncodingLength.Statement .reservationEnd := by
  intro n w h; cases h

theorem EncodingLength.timedWaitLapse : EncodingLength.Statement .timedWaitLapse := by
  intro n w h; cases h

theorem EncodingLength.ageingStep : EncodingLength.Statement .ageingStep := by
  intro n w h; cases h

theorem EncodingLength.idleTimeLimit : EncodingLength.Statement .idleTimeLimit := by
  intro n w h; cases h

theorem EncodingLength.correctableError : EncodingLength.Statement .correctableError := by
  intro n w h; cases h

theorem EncodingLength.uncorrectableError : EncodingLength.Statement .uncorrectableError := by
  intro n w h; cases h

theorem EncodingLength.dieLoss : EncodingLength.Statement .dieLoss := by
  intro n w h; cases h

theorem EncodingLength.dieReadmission : EncodingLength.Statement .dieReadmission := by
  intro n w h; cases h

theorem EncodingLength.linkPacketArrival : EncodingLength.Statement .linkPacketArrival := by
  intro n w h; cases h

theorem EncodingLength.flitCrcFailure : EncodingLength.Statement .flitCrcFailure := by
  intro n w h; cases h

theorem EncodingLength.portRetrain : EncodingLength.Statement .portRetrain := by
  intro n w h; cases h

theorem EncodingLength.widthMarker : EncodingLength.Statement .widthMarker := by
  intro n w h; cases h

theorem EncodingLength.routeWaitTimeout : EncodingLength.Statement .routeWaitTimeout := by
  intro n w h; cases h

theorem EncodingLength.hostReadTimeout : EncodingLength.Statement .hostReadTimeout := by
  intro n w h; cases h

theorem EncodingLength.portPartnerSeen : EncodingLength.Statement .portPartnerSeen := by
  intro n w h; cases h

theorem EncodingLength.portDetectTimeout : EncodingLength.Statement .portDetectTimeout := by
  intro n w h; cases h

theorem EncodingLength.laneTraining : EncodingLength.Statement .laneTraining := by
  intro n w h; cases h

theorem EncodingLength.speedSettle : EncodingLength.Statement .speedSettle := by
  intro n w h; cases h

theorem EncodingLength.widthSettle : EncodingLength.Statement .widthSettle := by
  intro n w h; cases h

theorem EncodingLength.attestation : EncodingLength.Statement .attestation := by
  intro n w h; cases h

theorem EncodingLength.moduleReset : EncodingLength.Statement .moduleReset := by
  intro n w h; cases h

theorem EncodingLength.firmwareStage : EncodingLength.Statement .firmwareStage := by
  intro n w h; cases h

theorem EncodingLength.memoryStage : EncodingLength.Statement .memoryStage := by
  intro n w h; cases h

theorem EncodingLength.meshStage : EncodingLength.Statement .meshStage := by
  intro n w h; cases h

theorem EncodingLength.linksStage : EncodingLength.Statement .linksStage := by
  intro n w h; cases h

theorem EncodingLength.governorSample : EncodingLength.Statement .governorSample := by
  intro n w h; cases h

theorem EncodingLength.regulatorSettled : EncodingLength.Statement .regulatorSettled := by
  intro n w h; cases h

theorem EncodingLength.thermalTrip : EncodingLength.Statement .thermalTrip := by
  intro n w h; cases h

theorem EncodingLength.thermalRecovery : EncodingLength.Statement .thermalRecovery := by
  intro n w h; cases h

theorem EncodingLength.thermalShutdown : EncodingLength.Statement .thermalShutdown := by
  intro n w h; cases h

theorem EncodingLength.ingestInflate : EncodingLength.Statement .ingestInflate := by
  intro n w h; cases h

theorem EncodingLength.ingestTranscode : EncodingLength.Statement .ingestTranscode := by
  intro n w h; cases h

theorem EncodingLength.ingestTokenise : EncodingLength.Statement .ingestTokenise := by
  intro n w h; cases h

theorem EncodingLength.ingestRowPush : EncodingLength.Statement .ingestRowPush := by
  intro n w h; cases h

theorem EncodingLength.ingestPermitRetry : EncodingLength.Statement .ingestPermitRetry := by
  intro n w h; cases h

theorem EncodingLength.ingestTimeout : EncodingLength.Statement .ingestTimeout := by
  intro n w h; cases h

theorem EncodingLength.ingestOutputStall : EncodingLength.Statement .ingestOutputStall := by
  intro n w h; cases h

theorem EncodingLength.hostPostedMessage : EncodingLength.Statement .hostPostedMessage := by
  intro n w h; cases h

theorem EncodingLength.hostLaunch : EncodingLength.Statement .hostLaunch := by
  intro n w h; cases h

theorem EncodingLength.hostPostedWrite : EncodingLength.Statement .hostPostedWrite := by
  intro n w h; cases h

theorem EncodingLength.modctlReady : EncodingLength.Statement .modctlReady := by
  intro n w h; cases h

theorem EncodingLength.diereset : EncodingLength.Statement .diereset := by
  intro n w h; cases h

theorem EncodingLength.reportDoorbell : EncodingLength.Statement .reportDoorbell := by
  intro n w h; cases h

theorem EncodingLength.portstatDisable : EncodingLength.Statement .portstatDisable := by
  intro n w h; cases h

theorem EncodingLength.hostRegisterWrite : EncodingLength.Statement .hostRegisterWrite := by
  intro n w h; cases h

theorem EncodingLength.copyStreamDelivery : EncodingLength.Statement .copyStreamDelivery := by
  intro n w h; cases h

theorem EncodingLength.handlerTableEntryWrite : EncodingLength.Statement .handlerTableEntryWrite := by
  intro n w h; cases h

theorem EncodingLength.translationInvalidation : EncodingLength.Statement .translationInvalidation := by
  intro n w h; cases h

end Sys2Proof.Laws
end

