-- ==== Sys2Proof/Laws/Range.lean ====
section
/-!
SUPPORT. What the engines' reads and writes of a range do where nothing is poisoned, lost or held in a reduction line: a write ends with
no fault and leaves the die records as they were, a read gives the bytes of memory and changes only the record of dies touched.
-/

namespace Sys2Proof.Machine

open Sys2Proof

theorem dies_writeNat (n : Nat) (s : State) (k data en : Nat) : (writeNat s k data en n).dies = s.dies := by
  induction n generalizing s k data en with
  | zero => rfl
  | succ n ih => simp only [writeNat]; rw [ih]; split <;> rfl

theorem dies_answers (l : List Monitor) (f : Monitor → List Nat) (s : State) :
    (l.foldl (fun s m => answerOp s m.op (f m)) s).dies = s.dies := by
  induction l generalizing s with
  | nil => rfl
  | cons a t ih => simp only [List.foldl_cons]; rw [ih]; rfl

theorem mapGet?_mapped {α : Type} (f : α → α) (m : AMap α) (i : Nat) :
    mapGet? (m.map (fun p => (p.1, f p.2))) i = (mapGet? m i).map f := by
  induction m with
  | nil => rfl
  | cons a t ih =>
    obtain ⟨k, v⟩ := a
    simp only [List.map_cons, mapGet?]
    split
    · rfl
    · exact ih

/-- The same dies are lost in two states, and the same ones re-admitted. -/
def SameDies (s t : State) : Prop := ∀ d, (t.die d).lost = (s.die d).lost ∧ (t.die d).wiped = (s.die d).wiped

theorem SameDies.of_eq {s t : State} (h : t.dies = s.dies) : SameDies s t := by
  intro d; unfold State.die; rw [h]; exact ⟨rfl, rfl⟩

theorem SameDies.trans {s t u : State} (h : SameDies s t) (k : SameDies t u) : SameDies s u :=
  fun d => ⟨(k d).1.trans (h d).1, (k d).2.trans (h d).2⟩

/-- A write that wakes monitors changes no die's standing. -/
theorem dies_wakeMonitors (s : State) (k n : Nat) : SameDies s (wakeMonitors s k n) := by
  intro d
  unfold wakeMonitors State.die mapGet
  dsimp only
  rw [mapGet?_mapped (fun x : Die => { x with launches := x.launches.map (meetFences s.devtime _ _) })]
  cases mapGet? s.dies d <;> exact ⟨rfl, rfl⟩

theorem dies_redWrite (n : Nat) (s : State) (r : RedLine) (w : Nat) : (redWrite s r w n).dies = s.dies := by
  induction n generalizing s with
  | zero => rfl
  | succ n ih => simp only [redWrite]; rw [dies_writeNat, ih]

theorem dies_collapse (s : State) (k : Nat) (b : Bool) : SameDies s (collapse s k b).1 := by
  unfold collapse
  split
  · exact .of_eq rfl
  · dsimp only
    split
    · split <;> exact .of_eq rfl
    · refine SameDies.trans ?_ (dies_wakeMonitors _ _ _)
      exact .of_eq (by rw [dies_redWrite])

theorem dies_setBad (s : State) (u : Nat) (v : Bool) : (setBad s u v).dies = s.dies := by
  unfold setBad; split <;> rfl

/-- A write at a bank changes no die's standing. -/
theorem dies_applyWrite (s : State) (k n data en : Nat) : SameDies s (applyWrite s k n data en) := by
  unfold applyWrite
  dsimp only
  refine (dies_collapse s k true).trans (SameDies.trans ?_ (dies_wakeMonitors _ _ _))
  split
  · exact .of_eq (by rw [dies_setBad, dies_writeNat])
  · exact .of_eq (by rw [dies_writeNat])

theorem touchKey_ctxs (s : State) (x k : Nat) : ∃ c, touchKey s x k = { s with ctxs := c } := by
  unfold touchKey; split
  · unfold touchDie; split
    · exact ⟨_, rfl⟩
    · exact ⟨s.ctxs, rfl⟩
  · exact ⟨s.ctxs, rfl⟩

/-- What an engine does at a bank before its access changes the record of dies touched and the lines that banks hold, no more. -/
theorem atBank_beside (s : State) (x k : Nat) : ∃ c h, atBank s x k = { s with ctxs := c, homeLines := h } := by
  obtain ⟨c, hc⟩ := touchKey_ctxs s x k
  unfold atBank
  split
  · exact ⟨c, _, by rw [hc]; rfl⟩
  · exact ⟨c, s.homeLines, by rw [hc]⟩

/-- No die is lost. -/
def NoneLost (s : State) : Prop := ∀ d, (s.die d).lost = false

theorem onLostDie_none {s : State} (h : NoneLost s) (k : Nat) : onLostDie s k = false := by
  unfold onLostDie; split
  · exact h _
  · rfl

theorem NoneLost.congr {s t : State} (h : NoneLost s) (e : SameDies s t) : NoneLost t := fun d => (e d).1.trans (h d)

/-- A write by an engine to HBM or a scratchpad ends with no fault. -/
theorem engWrite_ok {s : State} (h : NoneLost s) (a : Actor) (k : Nat) (l : List Byte) (p : Word) (hk : k < 2 ^ 48) :
    ∃ u tc, engWrite s a k l p = (u, .ok tc) ∧ NoneLost u := by
  unfold engWrite
  have h1 : isHost k = false := by simp [isHost]; omega
  have h2 : isPeer k = false := by simp [isPeer]; omega
  obtain ⟨c, e, hc⟩ := atBank_beside s a.ctx k
  rw [onLostDie_none h, h1, h2]
  simp only [Bool.false_eq_true, if_false, bankWrite, hc]
  exact ⟨_, _, rfl, NoneLost.congr (s := s) h (SameDies.trans (.of_eq rfl) (dies_applyWrite _ _ _ _ _))⟩

/-- A run of units in HBM or a scratchpad is written with no fault. -/
theorem writeRun_ok (fuel : Nat) {s : State} (h : NoneLost s) (a : Actor) (k : Nat) (p : Word) (l : List Byte) (hk : k + l.length ≤ 2 ^ 48) :
    ∃ u tc, writeRun s a k p l fuel = (u, .ok tc) ∧ NoneLost u := by
  induction fuel generalizing s k p l with
  | zero => exact ⟨s, 0, rfl, h⟩
  | succ n ih =>
    simp only [writeRun]
    split
    · exact ⟨s, 0, rfl, h⟩
    · rename_i he
      have hl : 0 < l.length := by cases l <;> simp_all
      obtain ⟨u, tc, e, hu⟩ := engWrite_ok h a k (l.take (Nat.min l.length (unitRest k))) p (by omega)
      rw [e]
      obtain ⟨v, tc', e', hv⟩ := ih hu (k + Nat.min l.length (unitRest k)) (ptrAdd p (Nat.min l.length (unitRest k)))
        (l.drop (Nat.min l.length (unitRest k))) (by
          have := Nat.min_le_left l.length (unitRest k)
          simp only [List.length_drop]
          change k + Nat.min l.length (unitRest k) + (l.length - Nat.min l.length (unitRest k)) ≤ _
          have : Nat.min l.length (unitRest k) ≤ l.length := this
          omega)
      dsimp only
      rw [e']
      exact ⟨v, _, rfl, hv⟩

/-- A range whose pieces lie in HBM or a scratchpad is written with no fault. -/
theorem writeRange_ok (g : List Seg) {s : State} (h : NoneLost s) (a : Actor) (base : Word) (l : List Byte)
    (hg : ∀ x ∈ g, x.key + x.len ≤ 2 ^ 48) : ∃ u tc, writeRange s a base l g = (u, .ok tc) ∧ NoneLost u := by
  induction g generalizing s with
  | nil => exact ⟨s, 0, rfl, h⟩
  | cons x t ih =>
    simp only [writeRange]
    obtain ⟨u, tc, e, hu⟩ := writeRun_ok (x.len / 16 + 2) h a x.key (ptrAdd base x.off) ((l.drop x.off).take x.len) (by
      have := hg x (by simp)
      have h2 : ((l.drop x.off).take x.len).length ≤ x.len := by simp only [List.length_take]; omega
      omega)
    rw [e]
    obtain ⟨v, tc', e', hv⟩ := ih hu (fun y hy => hg y (by simp [hy]))
    dsimp only
    rw [e']
    exact ⟨v, _, rfl, hv⟩

/-! ## Reading -/

theorem leBytes_readNat (n : Nat) (s : State) (k : Nat) : leBytes n (readNat s k n) = readBytes s k n := by
  induction n generalizing k with
  | zero => rfl
  | succ n ih =>
    simp only [leBytes, readNat, readBytes]
    have h1 : ((readByte s k).toNat + 256 * readNat s (k + 1) n) / 256 = readNat s (k + 1) n := by
      have := (readByte s k).isLt; omega
    rw [h1, ih]
    congr 1
    apply BitVec.eq_of_toNat_eq
    have := (readByte s k).isLt
    simp only [BitVec.toNat_ofNat]
    omega

theorem readBytes_add (m n : Nat) (s : State) (k : Nat) : readBytes s k (m + n) = readBytes s k m ++ readBytes s (k + m) n := by
  induction m generalizing k with
  | zero => simp [readBytes]
  | succ m ih =>
    rw [Nat.succ_add, readBytes, ih, readBytes, List.cons_append, Nat.add_assoc, Nat.add_comm 1 m]

theorem readBytes_congr (n : Nat) {s t : State} (h : t.mem = s.mem) (k : Nat) : readBytes t k n = readBytes s k n := by
  induction n generalizing k with
  | zero => rfl
  | succ n ih => simp only [readBytes, ih, readByte, h]

theorem readBytes_beside (s : State) (c : AMap Ctx) (e : List Nat) (k n : Nat) :
    readBytes { s with ctxs := c, homeLines := e } k n = readBytes s k n :=
  readBytes_congr (s := s) (t := { s with ctxs := c, homeLines := e }) n rfl k

theorem mapGet?_above {m : List Host.Cell} {b j : Nat} (h : ∀ p ∈ m, p.1 < b) (hj : b ≤ j) : mapGet? m j = none := by
  induction m with
  | nil => rfl
  | cons a t ih =>
    have h1 := h a (by simp)
    simp only [mapGet?]
    rw [if_neg (by omega), ih (fun p hp => h p (by simp [hp]))]

/-- Bytes above all that memory lists read zero. -/
theorem readBytes_above (n : Nat) {s : State} {b k : Nat} (h : ∀ p ∈ s.mem, p.1 < b) (hk : b ≤ k) : readBytes s k n = List.replicate n 0 := by
  induction n generalizing k with
  | zero => rfl
  | succ n ih =>
    rw [readBytes, ih (by omega), List.replicate_succ]
    congr 1
    unfold readByte mapGet; rw [mapGet?_above h hk]; rfl

/-- A module in which no die is lost or re-admitted, nothing is poisoned and no reduction line is held. -/
def Clean (s : State) : Prop := NoneLost s ∧ s.redLines = [] ∧ s.poison = [] ∧ ∀ d, (s.die d).wiped = false

theorem poisoned_clean {s : State} (h : Clean s) (k n : Nat) : poisoned s k n = false := by
  obtain ⟨-, -, hp, hw⟩ := h
  unfold poisoned
  simp [unitBad, hp, hw]

theorem applyRead_clean {s : State} (h : Clean s) (k n : Nat) : applyRead s k n = (s, some (readNat s k n)) := by
  have hc : collapse s k false = (s, false) := by unfold collapse; rw [h.2.1]; rfl
  unfold applyRead
  rw [hc]
  simp [poisoned_clean h]

/-- The record of dies touched and the lines that banks hold are all that an engine's read of a clean module changes. -/
theorem engRead_ok {s : State} (h : Clean s) (a : Actor) (k n : Nat) (p : Word) (hk : k < 2 ^ 48) :
    ∃ c e, engRead s a k n p = ({ s with ctxs := c, homeLines := e }, .ok (readBytes s k n)) := by
  have h1 : isHost k = false := by simp [isHost]; omega
  have h2 : isPeer k = false := by simp [isPeer]; omega
  obtain ⟨c, e, hc⟩ := atBank_beside s a.ctx k
  have h4 : Clean { s with ctxs := c, homeLines := e } := h
  refine ⟨c, e, ?_⟩
  unfold engRead bankRead
  rw [onLostDie_none h.1, h1, h2, hc]
  simp only [Bool.false_eq_true, if_false, applyRead_clean h4, leBytes_readNat]
  rw [readBytes_beside]

theorem unitRest_pos (k : Nat) : 16 - k % 16 ≤ unitRest k ∧ 0 < unitRest k := by
  unfold unitRest; split <;> omega

/-- A run of units of a clean module is read with no fault. -/
theorem readRun_ok (fuel : Nat) {s : State} (h : Clean s) (a : Actor) (k : Nat) (p : Word) (len : Nat) (hk : k + len ≤ 2 ^ 48)
    (hf : len = 0 ∨ k % 16 + len ≤ 16 * fuel) : ∃ c e, readRun s a k p len fuel = ({ s with ctxs := c, homeLines := e }, .ok (readBytes s k len)) := by
  induction fuel generalizing s k p len with
  | zero =>
    have : len = 0 := by omega
    subst this
    exact ⟨s.ctxs, s.homeLines, rfl⟩
  | succ f ih =>
    simp only [readRun]
    split
    · rename_i h0; subst h0; exact ⟨s.ctxs, s.homeLines, rfl⟩
    · rename_i h0
      obtain ⟨hu, hp⟩ := unitRest_pos k
      have hm : Nat.min len (unitRest k) = min len (unitRest k) := rfl
      rw [hm]
      obtain ⟨c, e, hc⟩ := engRead_ok h a k (min len (unitRest k)) p (by omega)
      rw [hc]
      have h' : Clean { s with ctxs := c, homeLines := e } := h
      have hr : len - min len (unitRest k) = 0 ∨ (k + min len (unitRest k)) % 16 + (len - min len (unitRest k)) ≤ 16 * f := by
        by_cases hl : len ≤ unitRest k
        · left; omega
        · rw [Nat.min_eq_right (by omega)]
          have : (k + unitRest k) % 16 = 0 := by
            unfold unitRest; split <;> omega
          omega
      obtain ⟨d, f', hd⟩ := ih h' (k + min len (unitRest k)) (ptrAdd p (min len (unitRest k) : Nat)) (len - min len (unitRest k)) (by omega) hr
      dsimp only at hd ⊢
      rw [hd]
      refine ⟨d, f', ?_⟩
      have e1 := readBytes_add (min len (unitRest k)) (len - min len (unitRest k)) s k
      have e2 : min len (unitRest k) + (len - min len (unitRest k)) = len := by omega
      rw [e2] at e1
      have e3 : readBytes { s with ctxs := c, homeLines := e } (k + min len (unitRest k)) (len - min len (unitRest k)) =
          readBytes s (k + min len (unitRest k)) (len - min len (unitRest k)) := readBytes_beside s c e _ _
      simp only [e3, ← e1]

/-- A range of a clean module whose pieces lie in HBM or a scratchpad is read with no fault: its bytes, piece by piece. -/
theorem readSegs_ok (g : List Seg) {s : State} (h : Clean s) (a : Actor) (base : Word) (hg : ∀ x ∈ g, x.key + x.len ≤ 2 ^ 48) :
    ∃ c e, readSegs s a base g = ({ s with ctxs := c, homeLines := e }, .ok (g.flatMap (fun x => readBytes s x.key x.len))) := by
  induction g generalizing s with
  | nil => exact ⟨s.ctxs, s.homeLines, rfl⟩
  | cons x t ih =>
    simp only [readSegs]
    obtain ⟨c, e, hc⟩ := readRun_ok (x.len / 16 + 2) h a x.key (ptrAdd base x.off) x.len (hg x (by simp)) (by omega)
    rw [hc]
    have h' : Clean { s with ctxs := c, homeLines := e } := h
    obtain ⟨d, f', hd⟩ := ih h' (fun y hy => hg y (by simp [hy]))
    dsimp only at hd ⊢
    rw [hd]
    refine ⟨d, f', ?_⟩
    have e3 : ∀ y : Seg, readBytes { s with ctxs := c, homeLines := e } y.key y.len = readBytes s y.key y.len := fun y => readBytes_beside s c e _ _
    simp only [e3, List.flatMap_cons]

/-- A module is clean when none of the dies that it lists is lost or re-admitted, nothing is poisoned and no reduction line is held. -/
theorem clean_of_dies {s : State} (h1 : s.redLines = []) (h2 : s.poison = []) (h3 : ∀ p ∈ s.dies, p.2.lost = false ∧ p.2.wiped = false) :
    Clean s := by
  have hd : ∀ (l : AMap Die) d, (∀ p ∈ l, p.2.lost = false ∧ p.2.wiped = false) →
      (mapGet {} l d).lost = false ∧ (mapGet {} l d).wiped = false := by
    intro l d hl
    induction l with
    | nil => exact ⟨rfl, rfl⟩
    | cons a t ih =>
      have := hl a (by simp)
      unfold mapGet mapGet?
      split
      · exact this
      · exact ih (fun p hp => hl p (by simp [hp]))
  exact ⟨fun d => (hd _ d h3).1, h1, h2, fun d => (hd _ d h3).2⟩

/-- A range of a clean module that lies above all that memory lists reads zero. -/
theorem readSegs_above {s : State} {b : Nat} (g : List Seg) (h : Clean s) (a : Actor) (base : Word) (hm : ∀ p ∈ s.mem, p.1 < b)
    (hg : ∀ x ∈ g, x.key + x.len ≤ 2 ^ 48 ∧ b ≤ x.key) :
    ∃ c e, readSegs s a base g = ({ s with ctxs := c, homeLines := e }, .ok (g.flatMap (fun x => List.replicate x.len 0))) := by
  obtain ⟨c, e, hc⟩ := readSegs_ok g h a base (fun x hx => (hg x hx).1)
  have he : g.flatMap (fun x => readBytes s x.key x.len) = g.flatMap (fun x => List.replicate x.len 0) := by
    rw [List.flatMap_def, List.flatMap_def]
    exact congrArg List.flatten (List.map_congr_left (fun x hx => readBytes_above x.len hm (hg x hx).2))
  exact ⟨c, e, by rw [hc, he]⟩

end Sys2Proof.Machine
end

