-- ==== Sys2Proof/Laws/State.lean ====
section
/-!
SUPPORT. What each named update leaves alone: one lemma for each field that an update does not write, so that no later proof unfolds a
record update.
-/

namespace Sys2Proof.Machine

open Sys2Proof

set_option Elab.async false

/-! ## `setCore` -/

@[simp] theorem setCore_cur (s : State) (c : Nat) (k : Core) : (s.setCore c k).cur = s.cur := rfl
@[simp] theorem setCore_subj (s : State) (c : Nat) (k : Core) : (s.setCore c k).subj = s.subj := rfl
@[simp] theorem setCore_agenda (s : State) (c : Nat) (k : Core) : (s.setCore c k).agenda = s.agenda := rfl
@[simp] theorem setCore_tick (s : State) (c : Nat) (k : Core) : (s.setCore c k).tick = s.tick := rfl
@[simp] theorem setCore_last (s : State) (c : Nat) (k : Core) : (s.setCore c k).last = s.last := rfl
@[simp] theorem setCore_nextId (s : State) (c : Nat) (k : Core) : (s.setCore c k).nextId = s.nextId := rfl
@[simp] theorem setCore_mem (s : State) (c : Nat) (k : Core) : (s.setCore c k).mem = s.mem := rfl
@[simp] theorem setCore_poison (s : State) (c : Nat) (k : Core) : (s.setCore c k).poison = s.poison := rfl
@[simp] theorem setCore_devtime (s : State) (c : Nat) (k : Core) : (s.setCore c k).devtime = s.devtime := rfl
@[simp] theorem setCore_clusters (s : State) (c : Nat) (k : Core) : (s.setCore c k).clusters = s.clusters := rfl
@[simp] theorem setCore_dies (s : State) (c : Nat) (k : Core) : (s.setCore c k).dies = s.dies := rfl
@[simp] theorem setCore_ports (s : State) (c : Nat) (k : Core) : (s.setCore c k).ports = s.ports := rfl
@[simp] theorem setCore_ctxs (s : State) (c : Nat) (k : Core) : (s.setCore c k).ctxs = s.ctxs := rfl
@[simp] theorem setCore_asids (s : State) (c : Nat) (k : Core) : (s.setCore c k).asids = s.asids := rfl
@[simp] theorem setCore_exports (s : State) (c : Nat) (k : Core) : (s.setCore c k).exports = s.exports := rfl
@[simp] theorem setCore_gens (s : State) (c : Nat) (k : Core) : (s.setCore c k).gens = s.gens := rfl
@[simp] theorem setCore_tlb2 (s : State) (c : Nat) (k : Core) : (s.setCore c k).tlb2 = s.tlb2 := rfl
@[simp] theorem setCore_rtlb (s : State) (c : Nat) (k : Core) : (s.setCore c k).rtlb = s.rtlb := rfl
@[simp] theorem setCore_chans (s : State) (c : Nat) (k : Core) : (s.setCore c k).chans = s.chans := rfl
@[simp] theorem setCore_elects (s : State) (c : Nat) (k : Core) : (s.setCore c k).elects = s.elects := rfl
@[simp] theorem setCore_groups (s : State) (c : Nat) (k : Core) : (s.setCore c k).groups = s.groups := rfl
@[simp] theorem setCore_ops (s : State) (c : Nat) (k : Core) : (s.setCore c k).ops = s.ops := rfl
@[simp] theorem setCore_net (s : State) (c : Nat) (k : Core) : (s.setCore c k).net = s.net := rfl
@[simp] theorem setCore_leases (s : State) (c : Nat) (k : Core) : (s.setCore c k).leases = s.leases := rfl
@[simp] theorem setCore_fills (s : State) (c : Nat) (k : Core) : (s.setCore c k).fills = s.fills := rfl
@[simp] theorem setCore_homeLines (s : State) (c : Nat) (k : Core) : (s.setCore c k).homeLines = s.homeLines := rfl
@[simp] theorem setCore_monitors (s : State) (c : Nat) (k : Core) : (s.setCore c k).monitors = s.monitors := rfl
@[simp] theorem setCore_redLines (s : State) (c : Nat) (k : Core) : (s.setCore c k).redLines = s.redLines := rfl
@[simp] theorem setCore_permRecs (s : State) (c : Nat) (k : Core) : (s.setCore c k).permRecs = s.permRecs := rfl
@[simp] theorem setCore_queueOwners (s : State) (c : Nat) (k : Core) : (s.setCore c k).queueOwners = s.queueOwners := rfl
@[simp] theorem setCore_ufns (s : State) (c : Nat) (k : Core) : (s.setCore c k).ufns = s.ufns := rfl
@[simp] theorem setCore_reports (s : State) (c : Nat) (k : Core) : (s.setCore c k).reports = s.reports := rfl
@[simp] theorem setCore_ringHead (s : State) (c : Nat) (k : Core) : (s.setCore c k).ringHead = s.ringHead := rfl
@[simp] theorem setCore_hostRing (s : State) (c : Nat) (k : Core) : (s.setCore c k).hostRing = s.hostRing := rfl
@[simp] theorem setCore_msi (s : State) (c : Nat) (k : Core) : (s.setCore c k).msi = s.msi := rfl
@[simp] theorem setCore_resvs (s : State) (c : Nat) (k : Core) : (s.setCore c k).resvs = s.resvs := rfl
@[simp] theorem setCore_timedJobs (s : State) (c : Nat) (k : Core) : (s.setCore c k).timedJobs = s.timedJobs := rfl
@[simp] theorem setCore_fabid (s : State) (c : Nat) (k : Core) : (s.setCore c k).fabid = s.fabid := rfl
@[simp] theorem setCore_modReady (s : State) (c : Nat) (k : Core) : (s.setCore c k).modReady = s.modReady := rfl
@[simp] theorem setCore_ctxtable (s : State) (c : Nat) (k : Core) : (s.setCore c k).ctxtable = s.ctxtable := rfl
@[simp] theorem setCore_ringBase (s : State) (c : Nat) (k : Core) : (s.setCore c k).ringBase = s.ringBase := rfl
@[simp] theorem setCore_ringSize (s : State) (c : Nat) (k : Core) : (s.setCore c k).ringSize = s.ringSize := rfl
@[simp] theorem setCore_errBase (s : State) (c : Nat) (k : Core) : (s.setCore c k).errBase = s.errBase := rfl
@[simp] theorem setCore_errSize (s : State) (c : Nat) (k : Core) : (s.setCore c k).errSize = s.errSize := rfl
@[simp] theorem setCore_errlog (s : State) (c : Nat) (k : Core) : (s.setCore c k).errlog = s.errlog := rfl
@[simp] theorem setCore_routes (s : State) (c : Nat) (k : Core) : (s.setCore c k).routes = s.routes := rfl
@[simp] theorem setCore_portWaits (s : State) (c : Nat) (k : Core) : (s.setCore c k).portWaits = s.portWaits := rfl
@[simp] theorem setCore_linkWaits (s : State) (c : Nat) (k : Core) : (s.setCore c k).linkWaits = s.linkWaits := rfl

/-! ## `onCore` -/

@[simp] theorem onCore_cur (s : State) (c : Nat) (f : Core → Core) : (s.onCore c f).cur = s.cur := rfl
@[simp] theorem onCore_subj (s : State) (c : Nat) (f : Core → Core) : (s.onCore c f).subj = s.subj := rfl
@[simp] theorem onCore_agenda (s : State) (c : Nat) (f : Core → Core) : (s.onCore c f).agenda = s.agenda := rfl
@[simp] theorem onCore_tick (s : State) (c : Nat) (f : Core → Core) : (s.onCore c f).tick = s.tick := rfl
@[simp] theorem onCore_last (s : State) (c : Nat) (f : Core → Core) : (s.onCore c f).last = s.last := rfl
@[simp] theorem onCore_nextId (s : State) (c : Nat) (f : Core → Core) : (s.onCore c f).nextId = s.nextId := rfl
@[simp] theorem onCore_mem (s : State) (c : Nat) (f : Core → Core) : (s.onCore c f).mem = s.mem := rfl
@[simp] theorem onCore_poison (s : State) (c : Nat) (f : Core → Core) : (s.onCore c f).poison = s.poison := rfl
@[simp] theorem onCore_devtime (s : State) (c : Nat) (f : Core → Core) : (s.onCore c f).devtime = s.devtime := rfl
@[simp] theorem onCore_clusters (s : State) (c : Nat) (f : Core → Core) : (s.onCore c f).clusters = s.clusters := rfl
@[simp] theorem onCore_dies (s : State) (c : Nat) (f : Core → Core) : (s.onCore c f).dies = s.dies := rfl
@[simp] theorem onCore_ports (s : State) (c : Nat) (f : Core → Core) : (s.onCore c f).ports = s.ports := rfl
@[simp] theorem onCore_ctxs (s : State) (c : Nat) (f : Core → Core) : (s.onCore c f).ctxs = s.ctxs := rfl
@[simp] theorem onCore_asids (s : State) (c : Nat) (f : Core → Core) : (s.onCore c f).asids = s.asids := rfl
@[simp] theorem onCore_exports (s : State) (c : Nat) (f : Core → Core) : (s.onCore c f).exports = s.exports := rfl
@[simp] theorem onCore_gens (s : State) (c : Nat) (f : Core → Core) : (s.onCore c f).gens = s.gens := rfl
@[simp] theorem onCore_tlb2 (s : State) (c : Nat) (f : Core → Core) : (s.onCore c f).tlb2 = s.tlb2 := rfl
@[simp] theorem onCore_rtlb (s : State) (c : Nat) (f : Core → Core) : (s.onCore c f).rtlb = s.rtlb := rfl
@[simp] theorem onCore_chans (s : State) (c : Nat) (f : Core → Core) : (s.onCore c f).chans = s.chans := rfl
@[simp] theorem onCore_elects (s : State) (c : Nat) (f : Core → Core) : (s.onCore c f).elects = s.elects := rfl
@[simp] theorem onCore_groups (s : State) (c : Nat) (f : Core → Core) : (s.onCore c f).groups = s.groups := rfl
@[simp] theorem onCore_ops (s : State) (c : Nat) (f : Core → Core) : (s.onCore c f).ops = s.ops := rfl
@[simp] theorem onCore_net (s : State) (c : Nat) (f : Core → Core) : (s.onCore c f).net = s.net := rfl
@[simp] theorem onCore_leases (s : State) (c : Nat) (f : Core → Core) : (s.onCore c f).leases = s.leases := rfl
@[simp] theorem onCore_fills (s : State) (c : Nat) (f : Core → Core) : (s.onCore c f).fills = s.fills := rfl
@[simp] theorem onCore_homeLines (s : State) (c : Nat) (f : Core → Core) : (s.onCore c f).homeLines = s.homeLines := rfl
@[simp] theorem onCore_monitors (s : State) (c : Nat) (f : Core → Core) : (s.onCore c f).monitors = s.monitors := rfl
@[simp] theorem onCore_redLines (s : State) (c : Nat) (f : Core → Core) : (s.onCore c f).redLines = s.redLines := rfl
@[simp] theorem onCore_permRecs (s : State) (c : Nat) (f : Core → Core) : (s.onCore c f).permRecs = s.permRecs := rfl
@[simp] theorem onCore_queueOwners (s : State) (c : Nat) (f : Core → Core) : (s.onCore c f).queueOwners = s.queueOwners := rfl
@[simp] theorem onCore_ufns (s : State) (c : Nat) (f : Core → Core) : (s.onCore c f).ufns = s.ufns := rfl
@[simp] theorem onCore_reports (s : State) (c : Nat) (f : Core → Core) : (s.onCore c f).reports = s.reports := rfl
@[simp] theorem onCore_ringHead (s : State) (c : Nat) (f : Core → Core) : (s.onCore c f).ringHead = s.ringHead := rfl
@[simp] theorem onCore_hostRing (s : State) (c : Nat) (f : Core → Core) : (s.onCore c f).hostRing = s.hostRing := rfl
@[simp] theorem onCore_msi (s : State) (c : Nat) (f : Core → Core) : (s.onCore c f).msi = s.msi := rfl
@[simp] theorem onCore_resvs (s : State) (c : Nat) (f : Core → Core) : (s.onCore c f).resvs = s.resvs := rfl
@[simp] theorem onCore_timedJobs (s : State) (c : Nat) (f : Core → Core) : (s.onCore c f).timedJobs = s.timedJobs := rfl
@[simp] theorem onCore_fabid (s : State) (c : Nat) (f : Core → Core) : (s.onCore c f).fabid = s.fabid := rfl
@[simp] theorem onCore_modReady (s : State) (c : Nat) (f : Core → Core) : (s.onCore c f).modReady = s.modReady := rfl
@[simp] theorem onCore_ctxtable (s : State) (c : Nat) (f : Core → Core) : (s.onCore c f).ctxtable = s.ctxtable := rfl
@[simp] theorem onCore_ringBase (s : State) (c : Nat) (f : Core → Core) : (s.onCore c f).ringBase = s.ringBase := rfl
@[simp] theorem onCore_ringSize (s : State) (c : Nat) (f : Core → Core) : (s.onCore c f).ringSize = s.ringSize := rfl
@[simp] theorem onCore_errBase (s : State) (c : Nat) (f : Core → Core) : (s.onCore c f).errBase = s.errBase := rfl
@[simp] theorem onCore_errSize (s : State) (c : Nat) (f : Core → Core) : (s.onCore c f).errSize = s.errSize := rfl
@[simp] theorem onCore_errlog (s : State) (c : Nat) (f : Core → Core) : (s.onCore c f).errlog = s.errlog := rfl
@[simp] theorem onCore_routes (s : State) (c : Nat) (f : Core → Core) : (s.onCore c f).routes = s.routes := rfl
@[simp] theorem onCore_portWaits (s : State) (c : Nat) (f : Core → Core) : (s.onCore c f).portWaits = s.portWaits := rfl
@[simp] theorem onCore_linkWaits (s : State) (c : Nat) (f : Core → Core) : (s.onCore c f).linkWaits = s.linkWaits := rfl

/-! ## `setSlot` -/

@[simp] theorem setSlot_cur (s : State) (c i : Nat) (t : Strand) : (s.setSlot c i t).cur = s.cur := rfl
@[simp] theorem setSlot_subj (s : State) (c i : Nat) (t : Strand) : (s.setSlot c i t).subj = s.subj := rfl
@[simp] theorem setSlot_agenda (s : State) (c i : Nat) (t : Strand) : (s.setSlot c i t).agenda = s.agenda := rfl
@[simp] theorem setSlot_tick (s : State) (c i : Nat) (t : Strand) : (s.setSlot c i t).tick = s.tick := rfl
@[simp] theorem setSlot_last (s : State) (c i : Nat) (t : Strand) : (s.setSlot c i t).last = s.last := rfl
@[simp] theorem setSlot_nextId (s : State) (c i : Nat) (t : Strand) : (s.setSlot c i t).nextId = s.nextId := rfl
@[simp] theorem setSlot_mem (s : State) (c i : Nat) (t : Strand) : (s.setSlot c i t).mem = s.mem := rfl
@[simp] theorem setSlot_poison (s : State) (c i : Nat) (t : Strand) : (s.setSlot c i t).poison = s.poison := rfl
@[simp] theorem setSlot_devtime (s : State) (c i : Nat) (t : Strand) : (s.setSlot c i t).devtime = s.devtime := rfl
@[simp] theorem setSlot_clusters (s : State) (c i : Nat) (t : Strand) : (s.setSlot c i t).clusters = s.clusters := rfl
@[simp] theorem setSlot_dies (s : State) (c i : Nat) (t : Strand) : (s.setSlot c i t).dies = s.dies := rfl
@[simp] theorem setSlot_ports (s : State) (c i : Nat) (t : Strand) : (s.setSlot c i t).ports = s.ports := rfl
@[simp] theorem setSlot_ctxs (s : State) (c i : Nat) (t : Strand) : (s.setSlot c i t).ctxs = s.ctxs := rfl
@[simp] theorem setSlot_asids (s : State) (c i : Nat) (t : Strand) : (s.setSlot c i t).asids = s.asids := rfl
@[simp] theorem setSlot_exports (s : State) (c i : Nat) (t : Strand) : (s.setSlot c i t).exports = s.exports := rfl
@[simp] theorem setSlot_gens (s : State) (c i : Nat) (t : Strand) : (s.setSlot c i t).gens = s.gens := rfl
@[simp] theorem setSlot_tlb2 (s : State) (c i : Nat) (t : Strand) : (s.setSlot c i t).tlb2 = s.tlb2 := rfl
@[simp] theorem setSlot_rtlb (s : State) (c i : Nat) (t : Strand) : (s.setSlot c i t).rtlb = s.rtlb := rfl
@[simp] theorem setSlot_chans (s : State) (c i : Nat) (t : Strand) : (s.setSlot c i t).chans = s.chans := rfl
@[simp] theorem setSlot_elects (s : State) (c i : Nat) (t : Strand) : (s.setSlot c i t).elects = s.elects := rfl
@[simp] theorem setSlot_groups (s : State) (c i : Nat) (t : Strand) : (s.setSlot c i t).groups = s.groups := rfl
@[simp] theorem setSlot_ops (s : State) (c i : Nat) (t : Strand) : (s.setSlot c i t).ops = s.ops := rfl
@[simp] theorem setSlot_net (s : State) (c i : Nat) (t : Strand) : (s.setSlot c i t).net = s.net := rfl
@[simp] theorem setSlot_leases (s : State) (c i : Nat) (t : Strand) : (s.setSlot c i t).leases = s.leases := rfl
@[simp] theorem setSlot_fills (s : State) (c i : Nat) (t : Strand) : (s.setSlot c i t).fills = s.fills := rfl
@[simp] theorem setSlot_homeLines (s : State) (c i : Nat) (t : Strand) : (s.setSlot c i t).homeLines = s.homeLines := rfl
@[simp] theorem setSlot_monitors (s : State) (c i : Nat) (t : Strand) : (s.setSlot c i t).monitors = s.monitors := rfl
@[simp] theorem setSlot_redLines (s : State) (c i : Nat) (t : Strand) : (s.setSlot c i t).redLines = s.redLines := rfl
@[simp] theorem setSlot_permRecs (s : State) (c i : Nat) (t : Strand) : (s.setSlot c i t).permRecs = s.permRecs := rfl
@[simp] theorem setSlot_queueOwners (s : State) (c i : Nat) (t : Strand) : (s.setSlot c i t).queueOwners = s.queueOwners := rfl
@[simp] theorem setSlot_ufns (s : State) (c i : Nat) (t : Strand) : (s.setSlot c i t).ufns = s.ufns := rfl
@[simp] theorem setSlot_reports (s : State) (c i : Nat) (t : Strand) : (s.setSlot c i t).reports = s.reports := rfl
@[simp] theorem setSlot_ringHead (s : State) (c i : Nat) (t : Strand) : (s.setSlot c i t).ringHead = s.ringHead := rfl
@[simp] theorem setSlot_hostRing (s : State) (c i : Nat) (t : Strand) : (s.setSlot c i t).hostRing = s.hostRing := rfl
@[simp] theorem setSlot_msi (s : State) (c i : Nat) (t : Strand) : (s.setSlot c i t).msi = s.msi := rfl
@[simp] theorem setSlot_resvs (s : State) (c i : Nat) (t : Strand) : (s.setSlot c i t).resvs = s.resvs := rfl
@[simp] theorem setSlot_timedJobs (s : State) (c i : Nat) (t : Strand) : (s.setSlot c i t).timedJobs = s.timedJobs := rfl
@[simp] theorem setSlot_fabid (s : State) (c i : Nat) (t : Strand) : (s.setSlot c i t).fabid = s.fabid := rfl
@[simp] theorem setSlot_modReady (s : State) (c i : Nat) (t : Strand) : (s.setSlot c i t).modReady = s.modReady := rfl
@[simp] theorem setSlot_ctxtable (s : State) (c i : Nat) (t : Strand) : (s.setSlot c i t).ctxtable = s.ctxtable := rfl
@[simp] theorem setSlot_ringBase (s : State) (c i : Nat) (t : Strand) : (s.setSlot c i t).ringBase = s.ringBase := rfl
@[simp] theorem setSlot_ringSize (s : State) (c i : Nat) (t : Strand) : (s.setSlot c i t).ringSize = s.ringSize := rfl
@[simp] theorem setSlot_errBase (s : State) (c i : Nat) (t : Strand) : (s.setSlot c i t).errBase = s.errBase := rfl
@[simp] theorem setSlot_errSize (s : State) (c i : Nat) (t : Strand) : (s.setSlot c i t).errSize = s.errSize := rfl
@[simp] theorem setSlot_errlog (s : State) (c i : Nat) (t : Strand) : (s.setSlot c i t).errlog = s.errlog := rfl
@[simp] theorem setSlot_routes (s : State) (c i : Nat) (t : Strand) : (s.setSlot c i t).routes = s.routes := rfl
@[simp] theorem setSlot_portWaits (s : State) (c i : Nat) (t : Strand) : (s.setSlot c i t).portWaits = s.portWaits := rfl
@[simp] theorem setSlot_linkWaits (s : State) (c i : Nat) (t : Strand) : (s.setSlot c i t).linkWaits = s.linkWaits := rfl

/-! ## `onMe` -/

@[simp] theorem onMe_cur (s : State) (f : Strand → Strand) : (s.onMe f).cur = s.cur := rfl
@[simp] theorem onMe_subj (s : State) (f : Strand → Strand) : (s.onMe f).subj = s.subj := rfl
@[simp] theorem onMe_agenda (s : State) (f : Strand → Strand) : (s.onMe f).agenda = s.agenda := rfl
@[simp] theorem onMe_tick (s : State) (f : Strand → Strand) : (s.onMe f).tick = s.tick := rfl
@[simp] theorem onMe_last (s : State) (f : Strand → Strand) : (s.onMe f).last = s.last := rfl
@[simp] theorem onMe_nextId (s : State) (f : Strand → Strand) : (s.onMe f).nextId = s.nextId := rfl
@[simp] theorem onMe_mem (s : State) (f : Strand → Strand) : (s.onMe f).mem = s.mem := rfl
@[simp] theorem onMe_poison (s : State) (f : Strand → Strand) : (s.onMe f).poison = s.poison := rfl
@[simp] theorem onMe_devtime (s : State) (f : Strand → Strand) : (s.onMe f).devtime = s.devtime := rfl
@[simp] theorem onMe_clusters (s : State) (f : Strand → Strand) : (s.onMe f).clusters = s.clusters := rfl
@[simp] theorem onMe_dies (s : State) (f : Strand → Strand) : (s.onMe f).dies = s.dies := rfl
@[simp] theorem onMe_ports (s : State) (f : Strand → Strand) : (s.onMe f).ports = s.ports := rfl
@[simp] theorem onMe_ctxs (s : State) (f : Strand → Strand) : (s.onMe f).ctxs = s.ctxs := rfl
@[simp] theorem onMe_asids (s : State) (f : Strand → Strand) : (s.onMe f).asids = s.asids := rfl
@[simp] theorem onMe_exports (s : State) (f : Strand → Strand) : (s.onMe f).exports = s.exports := rfl
@[simp] theorem onMe_gens (s : State) (f : Strand → Strand) : (s.onMe f).gens = s.gens := rfl
@[simp] theorem onMe_tlb2 (s : State) (f : Strand → Strand) : (s.onMe f).tlb2 = s.tlb2 := rfl
@[simp] theorem onMe_rtlb (s : State) (f : Strand → Strand) : (s.onMe f).rtlb = s.rtlb := rfl
@[simp] theorem onMe_chans (s : State) (f : Strand → Strand) : (s.onMe f).chans = s.chans := rfl
@[simp] theorem onMe_elects (s : State) (f : Strand → Strand) : (s.onMe f).elects = s.elects := rfl
@[simp] theorem onMe_groups (s : State) (f : Strand → Strand) : (s.onMe f).groups = s.groups := rfl
@[simp] theorem onMe_ops (s : State) (f : Strand → Strand) : (s.onMe f).ops = s.ops := rfl
@[simp] theorem onMe_net (s : State) (f : Strand → Strand) : (s.onMe f).net = s.net := rfl
@[simp] theorem onMe_leases (s : State) (f : Strand → Strand) : (s.onMe f).leases = s.leases := rfl
@[simp] theorem onMe_fills (s : State) (f : Strand → Strand) : (s.onMe f).fills = s.fills := rfl
@[simp] theorem onMe_homeLines (s : State) (f : Strand → Strand) : (s.onMe f).homeLines = s.homeLines := rfl
@[simp] theorem onMe_monitors (s : State) (f : Strand → Strand) : (s.onMe f).monitors = s.monitors := rfl
@[simp] theorem onMe_redLines (s : State) (f : Strand → Strand) : (s.onMe f).redLines = s.redLines := rfl
@[simp] theorem onMe_permRecs (s : State) (f : Strand → Strand) : (s.onMe f).permRecs = s.permRecs := rfl
@[simp] theorem onMe_queueOwners (s : State) (f : Strand → Strand) : (s.onMe f).queueOwners = s.queueOwners := rfl
@[simp] theorem onMe_ufns (s : State) (f : Strand → Strand) : (s.onMe f).ufns = s.ufns := rfl
@[simp] theorem onMe_reports (s : State) (f : Strand → Strand) : (s.onMe f).reports = s.reports := rfl
@[simp] theorem onMe_ringHead (s : State) (f : Strand → Strand) : (s.onMe f).ringHead = s.ringHead := rfl
@[simp] theorem onMe_hostRing (s : State) (f : Strand → Strand) : (s.onMe f).hostRing = s.hostRing := rfl
@[simp] theorem onMe_msi (s : State) (f : Strand → Strand) : (s.onMe f).msi = s.msi := rfl
@[simp] theorem onMe_resvs (s : State) (f : Strand → Strand) : (s.onMe f).resvs = s.resvs := rfl
@[simp] theorem onMe_timedJobs (s : State) (f : Strand → Strand) : (s.onMe f).timedJobs = s.timedJobs := rfl
@[simp] theorem onMe_fabid (s : State) (f : Strand → Strand) : (s.onMe f).fabid = s.fabid := rfl
@[simp] theorem onMe_modReady (s : State) (f : Strand → Strand) : (s.onMe f).modReady = s.modReady := rfl
@[simp] theorem onMe_ctxtable (s : State) (f : Strand → Strand) : (s.onMe f).ctxtable = s.ctxtable := rfl
@[simp] theorem onMe_ringBase (s : State) (f : Strand → Strand) : (s.onMe f).ringBase = s.ringBase := rfl
@[simp] theorem onMe_ringSize (s : State) (f : Strand → Strand) : (s.onMe f).ringSize = s.ringSize := rfl
@[simp] theorem onMe_errBase (s : State) (f : Strand → Strand) : (s.onMe f).errBase = s.errBase := rfl
@[simp] theorem onMe_errSize (s : State) (f : Strand → Strand) : (s.onMe f).errSize = s.errSize := rfl
@[simp] theorem onMe_errlog (s : State) (f : Strand → Strand) : (s.onMe f).errlog = s.errlog := rfl
@[simp] theorem onMe_routes (s : State) (f : Strand → Strand) : (s.onMe f).routes = s.routes := rfl
@[simp] theorem onMe_portWaits (s : State) (f : Strand → Strand) : (s.onMe f).portWaits = s.portWaits := rfl
@[simp] theorem onMe_linkWaits (s : State) (f : Strand → Strand) : (s.onMe f).linkWaits = s.linkWaits := rfl

/-! ## `onCluster` -/

@[simp] theorem onCluster_cur (s : State) (g : Nat) (f : Cluster → Cluster) : (s.onCluster g f).cur = s.cur := rfl
@[simp] theorem onCluster_subj (s : State) (g : Nat) (f : Cluster → Cluster) : (s.onCluster g f).subj = s.subj := rfl
@[simp] theorem onCluster_agenda (s : State) (g : Nat) (f : Cluster → Cluster) : (s.onCluster g f).agenda = s.agenda := rfl
@[simp] theorem onCluster_tick (s : State) (g : Nat) (f : Cluster → Cluster) : (s.onCluster g f).tick = s.tick := rfl
@[simp] theorem onCluster_last (s : State) (g : Nat) (f : Cluster → Cluster) : (s.onCluster g f).last = s.last := rfl
@[simp] theorem onCluster_nextId (s : State) (g : Nat) (f : Cluster → Cluster) : (s.onCluster g f).nextId = s.nextId := rfl
@[simp] theorem onCluster_mem (s : State) (g : Nat) (f : Cluster → Cluster) : (s.onCluster g f).mem = s.mem := rfl
@[simp] theorem onCluster_poison (s : State) (g : Nat) (f : Cluster → Cluster) : (s.onCluster g f).poison = s.poison := rfl
@[simp] theorem onCluster_devtime (s : State) (g : Nat) (f : Cluster → Cluster) : (s.onCluster g f).devtime = s.devtime := rfl
@[simp] theorem onCluster_cores (s : State) (g : Nat) (f : Cluster → Cluster) : (s.onCluster g f).cores = s.cores := rfl
@[simp] theorem onCluster_dies (s : State) (g : Nat) (f : Cluster → Cluster) : (s.onCluster g f).dies = s.dies := rfl
@[simp] theorem onCluster_ports (s : State) (g : Nat) (f : Cluster → Cluster) : (s.onCluster g f).ports = s.ports := rfl
@[simp] theorem onCluster_ctxs (s : State) (g : Nat) (f : Cluster → Cluster) : (s.onCluster g f).ctxs = s.ctxs := rfl
@[simp] theorem onCluster_asids (s : State) (g : Nat) (f : Cluster → Cluster) : (s.onCluster g f).asids = s.asids := rfl
@[simp] theorem onCluster_exports (s : State) (g : Nat) (f : Cluster → Cluster) : (s.onCluster g f).exports = s.exports := rfl
@[simp] theorem onCluster_gens (s : State) (g : Nat) (f : Cluster → Cluster) : (s.onCluster g f).gens = s.gens := rfl
@[simp] theorem onCluster_tlb2 (s : State) (g : Nat) (f : Cluster → Cluster) : (s.onCluster g f).tlb2 = s.tlb2 := rfl
@[simp] theorem onCluster_rtlb (s : State) (g : Nat) (f : Cluster → Cluster) : (s.onCluster g f).rtlb = s.rtlb := rfl
@[simp] theorem onCluster_chans (s : State) (g : Nat) (f : Cluster → Cluster) : (s.onCluster g f).chans = s.chans := rfl
@[simp] theorem onCluster_elects (s : State) (g : Nat) (f : Cluster → Cluster) : (s.onCluster g f).elects = s.elects := rfl
@[simp] theorem onCluster_groups (s : State) (g : Nat) (f : Cluster → Cluster) : (s.onCluster g f).groups = s.groups := rfl
@[simp] theorem onCluster_ops (s : State) (g : Nat) (f : Cluster → Cluster) : (s.onCluster g f).ops = s.ops := rfl
@[simp] theorem onCluster_net (s : State) (g : Nat) (f : Cluster → Cluster) : (s.onCluster g f).net = s.net := rfl
@[simp] theorem onCluster_leases (s : State) (g : Nat) (f : Cluster → Cluster) : (s.onCluster g f).leases = s.leases := rfl
@[simp] theorem onCluster_fills (s : State) (g : Nat) (f : Cluster → Cluster) : (s.onCluster g f).fills = s.fills := rfl
@[simp] theorem onCluster_homeLines (s : State) (g : Nat) (f : Cluster → Cluster) : (s.onCluster g f).homeLines = s.homeLines := rfl
@[simp] theorem onCluster_monitors (s : State) (g : Nat) (f : Cluster → Cluster) : (s.onCluster g f).monitors = s.monitors := rfl
@[simp] theorem onCluster_redLines (s : State) (g : Nat) (f : Cluster → Cluster) : (s.onCluster g f).redLines = s.redLines := rfl
@[simp] theorem onCluster_permRecs (s : State) (g : Nat) (f : Cluster → Cluster) : (s.onCluster g f).permRecs = s.permRecs := rfl
@[simp] theorem onCluster_queueOwners (s : State) (g : Nat) (f : Cluster → Cluster) : (s.onCluster g f).queueOwners = s.queueOwners := rfl
@[simp] theorem onCluster_ufns (s : State) (g : Nat) (f : Cluster → Cluster) : (s.onCluster g f).ufns = s.ufns := rfl
@[simp] theorem onCluster_reports (s : State) (g : Nat) (f : Cluster → Cluster) : (s.onCluster g f).reports = s.reports := rfl
@[simp] theorem onCluster_ringHead (s : State) (g : Nat) (f : Cluster → Cluster) : (s.onCluster g f).ringHead = s.ringHead := rfl
@[simp] theorem onCluster_hostRing (s : State) (g : Nat) (f : Cluster → Cluster) : (s.onCluster g f).hostRing = s.hostRing := rfl
@[simp] theorem onCluster_msi (s : State) (g : Nat) (f : Cluster → Cluster) : (s.onCluster g f).msi = s.msi := rfl
@[simp] theorem onCluster_resvs (s : State) (g : Nat) (f : Cluster → Cluster) : (s.onCluster g f).resvs = s.resvs := rfl
@[simp] theorem onCluster_timedJobs (s : State) (g : Nat) (f : Cluster → Cluster) : (s.onCluster g f).timedJobs = s.timedJobs := rfl
@[simp] theorem onCluster_fabid (s : State) (g : Nat) (f : Cluster → Cluster) : (s.onCluster g f).fabid = s.fabid := rfl
@[simp] theorem onCluster_modReady (s : State) (g : Nat) (f : Cluster → Cluster) : (s.onCluster g f).modReady = s.modReady := rfl
@[simp] theorem onCluster_ctxtable (s : State) (g : Nat) (f : Cluster → Cluster) : (s.onCluster g f).ctxtable = s.ctxtable := rfl
@[simp] theorem onCluster_ringBase (s : State) (g : Nat) (f : Cluster → Cluster) : (s.onCluster g f).ringBase = s.ringBase := rfl
@[simp] theorem onCluster_ringSize (s : State) (g : Nat) (f : Cluster → Cluster) : (s.onCluster g f).ringSize = s.ringSize := rfl
@[simp] theorem onCluster_errBase (s : State) (g : Nat) (f : Cluster → Cluster) : (s.onCluster g f).errBase = s.errBase := rfl
@[simp] theorem onCluster_errSize (s : State) (g : Nat) (f : Cluster → Cluster) : (s.onCluster g f).errSize = s.errSize := rfl
@[simp] theorem onCluster_errlog (s : State) (g : Nat) (f : Cluster → Cluster) : (s.onCluster g f).errlog = s.errlog := rfl
@[simp] theorem onCluster_routes (s : State) (g : Nat) (f : Cluster → Cluster) : (s.onCluster g f).routes = s.routes := rfl
@[simp] theorem onCluster_portWaits (s : State) (g : Nat) (f : Cluster → Cluster) : (s.onCluster g f).portWaits = s.portWaits := rfl
@[simp] theorem onCluster_linkWaits (s : State) (g : Nat) (f : Cluster → Cluster) : (s.onCluster g f).linkWaits = s.linkWaits := rfl

/-! ## `onDie` -/

@[simp] theorem onDie_cur (s : State) (d : Nat) (f : Die → Die) : (s.onDie d f).cur = s.cur := rfl
@[simp] theorem onDie_subj (s : State) (d : Nat) (f : Die → Die) : (s.onDie d f).subj = s.subj := rfl
@[simp] theorem onDie_agenda (s : State) (d : Nat) (f : Die → Die) : (s.onDie d f).agenda = s.agenda := rfl
@[simp] theorem onDie_tick (s : State) (d : Nat) (f : Die → Die) : (s.onDie d f).tick = s.tick := rfl
@[simp] theorem onDie_last (s : State) (d : Nat) (f : Die → Die) : (s.onDie d f).last = s.last := rfl
@[simp] theorem onDie_nextId (s : State) (d : Nat) (f : Die → Die) : (s.onDie d f).nextId = s.nextId := rfl
@[simp] theorem onDie_mem (s : State) (d : Nat) (f : Die → Die) : (s.onDie d f).mem = s.mem := rfl
@[simp] theorem onDie_poison (s : State) (d : Nat) (f : Die → Die) : (s.onDie d f).poison = s.poison := rfl
@[simp] theorem onDie_devtime (s : State) (d : Nat) (f : Die → Die) : (s.onDie d f).devtime = s.devtime := rfl
@[simp] theorem onDie_cores (s : State) (d : Nat) (f : Die → Die) : (s.onDie d f).cores = s.cores := rfl
@[simp] theorem onDie_clusters (s : State) (d : Nat) (f : Die → Die) : (s.onDie d f).clusters = s.clusters := rfl
@[simp] theorem onDie_ports (s : State) (d : Nat) (f : Die → Die) : (s.onDie d f).ports = s.ports := rfl
@[simp] theorem onDie_ctxs (s : State) (d : Nat) (f : Die → Die) : (s.onDie d f).ctxs = s.ctxs := rfl
@[simp] theorem onDie_asids (s : State) (d : Nat) (f : Die → Die) : (s.onDie d f).asids = s.asids := rfl
@[simp] theorem onDie_exports (s : State) (d : Nat) (f : Die → Die) : (s.onDie d f).exports = s.exports := rfl
@[simp] theorem onDie_gens (s : State) (d : Nat) (f : Die → Die) : (s.onDie d f).gens = s.gens := rfl
@[simp] theorem onDie_tlb2 (s : State) (d : Nat) (f : Die → Die) : (s.onDie d f).tlb2 = s.tlb2 := rfl
@[simp] theorem onDie_rtlb (s : State) (d : Nat) (f : Die → Die) : (s.onDie d f).rtlb = s.rtlb := rfl
@[simp] theorem onDie_chans (s : State) (d : Nat) (f : Die → Die) : (s.onDie d f).chans = s.chans := rfl
@[simp] theorem onDie_elects (s : State) (d : Nat) (f : Die → Die) : (s.onDie d f).elects = s.elects := rfl
@[simp] theorem onDie_groups (s : State) (d : Nat) (f : Die → Die) : (s.onDie d f).groups = s.groups := rfl
@[simp] theorem onDie_ops (s : State) (d : Nat) (f : Die → Die) : (s.onDie d f).ops = s.ops := rfl
@[simp] theorem onDie_net (s : State) (d : Nat) (f : Die → Die) : (s.onDie d f).net = s.net := rfl
@[simp] theorem onDie_leases (s : State) (d : Nat) (f : Die → Die) : (s.onDie d f).leases = s.leases := rfl
@[simp] theorem onDie_fills (s : State) (d : Nat) (f : Die → Die) : (s.onDie d f).fills = s.fills := rfl
@[simp] theorem onDie_homeLines (s : State) (d : Nat) (f : Die → Die) : (s.onDie d f).homeLines = s.homeLines := rfl
@[simp] theorem onDie_monitors (s : State) (d : Nat) (f : Die → Die) : (s.onDie d f).monitors = s.monitors := rfl
@[simp] theorem onDie_redLines (s : State) (d : Nat) (f : Die → Die) : (s.onDie d f).redLines = s.redLines := rfl
@[simp] theorem onDie_permRecs (s : State) (d : Nat) (f : Die → Die) : (s.onDie d f).permRecs = s.permRecs := rfl
@[simp] theorem onDie_queueOwners (s : State) (d : Nat) (f : Die → Die) : (s.onDie d f).queueOwners = s.queueOwners := rfl
@[simp] theorem onDie_ufns (s : State) (d : Nat) (f : Die → Die) : (s.onDie d f).ufns = s.ufns := rfl
@[simp] theorem onDie_reports (s : State) (d : Nat) (f : Die → Die) : (s.onDie d f).reports = s.reports := rfl
@[simp] theorem onDie_ringHead (s : State) (d : Nat) (f : Die → Die) : (s.onDie d f).ringHead = s.ringHead := rfl
@[simp] theorem onDie_hostRing (s : State) (d : Nat) (f : Die → Die) : (s.onDie d f).hostRing = s.hostRing := rfl
@[simp] theorem onDie_msi (s : State) (d : Nat) (f : Die → Die) : (s.onDie d f).msi = s.msi := rfl
@[simp] theorem onDie_resvs (s : State) (d : Nat) (f : Die → Die) : (s.onDie d f).resvs = s.resvs := rfl
@[simp] theorem onDie_timedJobs (s : State) (d : Nat) (f : Die → Die) : (s.onDie d f).timedJobs = s.timedJobs := rfl
@[simp] theorem onDie_fabid (s : State) (d : Nat) (f : Die → Die) : (s.onDie d f).fabid = s.fabid := rfl
@[simp] theorem onDie_modReady (s : State) (d : Nat) (f : Die → Die) : (s.onDie d f).modReady = s.modReady := rfl
@[simp] theorem onDie_ctxtable (s : State) (d : Nat) (f : Die → Die) : (s.onDie d f).ctxtable = s.ctxtable := rfl
@[simp] theorem onDie_ringBase (s : State) (d : Nat) (f : Die → Die) : (s.onDie d f).ringBase = s.ringBase := rfl
@[simp] theorem onDie_ringSize (s : State) (d : Nat) (f : Die → Die) : (s.onDie d f).ringSize = s.ringSize := rfl
@[simp] theorem onDie_errBase (s : State) (d : Nat) (f : Die → Die) : (s.onDie d f).errBase = s.errBase := rfl
@[simp] theorem onDie_errSize (s : State) (d : Nat) (f : Die → Die) : (s.onDie d f).errSize = s.errSize := rfl
@[simp] theorem onDie_errlog (s : State) (d : Nat) (f : Die → Die) : (s.onDie d f).errlog = s.errlog := rfl
@[simp] theorem onDie_routes (s : State) (d : Nat) (f : Die → Die) : (s.onDie d f).routes = s.routes := rfl
@[simp] theorem onDie_portWaits (s : State) (d : Nat) (f : Die → Die) : (s.onDie d f).portWaits = s.portWaits := rfl
@[simp] theorem onDie_linkWaits (s : State) (d : Nat) (f : Die → Die) : (s.onDie d f).linkWaits = s.linkWaits := rfl

/-! ## `onCtx` -/

@[simp] theorem onCtx_cur (s : State) (x : Nat) (f : Ctx → Ctx) : (s.onCtx x f).cur = s.cur := rfl
@[simp] theorem onCtx_subj (s : State) (x : Nat) (f : Ctx → Ctx) : (s.onCtx x f).subj = s.subj := rfl
@[simp] theorem onCtx_agenda (s : State) (x : Nat) (f : Ctx → Ctx) : (s.onCtx x f).agenda = s.agenda := rfl
@[simp] theorem onCtx_tick (s : State) (x : Nat) (f : Ctx → Ctx) : (s.onCtx x f).tick = s.tick := rfl
@[simp] theorem onCtx_last (s : State) (x : Nat) (f : Ctx → Ctx) : (s.onCtx x f).last = s.last := rfl
@[simp] theorem onCtx_nextId (s : State) (x : Nat) (f : Ctx → Ctx) : (s.onCtx x f).nextId = s.nextId := rfl
@[simp] theorem onCtx_mem (s : State) (x : Nat) (f : Ctx → Ctx) : (s.onCtx x f).mem = s.mem := rfl
@[simp] theorem onCtx_poison (s : State) (x : Nat) (f : Ctx → Ctx) : (s.onCtx x f).poison = s.poison := rfl
@[simp] theorem onCtx_devtime (s : State) (x : Nat) (f : Ctx → Ctx) : (s.onCtx x f).devtime = s.devtime := rfl
@[simp] theorem onCtx_cores (s : State) (x : Nat) (f : Ctx → Ctx) : (s.onCtx x f).cores = s.cores := rfl
@[simp] theorem onCtx_clusters (s : State) (x : Nat) (f : Ctx → Ctx) : (s.onCtx x f).clusters = s.clusters := rfl
@[simp] theorem onCtx_dies (s : State) (x : Nat) (f : Ctx → Ctx) : (s.onCtx x f).dies = s.dies := rfl
@[simp] theorem onCtx_ports (s : State) (x : Nat) (f : Ctx → Ctx) : (s.onCtx x f).ports = s.ports := rfl
@[simp] theorem onCtx_asids (s : State) (x : Nat) (f : Ctx → Ctx) : (s.onCtx x f).asids = s.asids := rfl
@[simp] theorem onCtx_exports (s : State) (x : Nat) (f : Ctx → Ctx) : (s.onCtx x f).exports = s.exports := rfl
@[simp] theorem onCtx_gens (s : State) (x : Nat) (f : Ctx → Ctx) : (s.onCtx x f).gens = s.gens := rfl
@[simp] theorem onCtx_tlb2 (s : State) (x : Nat) (f : Ctx → Ctx) : (s.onCtx x f).tlb2 = s.tlb2 := rfl
@[simp] theorem onCtx_rtlb (s : State) (x : Nat) (f : Ctx → Ctx) : (s.onCtx x f).rtlb = s.rtlb := rfl
@[simp] theorem onCtx_chans (s : State) (x : Nat) (f : Ctx → Ctx) : (s.onCtx x f).chans = s.chans := rfl
@[simp] theorem onCtx_elects (s : State) (x : Nat) (f : Ctx → Ctx) : (s.onCtx x f).elects = s.elects := rfl
@[simp] theorem onCtx_groups (s : State) (x : Nat) (f : Ctx → Ctx) : (s.onCtx x f).groups = s.groups := rfl
@[simp] theorem onCtx_ops (s : State) (x : Nat) (f : Ctx → Ctx) : (s.onCtx x f).ops = s.ops := rfl
@[simp] theorem onCtx_net (s : State) (x : Nat) (f : Ctx → Ctx) : (s.onCtx x f).net = s.net := rfl
@[simp] theorem onCtx_leases (s : State) (x : Nat) (f : Ctx → Ctx) : (s.onCtx x f).leases = s.leases := rfl
@[simp] theorem onCtx_fills (s : State) (x : Nat) (f : Ctx → Ctx) : (s.onCtx x f).fills = s.fills := rfl
@[simp] theorem onCtx_homeLines (s : State) (x : Nat) (f : Ctx → Ctx) : (s.onCtx x f).homeLines = s.homeLines := rfl
@[simp] theorem onCtx_monitors (s : State) (x : Nat) (f : Ctx → Ctx) : (s.onCtx x f).monitors = s.monitors := rfl
@[simp] theorem onCtx_redLines (s : State) (x : Nat) (f : Ctx → Ctx) : (s.onCtx x f).redLines = s.redLines := rfl
@[simp] theorem onCtx_permRecs (s : State) (x : Nat) (f : Ctx → Ctx) : (s.onCtx x f).permRecs = s.permRecs := rfl
@[simp] theorem onCtx_queueOwners (s : State) (x : Nat) (f : Ctx → Ctx) : (s.onCtx x f).queueOwners = s.queueOwners := rfl
@[simp] theorem onCtx_ufns (s : State) (x : Nat) (f : Ctx → Ctx) : (s.onCtx x f).ufns = s.ufns := rfl
@[simp] theorem onCtx_reports (s : State) (x : Nat) (f : Ctx → Ctx) : (s.onCtx x f).reports = s.reports := rfl
@[simp] theorem onCtx_ringHead (s : State) (x : Nat) (f : Ctx → Ctx) : (s.onCtx x f).ringHead = s.ringHead := rfl
@[simp] theorem onCtx_hostRing (s : State) (x : Nat) (f : Ctx → Ctx) : (s.onCtx x f).hostRing = s.hostRing := rfl
@[simp] theorem onCtx_msi (s : State) (x : Nat) (f : Ctx → Ctx) : (s.onCtx x f).msi = s.msi := rfl
@[simp] theorem onCtx_resvs (s : State) (x : Nat) (f : Ctx → Ctx) : (s.onCtx x f).resvs = s.resvs := rfl
@[simp] theorem onCtx_timedJobs (s : State) (x : Nat) (f : Ctx → Ctx) : (s.onCtx x f).timedJobs = s.timedJobs := rfl
@[simp] theorem onCtx_fabid (s : State) (x : Nat) (f : Ctx → Ctx) : (s.onCtx x f).fabid = s.fabid := rfl
@[simp] theorem onCtx_modReady (s : State) (x : Nat) (f : Ctx → Ctx) : (s.onCtx x f).modReady = s.modReady := rfl
@[simp] theorem onCtx_ctxtable (s : State) (x : Nat) (f : Ctx → Ctx) : (s.onCtx x f).ctxtable = s.ctxtable := rfl
@[simp] theorem onCtx_ringBase (s : State) (x : Nat) (f : Ctx → Ctx) : (s.onCtx x f).ringBase = s.ringBase := rfl
@[simp] theorem onCtx_ringSize (s : State) (x : Nat) (f : Ctx → Ctx) : (s.onCtx x f).ringSize = s.ringSize := rfl
@[simp] theorem onCtx_errBase (s : State) (x : Nat) (f : Ctx → Ctx) : (s.onCtx x f).errBase = s.errBase := rfl
@[simp] theorem onCtx_errSize (s : State) (x : Nat) (f : Ctx → Ctx) : (s.onCtx x f).errSize = s.errSize := rfl
@[simp] theorem onCtx_errlog (s : State) (x : Nat) (f : Ctx → Ctx) : (s.onCtx x f).errlog = s.errlog := rfl
@[simp] theorem onCtx_routes (s : State) (x : Nat) (f : Ctx → Ctx) : (s.onCtx x f).routes = s.routes := rfl
@[simp] theorem onCtx_portWaits (s : State) (x : Nat) (f : Ctx → Ctx) : (s.onCtx x f).portWaits = s.portWaits := rfl
@[simp] theorem onCtx_linkWaits (s : State) (x : Nat) (f : Ctx → Ctx) : (s.onCtx x f).linkWaits = s.linkWaits := rfl

/-! ## `onChan` -/

@[simp] theorem onChan_cur (s : State) (c : Nat) (f : IChan → IChan) : (s.onChan c f).cur = s.cur := rfl
@[simp] theorem onChan_subj (s : State) (c : Nat) (f : IChan → IChan) : (s.onChan c f).subj = s.subj := rfl
@[simp] theorem onChan_agenda (s : State) (c : Nat) (f : IChan → IChan) : (s.onChan c f).agenda = s.agenda := rfl
@[simp] theorem onChan_tick (s : State) (c : Nat) (f : IChan → IChan) : (s.onChan c f).tick = s.tick := rfl
@[simp] theorem onChan_last (s : State) (c : Nat) (f : IChan → IChan) : (s.onChan c f).last = s.last := rfl
@[simp] theorem onChan_nextId (s : State) (c : Nat) (f : IChan → IChan) : (s.onChan c f).nextId = s.nextId := rfl
@[simp] theorem onChan_mem (s : State) (c : Nat) (f : IChan → IChan) : (s.onChan c f).mem = s.mem := rfl
@[simp] theorem onChan_poison (s : State) (c : Nat) (f : IChan → IChan) : (s.onChan c f).poison = s.poison := rfl
@[simp] theorem onChan_devtime (s : State) (c : Nat) (f : IChan → IChan) : (s.onChan c f).devtime = s.devtime := rfl
@[simp] theorem onChan_cores (s : State) (c : Nat) (f : IChan → IChan) : (s.onChan c f).cores = s.cores := rfl
@[simp] theorem onChan_clusters (s : State) (c : Nat) (f : IChan → IChan) : (s.onChan c f).clusters = s.clusters := rfl
@[simp] theorem onChan_dies (s : State) (c : Nat) (f : IChan → IChan) : (s.onChan c f).dies = s.dies := rfl
@[simp] theorem onChan_ports (s : State) (c : Nat) (f : IChan → IChan) : (s.onChan c f).ports = s.ports := rfl
@[simp] theorem onChan_ctxs (s : State) (c : Nat) (f : IChan → IChan) : (s.onChan c f).ctxs = s.ctxs := rfl
@[simp] theorem onChan_asids (s : State) (c : Nat) (f : IChan → IChan) : (s.onChan c f).asids = s.asids := rfl
@[simp] theorem onChan_exports (s : State) (c : Nat) (f : IChan → IChan) : (s.onChan c f).exports = s.exports := rfl
@[simp] theorem onChan_gens (s : State) (c : Nat) (f : IChan → IChan) : (s.onChan c f).gens = s.gens := rfl
@[simp] theorem onChan_tlb2 (s : State) (c : Nat) (f : IChan → IChan) : (s.onChan c f).tlb2 = s.tlb2 := rfl
@[simp] theorem onChan_rtlb (s : State) (c : Nat) (f : IChan → IChan) : (s.onChan c f).rtlb = s.rtlb := rfl
@[simp] theorem onChan_elects (s : State) (c : Nat) (f : IChan → IChan) : (s.onChan c f).elects = s.elects := rfl
@[simp] theorem onChan_groups (s : State) (c : Nat) (f : IChan → IChan) : (s.onChan c f).groups = s.groups := rfl
@[simp] theorem onChan_ops (s : State) (c : Nat) (f : IChan → IChan) : (s.onChan c f).ops = s.ops := rfl
@[simp] theorem onChan_net (s : State) (c : Nat) (f : IChan → IChan) : (s.onChan c f).net = s.net := rfl
@[simp] theorem onChan_leases (s : State) (c : Nat) (f : IChan → IChan) : (s.onChan c f).leases = s.leases := rfl
@[simp] theorem onChan_fills (s : State) (c : Nat) (f : IChan → IChan) : (s.onChan c f).fills = s.fills := rfl
@[simp] theorem onChan_homeLines (s : State) (c : Nat) (f : IChan → IChan) : (s.onChan c f).homeLines = s.homeLines := rfl
@[simp] theorem onChan_monitors (s : State) (c : Nat) (f : IChan → IChan) : (s.onChan c f).monitors = s.monitors := rfl
@[simp] theorem onChan_redLines (s : State) (c : Nat) (f : IChan → IChan) : (s.onChan c f).redLines = s.redLines := rfl
@[simp] theorem onChan_permRecs (s : State) (c : Nat) (f : IChan → IChan) : (s.onChan c f).permRecs = s.permRecs := rfl
@[simp] theorem onChan_queueOwners (s : State) (c : Nat) (f : IChan → IChan) : (s.onChan c f).queueOwners = s.queueOwners := rfl
@[simp] theorem onChan_ufns (s : State) (c : Nat) (f : IChan → IChan) : (s.onChan c f).ufns = s.ufns := rfl
@[simp] theorem onChan_reports (s : State) (c : Nat) (f : IChan → IChan) : (s.onChan c f).reports = s.reports := rfl
@[simp] theorem onChan_ringHead (s : State) (c : Nat) (f : IChan → IChan) : (s.onChan c f).ringHead = s.ringHead := rfl
@[simp] theorem onChan_hostRing (s : State) (c : Nat) (f : IChan → IChan) : (s.onChan c f).hostRing = s.hostRing := rfl
@[simp] theorem onChan_msi (s : State) (c : Nat) (f : IChan → IChan) : (s.onChan c f).msi = s.msi := rfl
@[simp] theorem onChan_resvs (s : State) (c : Nat) (f : IChan → IChan) : (s.onChan c f).resvs = s.resvs := rfl
@[simp] theorem onChan_timedJobs (s : State) (c : Nat) (f : IChan → IChan) : (s.onChan c f).timedJobs = s.timedJobs := rfl
@[simp] theorem onChan_fabid (s : State) (c : Nat) (f : IChan → IChan) : (s.onChan c f).fabid = s.fabid := rfl
@[simp] theorem onChan_modReady (s : State) (c : Nat) (f : IChan → IChan) : (s.onChan c f).modReady = s.modReady := rfl
@[simp] theorem onChan_ctxtable (s : State) (c : Nat) (f : IChan → IChan) : (s.onChan c f).ctxtable = s.ctxtable := rfl
@[simp] theorem onChan_ringBase (s : State) (c : Nat) (f : IChan → IChan) : (s.onChan c f).ringBase = s.ringBase := rfl
@[simp] theorem onChan_ringSize (s : State) (c : Nat) (f : IChan → IChan) : (s.onChan c f).ringSize = s.ringSize := rfl
@[simp] theorem onChan_errBase (s : State) (c : Nat) (f : IChan → IChan) : (s.onChan c f).errBase = s.errBase := rfl
@[simp] theorem onChan_errSize (s : State) (c : Nat) (f : IChan → IChan) : (s.onChan c f).errSize = s.errSize := rfl
@[simp] theorem onChan_errlog (s : State) (c : Nat) (f : IChan → IChan) : (s.onChan c f).errlog = s.errlog := rfl
@[simp] theorem onChan_routes (s : State) (c : Nat) (f : IChan → IChan) : (s.onChan c f).routes = s.routes := rfl
@[simp] theorem onChan_portWaits (s : State) (c : Nat) (f : IChan → IChan) : (s.onChan c f).portWaits = s.portWaits := rfl
@[simp] theorem onChan_linkWaits (s : State) (c : Nat) (f : IChan → IChan) : (s.onChan c f).linkWaits = s.linkWaits := rfl

/-! ## `fresh` -/

@[simp] theorem fresh_cur (s : State) : s.fresh.cur = s.cur := rfl
@[simp] theorem fresh_subj (s : State) : s.fresh.subj = s.subj := rfl
@[simp] theorem fresh_agenda (s : State) : s.fresh.agenda = s.agenda := rfl
@[simp] theorem fresh_tick (s : State) : s.fresh.tick = s.tick := rfl
@[simp] theorem fresh_last (s : State) : s.fresh.last = s.last := rfl
@[simp] theorem fresh_mem (s : State) : s.fresh.mem = s.mem := rfl
@[simp] theorem fresh_poison (s : State) : s.fresh.poison = s.poison := rfl
@[simp] theorem fresh_devtime (s : State) : s.fresh.devtime = s.devtime := rfl
@[simp] theorem fresh_cores (s : State) : s.fresh.cores = s.cores := rfl
@[simp] theorem fresh_clusters (s : State) : s.fresh.clusters = s.clusters := rfl
@[simp] theorem fresh_dies (s : State) : s.fresh.dies = s.dies := rfl
@[simp] theorem fresh_ports (s : State) : s.fresh.ports = s.ports := rfl
@[simp] theorem fresh_ctxs (s : State) : s.fresh.ctxs = s.ctxs := rfl
@[simp] theorem fresh_asids (s : State) : s.fresh.asids = s.asids := rfl
@[simp] theorem fresh_exports (s : State) : s.fresh.exports = s.exports := rfl
@[simp] theorem fresh_gens (s : State) : s.fresh.gens = s.gens := rfl
@[simp] theorem fresh_tlb2 (s : State) : s.fresh.tlb2 = s.tlb2 := rfl
@[simp] theorem fresh_rtlb (s : State) : s.fresh.rtlb = s.rtlb := rfl
@[simp] theorem fresh_chans (s : State) : s.fresh.chans = s.chans := rfl
@[simp] theorem fresh_elects (s : State) : s.fresh.elects = s.elects := rfl
@[simp] theorem fresh_groups (s : State) : s.fresh.groups = s.groups := rfl
@[simp] theorem fresh_ops (s : State) : s.fresh.ops = s.ops := rfl
@[simp] theorem fresh_net (s : State) : s.fresh.net = s.net := rfl
@[simp] theorem fresh_leases (s : State) : s.fresh.leases = s.leases := rfl
@[simp] theorem fresh_fills (s : State) : s.fresh.fills = s.fills := rfl
@[simp] theorem fresh_homeLines (s : State) : s.fresh.homeLines = s.homeLines := rfl
@[simp] theorem fresh_monitors (s : State) : s.fresh.monitors = s.monitors := rfl
@[simp] theorem fresh_redLines (s : State) : s.fresh.redLines = s.redLines := rfl
@[simp] theorem fresh_permRecs (s : State) : s.fresh.permRecs = s.permRecs := rfl
@[simp] theorem fresh_queueOwners (s : State) : s.fresh.queueOwners = s.queueOwners := rfl
@[simp] theorem fresh_ufns (s : State) : s.fresh.ufns = s.ufns := rfl
@[simp] theorem fresh_reports (s : State) : s.fresh.reports = s.reports := rfl
@[simp] theorem fresh_ringHead (s : State) : s.fresh.ringHead = s.ringHead := rfl
@[simp] theorem fresh_hostRing (s : State) : s.fresh.hostRing = s.hostRing := rfl
@[simp] theorem fresh_msi (s : State) : s.fresh.msi = s.msi := rfl
@[simp] theorem fresh_resvs (s : State) : s.fresh.resvs = s.resvs := rfl
@[simp] theorem fresh_timedJobs (s : State) : s.fresh.timedJobs = s.timedJobs := rfl
@[simp] theorem fresh_fabid (s : State) : s.fresh.fabid = s.fabid := rfl
@[simp] theorem fresh_modReady (s : State) : s.fresh.modReady = s.modReady := rfl
@[simp] theorem fresh_ctxtable (s : State) : s.fresh.ctxtable = s.ctxtable := rfl
@[simp] theorem fresh_ringBase (s : State) : s.fresh.ringBase = s.ringBase := rfl
@[simp] theorem fresh_ringSize (s : State) : s.fresh.ringSize = s.ringSize := rfl
@[simp] theorem fresh_errBase (s : State) : s.fresh.errBase = s.errBase := rfl
@[simp] theorem fresh_errSize (s : State) : s.fresh.errSize = s.errSize := rfl
@[simp] theorem fresh_errlog (s : State) : s.fresh.errlog = s.errlog := rfl
@[simp] theorem fresh_routes (s : State) : s.fresh.routes = s.routes := rfl
@[simp] theorem fresh_portWaits (s : State) : s.fresh.portWaits = s.portWaits := rfl
@[simp] theorem fresh_linkWaits (s : State) : s.fresh.linkWaits = s.linkWaits := rfl

/-! ## `withLast` -/

@[simp] theorem withLast_cur (s : State) (l : Last) : (s.withLast l).cur = s.cur := rfl
@[simp] theorem withLast_subj (s : State) (l : Last) : (s.withLast l).subj = s.subj := rfl
@[simp] theorem withLast_agenda (s : State) (l : Last) : (s.withLast l).agenda = s.agenda := rfl
@[simp] theorem withLast_tick (s : State) (l : Last) : (s.withLast l).tick = s.tick := rfl
@[simp] theorem withLast_nextId (s : State) (l : Last) : (s.withLast l).nextId = s.nextId := rfl
@[simp] theorem withLast_mem (s : State) (l : Last) : (s.withLast l).mem = s.mem := rfl
@[simp] theorem withLast_poison (s : State) (l : Last) : (s.withLast l).poison = s.poison := rfl
@[simp] theorem withLast_devtime (s : State) (l : Last) : (s.withLast l).devtime = s.devtime := rfl
@[simp] theorem withLast_cores (s : State) (l : Last) : (s.withLast l).cores = s.cores := rfl
@[simp] theorem withLast_clusters (s : State) (l : Last) : (s.withLast l).clusters = s.clusters := rfl
@[simp] theorem withLast_dies (s : State) (l : Last) : (s.withLast l).dies = s.dies := rfl
@[simp] theorem withLast_ports (s : State) (l : Last) : (s.withLast l).ports = s.ports := rfl
@[simp] theorem withLast_ctxs (s : State) (l : Last) : (s.withLast l).ctxs = s.ctxs := rfl
@[simp] theorem withLast_asids (s : State) (l : Last) : (s.withLast l).asids = s.asids := rfl
@[simp] theorem withLast_exports (s : State) (l : Last) : (s.withLast l).exports = s.exports := rfl
@[simp] theorem withLast_gens (s : State) (l : Last) : (s.withLast l).gens = s.gens := rfl
@[simp] theorem withLast_tlb2 (s : State) (l : Last) : (s.withLast l).tlb2 = s.tlb2 := rfl
@[simp] theorem withLast_rtlb (s : State) (l : Last) : (s.withLast l).rtlb = s.rtlb := rfl
@[simp] theorem withLast_chans (s : State) (l : Last) : (s.withLast l).chans = s.chans := rfl
@[simp] theorem withLast_elects (s : State) (l : Last) : (s.withLast l).elects = s.elects := rfl
@[simp] theorem withLast_groups (s : State) (l : Last) : (s.withLast l).groups = s.groups := rfl
@[simp] theorem withLast_ops (s : State) (l : Last) : (s.withLast l).ops = s.ops := rfl
@[simp] theorem withLast_net (s : State) (l : Last) : (s.withLast l).net = s.net := rfl
@[simp] theorem withLast_leases (s : State) (l : Last) : (s.withLast l).leases = s.leases := rfl
@[simp] theorem withLast_fills (s : State) (l : Last) : (s.withLast l).fills = s.fills := rfl
@[simp] theorem withLast_homeLines (s : State) (l : Last) : (s.withLast l).homeLines = s.homeLines := rfl
@[simp] theorem withLast_monitors (s : State) (l : Last) : (s.withLast l).monitors = s.monitors := rfl
@[simp] theorem withLast_redLines (s : State) (l : Last) : (s.withLast l).redLines = s.redLines := rfl
@[simp] theorem withLast_permRecs (s : State) (l : Last) : (s.withLast l).permRecs = s.permRecs := rfl
@[simp] theorem withLast_queueOwners (s : State) (l : Last) : (s.withLast l).queueOwners = s.queueOwners := rfl
@[simp] theorem withLast_ufns (s : State) (l : Last) : (s.withLast l).ufns = s.ufns := rfl
@[simp] theorem withLast_reports (s : State) (l : Last) : (s.withLast l).reports = s.reports := rfl
@[simp] theorem withLast_ringHead (s : State) (l : Last) : (s.withLast l).ringHead = s.ringHead := rfl
@[simp] theorem withLast_hostRing (s : State) (l : Last) : (s.withLast l).hostRing = s.hostRing := rfl
@[simp] theorem withLast_msi (s : State) (l : Last) : (s.withLast l).msi = s.msi := rfl
@[simp] theorem withLast_resvs (s : State) (l : Last) : (s.withLast l).resvs = s.resvs := rfl
@[simp] theorem withLast_timedJobs (s : State) (l : Last) : (s.withLast l).timedJobs = s.timedJobs := rfl
@[simp] theorem withLast_fabid (s : State) (l : Last) : (s.withLast l).fabid = s.fabid := rfl
@[simp] theorem withLast_modReady (s : State) (l : Last) : (s.withLast l).modReady = s.modReady := rfl
@[simp] theorem withLast_ctxtable (s : State) (l : Last) : (s.withLast l).ctxtable = s.ctxtable := rfl
@[simp] theorem withLast_ringBase (s : State) (l : Last) : (s.withLast l).ringBase = s.ringBase := rfl
@[simp] theorem withLast_ringSize (s : State) (l : Last) : (s.withLast l).ringSize = s.ringSize := rfl
@[simp] theorem withLast_errBase (s : State) (l : Last) : (s.withLast l).errBase = s.errBase := rfl
@[simp] theorem withLast_errSize (s : State) (l : Last) : (s.withLast l).errSize = s.errSize := rfl
@[simp] theorem withLast_errlog (s : State) (l : Last) : (s.withLast l).errlog = s.errlog := rfl
@[simp] theorem withLast_routes (s : State) (l : Last) : (s.withLast l).routes = s.routes := rfl
@[simp] theorem withLast_portWaits (s : State) (l : Last) : (s.withLast l).portWaits = s.portWaits := rfl
@[simp] theorem withLast_linkWaits (s : State) (l : Last) : (s.withLast l).linkWaits = s.linkWaits := rfl

/-! ## `writeByte` -/

@[simp] theorem writeByte_cur (s : State) (k : Nat) (b : Byte) : (writeByte s k b).cur = s.cur := rfl
@[simp] theorem writeByte_subj (s : State) (k : Nat) (b : Byte) : (writeByte s k b).subj = s.subj := rfl
@[simp] theorem writeByte_agenda (s : State) (k : Nat) (b : Byte) : (writeByte s k b).agenda = s.agenda := rfl
@[simp] theorem writeByte_tick (s : State) (k : Nat) (b : Byte) : (writeByte s k b).tick = s.tick := rfl
@[simp] theorem writeByte_last (s : State) (k : Nat) (b : Byte) : (writeByte s k b).last = s.last := rfl
@[simp] theorem writeByte_nextId (s : State) (k : Nat) (b : Byte) : (writeByte s k b).nextId = s.nextId := rfl
@[simp] theorem writeByte_poison (s : State) (k : Nat) (b : Byte) : (writeByte s k b).poison = s.poison := rfl
@[simp] theorem writeByte_devtime (s : State) (k : Nat) (b : Byte) : (writeByte s k b).devtime = s.devtime := rfl
@[simp] theorem writeByte_cores (s : State) (k : Nat) (b : Byte) : (writeByte s k b).cores = s.cores := rfl
@[simp] theorem writeByte_clusters (s : State) (k : Nat) (b : Byte) : (writeByte s k b).clusters = s.clusters := rfl
@[simp] theorem writeByte_dies (s : State) (k : Nat) (b : Byte) : (writeByte s k b).dies = s.dies := rfl
@[simp] theorem writeByte_ports (s : State) (k : Nat) (b : Byte) : (writeByte s k b).ports = s.ports := rfl
@[simp] theorem writeByte_ctxs (s : State) (k : Nat) (b : Byte) : (writeByte s k b).ctxs = s.ctxs := rfl
@[simp] theorem writeByte_asids (s : State) (k : Nat) (b : Byte) : (writeByte s k b).asids = s.asids := rfl
@[simp] theorem writeByte_exports (s : State) (k : Nat) (b : Byte) : (writeByte s k b).exports = s.exports := rfl
@[simp] theorem writeByte_gens (s : State) (k : Nat) (b : Byte) : (writeByte s k b).gens = s.gens := rfl
@[simp] theorem writeByte_tlb2 (s : State) (k : Nat) (b : Byte) : (writeByte s k b).tlb2 = s.tlb2 := rfl
@[simp] theorem writeByte_rtlb (s : State) (k : Nat) (b : Byte) : (writeByte s k b).rtlb = s.rtlb := rfl
@[simp] theorem writeByte_chans (s : State) (k : Nat) (b : Byte) : (writeByte s k b).chans = s.chans := rfl
@[simp] theorem writeByte_elects (s : State) (k : Nat) (b : Byte) : (writeByte s k b).elects = s.elects := rfl
@[simp] theorem writeByte_groups (s : State) (k : Nat) (b : Byte) : (writeByte s k b).groups = s.groups := rfl
@[simp] theorem writeByte_ops (s : State) (k : Nat) (b : Byte) : (writeByte s k b).ops = s.ops := rfl
@[simp] theorem writeByte_net (s : State) (k : Nat) (b : Byte) : (writeByte s k b).net = s.net := rfl
@[simp] theorem writeByte_leases (s : State) (k : Nat) (b : Byte) : (writeByte s k b).leases = s.leases := rfl
@[simp] theorem writeByte_fills (s : State) (k : Nat) (b : Byte) : (writeByte s k b).fills = s.fills := rfl
@[simp] theorem writeByte_homeLines (s : State) (k : Nat) (b : Byte) : (writeByte s k b).homeLines = s.homeLines := rfl
@[simp] theorem writeByte_monitors (s : State) (k : Nat) (b : Byte) : (writeByte s k b).monitors = s.monitors := rfl
@[simp] theorem writeByte_redLines (s : State) (k : Nat) (b : Byte) : (writeByte s k b).redLines = s.redLines := rfl
@[simp] theorem writeByte_permRecs (s : State) (k : Nat) (b : Byte) : (writeByte s k b).permRecs = s.permRecs := rfl
@[simp] theorem writeByte_queueOwners (s : State) (k : Nat) (b : Byte) : (writeByte s k b).queueOwners = s.queueOwners := rfl
@[simp] theorem writeByte_ufns (s : State) (k : Nat) (b : Byte) : (writeByte s k b).ufns = s.ufns := rfl
@[simp] theorem writeByte_reports (s : State) (k : Nat) (b : Byte) : (writeByte s k b).reports = s.reports := rfl
@[simp] theorem writeByte_ringHead (s : State) (k : Nat) (b : Byte) : (writeByte s k b).ringHead = s.ringHead := rfl
@[simp] theorem writeByte_hostRing (s : State) (k : Nat) (b : Byte) : (writeByte s k b).hostRing = s.hostRing := rfl
@[simp] theorem writeByte_msi (s : State) (k : Nat) (b : Byte) : (writeByte s k b).msi = s.msi := rfl
@[simp] theorem writeByte_resvs (s : State) (k : Nat) (b : Byte) : (writeByte s k b).resvs = s.resvs := rfl
@[simp] theorem writeByte_timedJobs (s : State) (k : Nat) (b : Byte) : (writeByte s k b).timedJobs = s.timedJobs := rfl
@[simp] theorem writeByte_fabid (s : State) (k : Nat) (b : Byte) : (writeByte s k b).fabid = s.fabid := rfl
@[simp] theorem writeByte_modReady (s : State) (k : Nat) (b : Byte) : (writeByte s k b).modReady = s.modReady := rfl
@[simp] theorem writeByte_ctxtable (s : State) (k : Nat) (b : Byte) : (writeByte s k b).ctxtable = s.ctxtable := rfl
@[simp] theorem writeByte_ringBase (s : State) (k : Nat) (b : Byte) : (writeByte s k b).ringBase = s.ringBase := rfl
@[simp] theorem writeByte_ringSize (s : State) (k : Nat) (b : Byte) : (writeByte s k b).ringSize = s.ringSize := rfl
@[simp] theorem writeByte_errBase (s : State) (k : Nat) (b : Byte) : (writeByte s k b).errBase = s.errBase := rfl
@[simp] theorem writeByte_errSize (s : State) (k : Nat) (b : Byte) : (writeByte s k b).errSize = s.errSize := rfl
@[simp] theorem writeByte_errlog (s : State) (k : Nat) (b : Byte) : (writeByte s k b).errlog = s.errlog := rfl
@[simp] theorem writeByte_routes (s : State) (k : Nat) (b : Byte) : (writeByte s k b).routes = s.routes := rfl
@[simp] theorem writeByte_portWaits (s : State) (k : Nat) (b : Byte) : (writeByte s k b).portWaits = s.portWaits := rfl
@[simp] theorem writeByte_linkWaits (s : State) (k : Nat) (b : Byte) : (writeByte s k b).linkWaits = s.linkWaits := rfl

/-! ## `setS` -/

@[simp] theorem setS_st (t : Strand) (i : Nat) (v : Word) : (t.setS i v).st = t.st := by unfold Strand.setS; split <;> rfl
@[simp] theorem setS_task (t : Strand) (i : Nat) (v : Word) : (t.setS i v).task = t.task := by unfold Strand.setS; split <;> rfl
@[simp] theorem setS_ctx (t : Strand) (i : Nat) (v : Word) : (t.setS i v).ctx = t.ctx := by unfold Strand.setS; split <;> rfl
@[simp] theorem setS_asid (t : Strand) (i : Nat) (v : Word) : (t.setS i v).asid = t.asid := by unfold Strand.setS; split <;> rfl
@[simp] theorem setS_chan (t : Strand) (i : Nat) (v : Word) : (t.setS i v).chan = t.chan := by unfold Strand.setS; split <;> rfl
@[simp] theorem setS_seq (t : Strand) (i : Nat) (v : Word) : (t.setS i v).seq = t.seq := by unfold Strand.setS; split <;> rfl
@[simp] theorem setS_pc (t : Strand) (i : Nat) (v : Word) : (t.setS i v).pc = t.pc := by unfold Strand.setS; split <;> rfl
@[simp] theorem setS_vreg (t : Strand) (i : Nat) (v : Word) : (t.setS i v).vreg = t.vreg := by unfold Strand.setS; split <;> rfl
@[simp] theorem setS_kreg (t : Strand) (i : Nat) (v : Word) : (t.setS i v).kreg = t.kreg := by unfold Strand.setS; split <;> rfl
@[simp] theorem setS_win (t : Strand) (i : Nat) (v : Word) : (t.setS i v).win = t.win := by unfold Strand.setS; split <;> rfl
@[simp] theorem setS_ereg (t : Strand) (i : Nat) (v : Word) : (t.setS i v).ereg = t.ereg := by unfold Strand.setS; split <;> rfl
@[simp] theorem setS_xi (t : Strand) (i : Nat) (v : Word) : (t.setS i v).xi = t.xi := by unfold Strand.setS; split <;> rfl
@[simp] theorem setS_fmt (t : Strand) (i : Nat) (v : Word) : (t.setS i v).fmt = t.fmt := by unfold Strand.setS; split <;> rfl
@[simp] theorem setS_strm (t : Strand) (i : Nat) (v : Word) : (t.setS i v).strm = t.strm := by unfold Strand.setS; split <;> rfl
@[simp] theorem setS_msgid (t : Strand) (i : Nat) (v : Word) : (t.setS i v).msgid = t.msgid := by unfold Strand.setS; split <;> rfl
@[simp] theorem setS_budget (t : Strand) (i : Nat) (v : Word) : (t.setS i v).budget = t.budget := by unfold Strand.setS; split <;> rfl
@[simp] theorem setS_unb (t : Strand) (i : Nat) (v : Word) : (t.setS i v).unb = t.unb := by unfold Strand.setS; split <;> rfl
@[simp] theorem setS_capped (t : Strand) (i : Nat) (v : Word) : (t.setS i v).capped = t.capped := by unfold Strand.setS; split <;> rfl
@[simp] theorem setS_cLd (t : Strand) (i : Nat) (v : Word) : (t.setS i v).cLd = t.cLd := by unfold Strand.setS; split <;> rfl
@[simp] theorem setS_cSt (t : Strand) (i : Nat) (v : Word) : (t.setS i v).cSt = t.cSt := by unfold Strand.setS; split <;> rfl
@[simp] theorem setS_cCp (t : Strand) (i : Nat) (v : Word) : (t.setS i v).cCp = t.cCp := by unfold Strand.setS; split <;> rfl
@[simp] theorem setS_cTl (t : Strand) (i : Nat) (v : Word) : (t.setS i v).cTl = t.cTl := by unfold Strand.setS; split <;> rfl
@[simp] theorem setS_spdisc (t : Strand) (i : Nat) (v : Word) : (t.setS i v).spdisc = t.spdisc := by unfold Strand.setS; split <;> rfl
@[simp] theorem setS_timed (t : Strand) (i : Nat) (v : Word) : (t.setS i v).timed = t.timed := by unfold Strand.setS; split <;> rfl
@[simp] theorem setS_fromTimed (t : Strand) (i : Nat) (v : Word) : (t.setS i v).fromTimed = t.fromTimed := by unfold Strand.setS; split <;> rfl
@[simp] theorem setS_level (t : Strand) (i : Nat) (v : Word) : (t.setS i v).level = t.level := by unfold Strand.setS; split <;> rfl
@[simp] theorem setS_priv (t : Strand) (i : Nat) (v : Word) : (t.setS i v).priv = t.priv := by unfold Strand.setS; split <;> rfl
@[simp] theorem setS_pub (t : Strand) (i : Nat) (v : Word) : (t.setS i v).pub = t.pub := by unfold Strand.setS; split <;> rfl
@[simp] theorem setS_sub (t : Strand) (i : Nat) (v : Word) : (t.setS i v).sub = t.sub := by unfold Strand.setS; split <;> rfl
@[simp] theorem setS_uns (t : Strand) (i : Nat) (v : Word) : (t.setS i v).uns = t.uns := by unfold Strand.setS; split <;> rfl
@[simp] theorem setS_ichan (t : Strand) (i : Nat) (v : Word) : (t.setS i v).ichan = t.ichan := by unfold Strand.setS; split <;> rfl
@[simp] theorem setS_cause (t : Strand) (i : Nat) (v : Word) : (t.setS i v).cause = t.cause := by unfold Strand.setS; split <;> rfl
@[simp] theorem setS_epc (t : Strand) (i : Nat) (v : Word) : (t.setS i v).epc = t.epc := by unfold Strand.setS; split <;> rfl
@[simp] theorem setS_tval (t : Strand) (i : Nat) (v : Word) : (t.setS i v).tval = t.tval := by unfold Strand.setS; split <;> rfl
@[simp] theorem setS_nS (t : Strand) (i : Nat) (v : Word) : (t.setS i v).nS = t.nS := by unfold Strand.setS; split <;> rfl
@[simp] theorem setS_nV (t : Strand) (i : Nat) (v : Word) : (t.setS i v).nV = t.nV := by unfold Strand.setS; split <;> rfl
@[simp] theorem setS_nK (t : Strand) (i : Nat) (v : Word) : (t.setS i v).nK = t.nK := by unfold Strand.setS; split <;> rfl
@[simp] theorem setS_watch (t : Strand) (i : Nat) (v : Word) : (t.setS i v).watch = t.watch := by unfold Strand.setS; split <;> rfl
@[simp] theorem setS_hor (t : Strand) (i : Nat) (v : Word) : (t.setS i v).hor = t.hor := by unfold Strand.setS; split <;> rfl
@[simp] theorem setS_flr (t : Strand) (i : Nat) (v : Word) : (t.setS i v).flr = t.flr := by unfold Strand.setS; split <;> rfl
@[simp] theorem setS_rdMax (t : Strand) (i : Nat) (v : Word) : (t.setS i v).rdMax = t.rdMax := by unfold Strand.setS; split <;> rfl
@[simp] theorem setS_repCp (t : Strand) (i : Nat) (v : Word) : (t.setS i v).repCp = t.repCp := by unfold Strand.setS; split <;> rfl
@[simp] theorem setS_repTl (t : Strand) (i : Nat) (v : Word) : (t.setS i v).repTl = t.repTl := by unfold Strand.setS; split <;> rfl
@[simp] theorem setS_arrRec (t : Strand) (i : Nat) (v : Word) : (t.setS i v).arrRec = t.arrRec := by unfold Strand.setS; split <;> rfl
@[simp] theorem setS_sends (t : Strand) (i : Nat) (v : Word) : (t.setS i v).sends = t.sends := by unfold Strand.setS; split <;> rfl
@[simp] theorem setS_entering (t : Strand) (i : Nat) (v : Word) : (t.setS i v).entering = t.entering := by unfold Strand.setS; split <;> rfl
@[simp] theorem setS_faults (t : Strand) (i : Nat) (v : Word) : (t.setS i v).faults = t.faults := by unfold Strand.setS; split <;> rfl
@[simp] theorem setS_lost (t : Strand) (i : Nat) (v : Word) : (t.setS i v).lost = t.lost := by unfold Strand.setS; split <;> rfl
@[simp] theorem setS_wait (t : Strand) (i : Nat) (v : Word) : (t.setS i v).wait = t.wait := by unfold Strand.setS; split <;> rfl
@[simp] theorem setS_walk (t : Strand) (i : Nat) (v : Word) : (t.setS i v).walk = t.walk := by unfold Strand.setS; split <;> rfl
@[simp] theorem setS_walkAt (t : Strand) (i : Nat) (v : Word) : (t.setS i v).walkAt = t.walkAt := by unfold Strand.setS; split <;> rfl
@[simp] theorem setS_walked (t : Strand) (i : Nat) (v : Word) : (t.setS i v).walked = t.walked := by unfold Strand.setS; split <;> rfl
@[simp] theorem setS_cfgFrom (t : Strand) (i : Nat) (v : Word) : (t.setS i v).cfgFrom = t.cfgFrom := by unfold Strand.setS; split <;> rfl
@[simp] theorem setS_walkFail (t : Strand) (i : Nat) (v : Word) : (t.setS i v).walkFail = t.walkFail := by unfold Strand.setS; split <;> rfl
@[simp] theorem setS_trap (t : Strand) (i : Nat) (v : Word) : (t.setS i v).trap = t.trap := by unfold Strand.setS; split <;> rfl
@[simp] theorem setS_why (t : Strand) (i : Nat) (v : Word) : (t.setS i v).why = t.why := by unfold Strand.setS; split <;> rfl
@[simp] theorem setS_saveTo (t : Strand) (i : Nat) (v : Word) : (t.setS i v).saveTo = t.saveTo := by unfold Strand.setS; split <;> rfl
@[simp] theorem setS_savePos (t : Strand) (i : Nat) (v : Word) : (t.setS i v).savePos = t.savePos := by unfold Strand.setS; split <;> rfl
@[simp] theorem setS_preempt (t : Strand) (i : Nat) (v : Word) : (t.setS i v).preempt = t.preempt := by unfold Strand.setS; split <;> rfl
@[simp] theorem setS_migWord (t : Strand) (i : Nat) (v : Word) : (t.setS i v).migWord = t.migWord := by unfold Strand.setS; split <;> rfl
@[simp] theorem setS_timing (t : Strand) (i : Nat) (v : Word) : (t.setS i v).timing = t.timing := by unfold Strand.setS; split <;> rfl
@[simp] theorem setS_started (t : Strand) (i : Nat) (v : Word) : (t.setS i v).started = t.started := by unfold Strand.setS; split <;> rfl
@[simp] theorem setS_startNo (t : Strand) (i : Nat) (v : Word) : (t.setS i v).startNo = t.startNo := by unfold Strand.setS; split <;> rfl
@[simp] theorem setS_startLeft (t : Strand) (i : Nat) (v : Word) : (t.setS i v).startLeft = t.startLeft := by unfold Strand.setS; split <;> rfl
@[simp] theorem setS_hostWrites (t : Strand) (i : Nat) (v : Word) : (t.setS i v).hostWrites = t.hostWrites := by unfold Strand.setS; split <;> rfl
@[simp] theorem setS_supervisor (t : Strand) (i : Nat) (v : Word) : (t.setS i v).supervisor = t.supervisor := by unfold Strand.setS; split <;> rfl
@[simp] theorem setS_issued (t : Strand) (i : Nat) (v : Word) : (t.setS i v).issued = t.issued := by unfold Strand.setS; split <;> rfl

/-! ## `setV` -/

@[simp] theorem setV_st (t : Strand) (i : Nat) (v : Vec) : (t.setV i v).st = t.st := rfl
@[simp] theorem setV_task (t : Strand) (i : Nat) (v : Vec) : (t.setV i v).task = t.task := rfl
@[simp] theorem setV_ctx (t : Strand) (i : Nat) (v : Vec) : (t.setV i v).ctx = t.ctx := rfl
@[simp] theorem setV_asid (t : Strand) (i : Nat) (v : Vec) : (t.setV i v).asid = t.asid := rfl
@[simp] theorem setV_chan (t : Strand) (i : Nat) (v : Vec) : (t.setV i v).chan = t.chan := rfl
@[simp] theorem setV_seq (t : Strand) (i : Nat) (v : Vec) : (t.setV i v).seq = t.seq := rfl
@[simp] theorem setV_pc (t : Strand) (i : Nat) (v : Vec) : (t.setV i v).pc = t.pc := rfl
@[simp] theorem setV_sreg (t : Strand) (i : Nat) (v : Vec) : (t.setV i v).sreg = t.sreg := rfl
@[simp] theorem setV_kreg (t : Strand) (i : Nat) (v : Vec) : (t.setV i v).kreg = t.kreg := rfl
@[simp] theorem setV_win (t : Strand) (i : Nat) (v : Vec) : (t.setV i v).win = t.win := rfl
@[simp] theorem setV_ereg (t : Strand) (i : Nat) (v : Vec) : (t.setV i v).ereg = t.ereg := rfl
@[simp] theorem setV_xi (t : Strand) (i : Nat) (v : Vec) : (t.setV i v).xi = t.xi := rfl
@[simp] theorem setV_fmt (t : Strand) (i : Nat) (v : Vec) : (t.setV i v).fmt = t.fmt := rfl
@[simp] theorem setV_strm (t : Strand) (i : Nat) (v : Vec) : (t.setV i v).strm = t.strm := rfl
@[simp] theorem setV_msgid (t : Strand) (i : Nat) (v : Vec) : (t.setV i v).msgid = t.msgid := rfl
@[simp] theorem setV_budget (t : Strand) (i : Nat) (v : Vec) : (t.setV i v).budget = t.budget := rfl
@[simp] theorem setV_unb (t : Strand) (i : Nat) (v : Vec) : (t.setV i v).unb = t.unb := rfl
@[simp] theorem setV_capped (t : Strand) (i : Nat) (v : Vec) : (t.setV i v).capped = t.capped := rfl
@[simp] theorem setV_cLd (t : Strand) (i : Nat) (v : Vec) : (t.setV i v).cLd = t.cLd := rfl
@[simp] theorem setV_cSt (t : Strand) (i : Nat) (v : Vec) : (t.setV i v).cSt = t.cSt := rfl
@[simp] theorem setV_cCp (t : Strand) (i : Nat) (v : Vec) : (t.setV i v).cCp = t.cCp := rfl
@[simp] theorem setV_cTl (t : Strand) (i : Nat) (v : Vec) : (t.setV i v).cTl = t.cTl := rfl
@[simp] theorem setV_spdisc (t : Strand) (i : Nat) (v : Vec) : (t.setV i v).spdisc = t.spdisc := rfl
@[simp] theorem setV_timed (t : Strand) (i : Nat) (v : Vec) : (t.setV i v).timed = t.timed := rfl
@[simp] theorem setV_fromTimed (t : Strand) (i : Nat) (v : Vec) : (t.setV i v).fromTimed = t.fromTimed := rfl
@[simp] theorem setV_level (t : Strand) (i : Nat) (v : Vec) : (t.setV i v).level = t.level := rfl
@[simp] theorem setV_priv (t : Strand) (i : Nat) (v : Vec) : (t.setV i v).priv = t.priv := rfl
@[simp] theorem setV_pub (t : Strand) (i : Nat) (v : Vec) : (t.setV i v).pub = t.pub := rfl
@[simp] theorem setV_sub (t : Strand) (i : Nat) (v : Vec) : (t.setV i v).sub = t.sub := rfl
@[simp] theorem setV_uns (t : Strand) (i : Nat) (v : Vec) : (t.setV i v).uns = t.uns := rfl
@[simp] theorem setV_ichan (t : Strand) (i : Nat) (v : Vec) : (t.setV i v).ichan = t.ichan := rfl
@[simp] theorem setV_cause (t : Strand) (i : Nat) (v : Vec) : (t.setV i v).cause = t.cause := rfl
@[simp] theorem setV_epc (t : Strand) (i : Nat) (v : Vec) : (t.setV i v).epc = t.epc := rfl
@[simp] theorem setV_tval (t : Strand) (i : Nat) (v : Vec) : (t.setV i v).tval = t.tval := rfl
@[simp] theorem setV_nS (t : Strand) (i : Nat) (v : Vec) : (t.setV i v).nS = t.nS := rfl
@[simp] theorem setV_nV (t : Strand) (i : Nat) (v : Vec) : (t.setV i v).nV = t.nV := rfl
@[simp] theorem setV_nK (t : Strand) (i : Nat) (v : Vec) : (t.setV i v).nK = t.nK := rfl
@[simp] theorem setV_watch (t : Strand) (i : Nat) (v : Vec) : (t.setV i v).watch = t.watch := rfl
@[simp] theorem setV_hor (t : Strand) (i : Nat) (v : Vec) : (t.setV i v).hor = t.hor := rfl
@[simp] theorem setV_flr (t : Strand) (i : Nat) (v : Vec) : (t.setV i v).flr = t.flr := rfl
@[simp] theorem setV_rdMax (t : Strand) (i : Nat) (v : Vec) : (t.setV i v).rdMax = t.rdMax := rfl
@[simp] theorem setV_repCp (t : Strand) (i : Nat) (v : Vec) : (t.setV i v).repCp = t.repCp := rfl
@[simp] theorem setV_repTl (t : Strand) (i : Nat) (v : Vec) : (t.setV i v).repTl = t.repTl := rfl
@[simp] theorem setV_arrRec (t : Strand) (i : Nat) (v : Vec) : (t.setV i v).arrRec = t.arrRec := rfl
@[simp] theorem setV_sends (t : Strand) (i : Nat) (v : Vec) : (t.setV i v).sends = t.sends := rfl
@[simp] theorem setV_entering (t : Strand) (i : Nat) (v : Vec) : (t.setV i v).entering = t.entering := rfl
@[simp] theorem setV_faults (t : Strand) (i : Nat) (v : Vec) : (t.setV i v).faults = t.faults := rfl
@[simp] theorem setV_lost (t : Strand) (i : Nat) (v : Vec) : (t.setV i v).lost = t.lost := rfl
@[simp] theorem setV_wait (t : Strand) (i : Nat) (v : Vec) : (t.setV i v).wait = t.wait := rfl
@[simp] theorem setV_walk (t : Strand) (i : Nat) (v : Vec) : (t.setV i v).walk = t.walk := rfl
@[simp] theorem setV_walkAt (t : Strand) (i : Nat) (v : Vec) : (t.setV i v).walkAt = t.walkAt := rfl
@[simp] theorem setV_walked (t : Strand) (i : Nat) (v : Vec) : (t.setV i v).walked = t.walked := rfl
@[simp] theorem setV_cfgFrom (t : Strand) (i : Nat) (v : Vec) : (t.setV i v).cfgFrom = t.cfgFrom := rfl
@[simp] theorem setV_walkFail (t : Strand) (i : Nat) (v : Vec) : (t.setV i v).walkFail = t.walkFail := rfl
@[simp] theorem setV_trap (t : Strand) (i : Nat) (v : Vec) : (t.setV i v).trap = t.trap := rfl
@[simp] theorem setV_why (t : Strand) (i : Nat) (v : Vec) : (t.setV i v).why = t.why := rfl
@[simp] theorem setV_saveTo (t : Strand) (i : Nat) (v : Vec) : (t.setV i v).saveTo = t.saveTo := rfl
@[simp] theorem setV_savePos (t : Strand) (i : Nat) (v : Vec) : (t.setV i v).savePos = t.savePos := rfl
@[simp] theorem setV_preempt (t : Strand) (i : Nat) (v : Vec) : (t.setV i v).preempt = t.preempt := rfl
@[simp] theorem setV_migWord (t : Strand) (i : Nat) (v : Vec) : (t.setV i v).migWord = t.migWord := rfl
@[simp] theorem setV_timing (t : Strand) (i : Nat) (v : Vec) : (t.setV i v).timing = t.timing := rfl
@[simp] theorem setV_started (t : Strand) (i : Nat) (v : Vec) : (t.setV i v).started = t.started := rfl
@[simp] theorem setV_startNo (t : Strand) (i : Nat) (v : Vec) : (t.setV i v).startNo = t.startNo := rfl
@[simp] theorem setV_startLeft (t : Strand) (i : Nat) (v : Vec) : (t.setV i v).startLeft = t.startLeft := rfl
@[simp] theorem setV_hostWrites (t : Strand) (i : Nat) (v : Vec) : (t.setV i v).hostWrites = t.hostWrites := rfl
@[simp] theorem setV_supervisor (t : Strand) (i : Nat) (v : Vec) : (t.setV i v).supervisor = t.supervisor := rfl
@[simp] theorem setV_issued (t : Strand) (i : Nat) (v : Vec) : (t.setV i v).issued = t.issued := rfl

/-! ## `setK` -/

@[simp] theorem setK_st (t : Strand) (i : Nat) (v : BitVec 16) : (t.setK i v).st = t.st := by unfold Strand.setK; split <;> rfl
@[simp] theorem setK_task (t : Strand) (i : Nat) (v : BitVec 16) : (t.setK i v).task = t.task := by unfold Strand.setK; split <;> rfl
@[simp] theorem setK_ctx (t : Strand) (i : Nat) (v : BitVec 16) : (t.setK i v).ctx = t.ctx := by unfold Strand.setK; split <;> rfl
@[simp] theorem setK_asid (t : Strand) (i : Nat) (v : BitVec 16) : (t.setK i v).asid = t.asid := by unfold Strand.setK; split <;> rfl
@[simp] theorem setK_chan (t : Strand) (i : Nat) (v : BitVec 16) : (t.setK i v).chan = t.chan := by unfold Strand.setK; split <;> rfl
@[simp] theorem setK_seq (t : Strand) (i : Nat) (v : BitVec 16) : (t.setK i v).seq = t.seq := by unfold Strand.setK; split <;> rfl
@[simp] theorem setK_pc (t : Strand) (i : Nat) (v : BitVec 16) : (t.setK i v).pc = t.pc := by unfold Strand.setK; split <;> rfl
@[simp] theorem setK_sreg (t : Strand) (i : Nat) (v : BitVec 16) : (t.setK i v).sreg = t.sreg := by unfold Strand.setK; split <;> rfl
@[simp] theorem setK_vreg (t : Strand) (i : Nat) (v : BitVec 16) : (t.setK i v).vreg = t.vreg := by unfold Strand.setK; split <;> rfl
@[simp] theorem setK_win (t : Strand) (i : Nat) (v : BitVec 16) : (t.setK i v).win = t.win := by unfold Strand.setK; split <;> rfl
@[simp] theorem setK_ereg (t : Strand) (i : Nat) (v : BitVec 16) : (t.setK i v).ereg = t.ereg := by unfold Strand.setK; split <;> rfl
@[simp] theorem setK_xi (t : Strand) (i : Nat) (v : BitVec 16) : (t.setK i v).xi = t.xi := by unfold Strand.setK; split <;> rfl
@[simp] theorem setK_fmt (t : Strand) (i : Nat) (v : BitVec 16) : (t.setK i v).fmt = t.fmt := by unfold Strand.setK; split <;> rfl
@[simp] theorem setK_strm (t : Strand) (i : Nat) (v : BitVec 16) : (t.setK i v).strm = t.strm := by unfold Strand.setK; split <;> rfl
@[simp] theorem setK_msgid (t : Strand) (i : Nat) (v : BitVec 16) : (t.setK i v).msgid = t.msgid := by unfold Strand.setK; split <;> rfl
@[simp] theorem setK_budget (t : Strand) (i : Nat) (v : BitVec 16) : (t.setK i v).budget = t.budget := by unfold Strand.setK; split <;> rfl
@[simp] theorem setK_unb (t : Strand) (i : Nat) (v : BitVec 16) : (t.setK i v).unb = t.unb := by unfold Strand.setK; split <;> rfl
@[simp] theorem setK_capped (t : Strand) (i : Nat) (v : BitVec 16) : (t.setK i v).capped = t.capped := by unfold Strand.setK; split <;> rfl
@[simp] theorem setK_cLd (t : Strand) (i : Nat) (v : BitVec 16) : (t.setK i v).cLd = t.cLd := by unfold Strand.setK; split <;> rfl
@[simp] theorem setK_cSt (t : Strand) (i : Nat) (v : BitVec 16) : (t.setK i v).cSt = t.cSt := by unfold Strand.setK; split <;> rfl
@[simp] theorem setK_cCp (t : Strand) (i : Nat) (v : BitVec 16) : (t.setK i v).cCp = t.cCp := by unfold Strand.setK; split <;> rfl
@[simp] theorem setK_cTl (t : Strand) (i : Nat) (v : BitVec 16) : (t.setK i v).cTl = t.cTl := by unfold Strand.setK; split <;> rfl
@[simp] theorem setK_spdisc (t : Strand) (i : Nat) (v : BitVec 16) : (t.setK i v).spdisc = t.spdisc := by unfold Strand.setK; split <;> rfl
@[simp] theorem setK_timed (t : Strand) (i : Nat) (v : BitVec 16) : (t.setK i v).timed = t.timed := by unfold Strand.setK; split <;> rfl
@[simp] theorem setK_fromTimed (t : Strand) (i : Nat) (v : BitVec 16) : (t.setK i v).fromTimed = t.fromTimed := by unfold Strand.setK; split <;> rfl
@[simp] theorem setK_level (t : Strand) (i : Nat) (v : BitVec 16) : (t.setK i v).level = t.level := by unfold Strand.setK; split <;> rfl
@[simp] theorem setK_priv (t : Strand) (i : Nat) (v : BitVec 16) : (t.setK i v).priv = t.priv := by unfold Strand.setK; split <;> rfl
@[simp] theorem setK_pub (t : Strand) (i : Nat) (v : BitVec 16) : (t.setK i v).pub = t.pub := by unfold Strand.setK; split <;> rfl
@[simp] theorem setK_sub (t : Strand) (i : Nat) (v : BitVec 16) : (t.setK i v).sub = t.sub := by unfold Strand.setK; split <;> rfl
@[simp] theorem setK_uns (t : Strand) (i : Nat) (v : BitVec 16) : (t.setK i v).uns = t.uns := by unfold Strand.setK; split <;> rfl
@[simp] theorem setK_ichan (t : Strand) (i : Nat) (v : BitVec 16) : (t.setK i v).ichan = t.ichan := by unfold Strand.setK; split <;> rfl
@[simp] theorem setK_cause (t : Strand) (i : Nat) (v : BitVec 16) : (t.setK i v).cause = t.cause := by unfold Strand.setK; split <;> rfl
@[simp] theorem setK_epc (t : Strand) (i : Nat) (v : BitVec 16) : (t.setK i v).epc = t.epc := by unfold Strand.setK; split <;> rfl
@[simp] theorem setK_tval (t : Strand) (i : Nat) (v : BitVec 16) : (t.setK i v).tval = t.tval := by unfold Strand.setK; split <;> rfl
@[simp] theorem setK_nS (t : Strand) (i : Nat) (v : BitVec 16) : (t.setK i v).nS = t.nS := by unfold Strand.setK; split <;> rfl
@[simp] theorem setK_nV (t : Strand) (i : Nat) (v : BitVec 16) : (t.setK i v).nV = t.nV := by unfold Strand.setK; split <;> rfl
@[simp] theorem setK_nK (t : Strand) (i : Nat) (v : BitVec 16) : (t.setK i v).nK = t.nK := by unfold Strand.setK; split <;> rfl
@[simp] theorem setK_watch (t : Strand) (i : Nat) (v : BitVec 16) : (t.setK i v).watch = t.watch := by unfold Strand.setK; split <;> rfl
@[simp] theorem setK_hor (t : Strand) (i : Nat) (v : BitVec 16) : (t.setK i v).hor = t.hor := by unfold Strand.setK; split <;> rfl
@[simp] theorem setK_flr (t : Strand) (i : Nat) (v : BitVec 16) : (t.setK i v).flr = t.flr := by unfold Strand.setK; split <;> rfl
@[simp] theorem setK_rdMax (t : Strand) (i : Nat) (v : BitVec 16) : (t.setK i v).rdMax = t.rdMax := by unfold Strand.setK; split <;> rfl
@[simp] theorem setK_repCp (t : Strand) (i : Nat) (v : BitVec 16) : (t.setK i v).repCp = t.repCp := by unfold Strand.setK; split <;> rfl
@[simp] theorem setK_repTl (t : Strand) (i : Nat) (v : BitVec 16) : (t.setK i v).repTl = t.repTl := by unfold Strand.setK; split <;> rfl
@[simp] theorem setK_arrRec (t : Strand) (i : Nat) (v : BitVec 16) : (t.setK i v).arrRec = t.arrRec := by unfold Strand.setK; split <;> rfl
@[simp] theorem setK_sends (t : Strand) (i : Nat) (v : BitVec 16) : (t.setK i v).sends = t.sends := by unfold Strand.setK; split <;> rfl
@[simp] theorem setK_entering (t : Strand) (i : Nat) (v : BitVec 16) : (t.setK i v).entering = t.entering := by unfold Strand.setK; split <;> rfl
@[simp] theorem setK_faults (t : Strand) (i : Nat) (v : BitVec 16) : (t.setK i v).faults = t.faults := by unfold Strand.setK; split <;> rfl
@[simp] theorem setK_lost (t : Strand) (i : Nat) (v : BitVec 16) : (t.setK i v).lost = t.lost := by unfold Strand.setK; split <;> rfl
@[simp] theorem setK_wait (t : Strand) (i : Nat) (v : BitVec 16) : (t.setK i v).wait = t.wait := by unfold Strand.setK; split <;> rfl
@[simp] theorem setK_walk (t : Strand) (i : Nat) (v : BitVec 16) : (t.setK i v).walk = t.walk := by unfold Strand.setK; split <;> rfl
@[simp] theorem setK_walkAt (t : Strand) (i : Nat) (v : BitVec 16) : (t.setK i v).walkAt = t.walkAt := by unfold Strand.setK; split <;> rfl
@[simp] theorem setK_walked (t : Strand) (i : Nat) (v : BitVec 16) : (t.setK i v).walked = t.walked := by unfold Strand.setK; split <;> rfl
@[simp] theorem setK_cfgFrom (t : Strand) (i : Nat) (v : BitVec 16) : (t.setK i v).cfgFrom = t.cfgFrom := by unfold Strand.setK; split <;> rfl
@[simp] theorem setK_walkFail (t : Strand) (i : Nat) (v : BitVec 16) : (t.setK i v).walkFail = t.walkFail := by unfold Strand.setK; split <;> rfl
@[simp] theorem setK_trap (t : Strand) (i : Nat) (v : BitVec 16) : (t.setK i v).trap = t.trap := by unfold Strand.setK; split <;> rfl
@[simp] theorem setK_why (t : Strand) (i : Nat) (v : BitVec 16) : (t.setK i v).why = t.why := by unfold Strand.setK; split <;> rfl
@[simp] theorem setK_saveTo (t : Strand) (i : Nat) (v : BitVec 16) : (t.setK i v).saveTo = t.saveTo := by unfold Strand.setK; split <;> rfl
@[simp] theorem setK_savePos (t : Strand) (i : Nat) (v : BitVec 16) : (t.setK i v).savePos = t.savePos := by unfold Strand.setK; split <;> rfl
@[simp] theorem setK_preempt (t : Strand) (i : Nat) (v : BitVec 16) : (t.setK i v).preempt = t.preempt := by unfold Strand.setK; split <;> rfl
@[simp] theorem setK_migWord (t : Strand) (i : Nat) (v : BitVec 16) : (t.setK i v).migWord = t.migWord := by unfold Strand.setK; split <;> rfl
@[simp] theorem setK_timing (t : Strand) (i : Nat) (v : BitVec 16) : (t.setK i v).timing = t.timing := by unfold Strand.setK; split <;> rfl
@[simp] theorem setK_started (t : Strand) (i : Nat) (v : BitVec 16) : (t.setK i v).started = t.started := by unfold Strand.setK; split <;> rfl
@[simp] theorem setK_startNo (t : Strand) (i : Nat) (v : BitVec 16) : (t.setK i v).startNo = t.startNo := by unfold Strand.setK; split <;> rfl
@[simp] theorem setK_startLeft (t : Strand) (i : Nat) (v : BitVec 16) : (t.setK i v).startLeft = t.startLeft := by unfold Strand.setK; split <;> rfl
@[simp] theorem setK_hostWrites (t : Strand) (i : Nat) (v : BitVec 16) : (t.setK i v).hostWrites = t.hostWrites := by unfold Strand.setK; split <;> rfl
@[simp] theorem setK_supervisor (t : Strand) (i : Nat) (v : BitVec 16) : (t.setK i v).supervisor = t.supervisor := by unfold Strand.setK; split <;> rfl
@[simp] theorem setK_issued (t : Strand) (i : Nat) (v : BitVec 16) : (t.setK i v).issued = t.issued := by unfold Strand.setK; split <;> rfl

/-! ## `setQ` -/

@[simp] theorem setQ_st (t : Strand) (i : Nat) (q : Stream) : (t.setQ i q).st = t.st := rfl
@[simp] theorem setQ_task (t : Strand) (i : Nat) (q : Stream) : (t.setQ i q).task = t.task := rfl
@[simp] theorem setQ_ctx (t : Strand) (i : Nat) (q : Stream) : (t.setQ i q).ctx = t.ctx := rfl
@[simp] theorem setQ_asid (t : Strand) (i : Nat) (q : Stream) : (t.setQ i q).asid = t.asid := rfl
@[simp] theorem setQ_chan (t : Strand) (i : Nat) (q : Stream) : (t.setQ i q).chan = t.chan := rfl
@[simp] theorem setQ_seq (t : Strand) (i : Nat) (q : Stream) : (t.setQ i q).seq = t.seq := rfl
@[simp] theorem setQ_pc (t : Strand) (i : Nat) (q : Stream) : (t.setQ i q).pc = t.pc := rfl
@[simp] theorem setQ_sreg (t : Strand) (i : Nat) (q : Stream) : (t.setQ i q).sreg = t.sreg := rfl
@[simp] theorem setQ_vreg (t : Strand) (i : Nat) (q : Stream) : (t.setQ i q).vreg = t.vreg := rfl
@[simp] theorem setQ_kreg (t : Strand) (i : Nat) (q : Stream) : (t.setQ i q).kreg = t.kreg := rfl
@[simp] theorem setQ_win (t : Strand) (i : Nat) (q : Stream) : (t.setQ i q).win = t.win := rfl
@[simp] theorem setQ_ereg (t : Strand) (i : Nat) (q : Stream) : (t.setQ i q).ereg = t.ereg := rfl
@[simp] theorem setQ_xi (t : Strand) (i : Nat) (q : Stream) : (t.setQ i q).xi = t.xi := rfl
@[simp] theorem setQ_fmt (t : Strand) (i : Nat) (q : Stream) : (t.setQ i q).fmt = t.fmt := rfl
@[simp] theorem setQ_msgid (t : Strand) (i : Nat) (q : Stream) : (t.setQ i q).msgid = t.msgid := rfl
@[simp] theorem setQ_budget (t : Strand) (i : Nat) (q : Stream) : (t.setQ i q).budget = t.budget := rfl
@[simp] theorem setQ_unb (t : Strand) (i : Nat) (q : Stream) : (t.setQ i q).unb = t.unb := rfl
@[simp] theorem setQ_capped (t : Strand) (i : Nat) (q : Stream) : (t.setQ i q).capped = t.capped := rfl
@[simp] theorem setQ_cLd (t : Strand) (i : Nat) (q : Stream) : (t.setQ i q).cLd = t.cLd := rfl
@[simp] theorem setQ_cSt (t : Strand) (i : Nat) (q : Stream) : (t.setQ i q).cSt = t.cSt := rfl
@[simp] theorem setQ_cCp (t : Strand) (i : Nat) (q : Stream) : (t.setQ i q).cCp = t.cCp := rfl
@[simp] theorem setQ_cTl (t : Strand) (i : Nat) (q : Stream) : (t.setQ i q).cTl = t.cTl := rfl
@[simp] theorem setQ_spdisc (t : Strand) (i : Nat) (q : Stream) : (t.setQ i q).spdisc = t.spdisc := rfl
@[simp] theorem setQ_timed (t : Strand) (i : Nat) (q : Stream) : (t.setQ i q).timed = t.timed := rfl
@[simp] theorem setQ_fromTimed (t : Strand) (i : Nat) (q : Stream) : (t.setQ i q).fromTimed = t.fromTimed := rfl
@[simp] theorem setQ_level (t : Strand) (i : Nat) (q : Stream) : (t.setQ i q).level = t.level := rfl
@[simp] theorem setQ_priv (t : Strand) (i : Nat) (q : Stream) : (t.setQ i q).priv = t.priv := rfl
@[simp] theorem setQ_pub (t : Strand) (i : Nat) (q : Stream) : (t.setQ i q).pub = t.pub := rfl
@[simp] theorem setQ_sub (t : Strand) (i : Nat) (q : Stream) : (t.setQ i q).sub = t.sub := rfl
@[simp] theorem setQ_uns (t : Strand) (i : Nat) (q : Stream) : (t.setQ i q).uns = t.uns := rfl
@[simp] theorem setQ_ichan (t : Strand) (i : Nat) (q : Stream) : (t.setQ i q).ichan = t.ichan := rfl
@[simp] theorem setQ_cause (t : Strand) (i : Nat) (q : Stream) : (t.setQ i q).cause = t.cause := rfl
@[simp] theorem setQ_epc (t : Strand) (i : Nat) (q : Stream) : (t.setQ i q).epc = t.epc := rfl
@[simp] theorem setQ_tval (t : Strand) (i : Nat) (q : Stream) : (t.setQ i q).tval = t.tval := rfl
@[simp] theorem setQ_nS (t : Strand) (i : Nat) (q : Stream) : (t.setQ i q).nS = t.nS := rfl
@[simp] theorem setQ_nV (t : Strand) (i : Nat) (q : Stream) : (t.setQ i q).nV = t.nV := rfl
@[simp] theorem setQ_nK (t : Strand) (i : Nat) (q : Stream) : (t.setQ i q).nK = t.nK := rfl
@[simp] theorem setQ_watch (t : Strand) (i : Nat) (q : Stream) : (t.setQ i q).watch = t.watch := rfl
@[simp] theorem setQ_hor (t : Strand) (i : Nat) (q : Stream) : (t.setQ i q).hor = t.hor := rfl
@[simp] theorem setQ_flr (t : Strand) (i : Nat) (q : Stream) : (t.setQ i q).flr = t.flr := rfl
@[simp] theorem setQ_rdMax (t : Strand) (i : Nat) (q : Stream) : (t.setQ i q).rdMax = t.rdMax := rfl
@[simp] theorem setQ_repCp (t : Strand) (i : Nat) (q : Stream) : (t.setQ i q).repCp = t.repCp := rfl
@[simp] theorem setQ_repTl (t : Strand) (i : Nat) (q : Stream) : (t.setQ i q).repTl = t.repTl := rfl
@[simp] theorem setQ_arrRec (t : Strand) (i : Nat) (q : Stream) : (t.setQ i q).arrRec = t.arrRec := rfl
@[simp] theorem setQ_sends (t : Strand) (i : Nat) (q : Stream) : (t.setQ i q).sends = t.sends := rfl
@[simp] theorem setQ_entering (t : Strand) (i : Nat) (q : Stream) : (t.setQ i q).entering = t.entering := rfl
@[simp] theorem setQ_faults (t : Strand) (i : Nat) (q : Stream) : (t.setQ i q).faults = t.faults := rfl
@[simp] theorem setQ_lost (t : Strand) (i : Nat) (q : Stream) : (t.setQ i q).lost = t.lost := rfl
@[simp] theorem setQ_wait (t : Strand) (i : Nat) (q : Stream) : (t.setQ i q).wait = t.wait := rfl
@[simp] theorem setQ_walk (t : Strand) (i : Nat) (q : Stream) : (t.setQ i q).walk = t.walk := rfl
@[simp] theorem setQ_walkAt (t : Strand) (i : Nat) (q : Stream) : (t.setQ i q).walkAt = t.walkAt := rfl
@[simp] theorem setQ_walked (t : Strand) (i : Nat) (q : Stream) : (t.setQ i q).walked = t.walked := rfl
@[simp] theorem setQ_cfgFrom (t : Strand) (i : Nat) (q : Stream) : (t.setQ i q).cfgFrom = t.cfgFrom := rfl
@[simp] theorem setQ_walkFail (t : Strand) (i : Nat) (q : Stream) : (t.setQ i q).walkFail = t.walkFail := rfl
@[simp] theorem setQ_trap (t : Strand) (i : Nat) (q : Stream) : (t.setQ i q).trap = t.trap := rfl
@[simp] theorem setQ_why (t : Strand) (i : Nat) (q : Stream) : (t.setQ i q).why = t.why := rfl
@[simp] theorem setQ_saveTo (t : Strand) (i : Nat) (q : Stream) : (t.setQ i q).saveTo = t.saveTo := rfl
@[simp] theorem setQ_savePos (t : Strand) (i : Nat) (q : Stream) : (t.setQ i q).savePos = t.savePos := rfl
@[simp] theorem setQ_preempt (t : Strand) (i : Nat) (q : Stream) : (t.setQ i q).preempt = t.preempt := rfl
@[simp] theorem setQ_migWord (t : Strand) (i : Nat) (q : Stream) : (t.setQ i q).migWord = t.migWord := rfl
@[simp] theorem setQ_timing (t : Strand) (i : Nat) (q : Stream) : (t.setQ i q).timing = t.timing := rfl
@[simp] theorem setQ_started (t : Strand) (i : Nat) (q : Stream) : (t.setQ i q).started = t.started := rfl
@[simp] theorem setQ_startNo (t : Strand) (i : Nat) (q : Stream) : (t.setQ i q).startNo = t.startNo := rfl
@[simp] theorem setQ_startLeft (t : Strand) (i : Nat) (q : Stream) : (t.setQ i q).startLeft = t.startLeft := rfl
@[simp] theorem setQ_hostWrites (t : Strand) (i : Nat) (q : Stream) : (t.setQ i q).hostWrites = t.hostWrites := rfl
@[simp] theorem setQ_supervisor (t : Strand) (i : Nat) (q : Stream) : (t.setQ i q).supervisor = t.supervisor := rfl
@[simp] theorem setQ_issued (t : Strand) (i : Nat) (q : Stream) : (t.setQ i q).issued = t.issued := rfl

/-! ## `goAt` -/

@[simp] theorem goAt_st (t : Strand) (p : BitVec 48) : (t.goAt p).st = t.st := rfl
@[simp] theorem goAt_task (t : Strand) (p : BitVec 48) : (t.goAt p).task = t.task := rfl
@[simp] theorem goAt_ctx (t : Strand) (p : BitVec 48) : (t.goAt p).ctx = t.ctx := rfl
@[simp] theorem goAt_asid (t : Strand) (p : BitVec 48) : (t.goAt p).asid = t.asid := rfl
@[simp] theorem goAt_chan (t : Strand) (p : BitVec 48) : (t.goAt p).chan = t.chan := rfl
@[simp] theorem goAt_seq (t : Strand) (p : BitVec 48) : (t.goAt p).seq = t.seq := rfl
@[simp] theorem goAt_sreg (t : Strand) (p : BitVec 48) : (t.goAt p).sreg = t.sreg := rfl
@[simp] theorem goAt_vreg (t : Strand) (p : BitVec 48) : (t.goAt p).vreg = t.vreg := rfl
@[simp] theorem goAt_kreg (t : Strand) (p : BitVec 48) : (t.goAt p).kreg = t.kreg := rfl
@[simp] theorem goAt_win (t : Strand) (p : BitVec 48) : (t.goAt p).win = t.win := rfl
@[simp] theorem goAt_ereg (t : Strand) (p : BitVec 48) : (t.goAt p).ereg = t.ereg := rfl
@[simp] theorem goAt_xi (t : Strand) (p : BitVec 48) : (t.goAt p).xi = t.xi := rfl
@[simp] theorem goAt_fmt (t : Strand) (p : BitVec 48) : (t.goAt p).fmt = t.fmt := rfl
@[simp] theorem goAt_strm (t : Strand) (p : BitVec 48) : (t.goAt p).strm = t.strm := rfl
@[simp] theorem goAt_msgid (t : Strand) (p : BitVec 48) : (t.goAt p).msgid = t.msgid := rfl
@[simp] theorem goAt_budget (t : Strand) (p : BitVec 48) : (t.goAt p).budget = t.budget := rfl
@[simp] theorem goAt_unb (t : Strand) (p : BitVec 48) : (t.goAt p).unb = t.unb := rfl
@[simp] theorem goAt_capped (t : Strand) (p : BitVec 48) : (t.goAt p).capped = t.capped := rfl
@[simp] theorem goAt_cLd (t : Strand) (p : BitVec 48) : (t.goAt p).cLd = t.cLd := rfl
@[simp] theorem goAt_cSt (t : Strand) (p : BitVec 48) : (t.goAt p).cSt = t.cSt := rfl
@[simp] theorem goAt_cCp (t : Strand) (p : BitVec 48) : (t.goAt p).cCp = t.cCp := rfl
@[simp] theorem goAt_cTl (t : Strand) (p : BitVec 48) : (t.goAt p).cTl = t.cTl := rfl
@[simp] theorem goAt_spdisc (t : Strand) (p : BitVec 48) : (t.goAt p).spdisc = t.spdisc := rfl
@[simp] theorem goAt_timed (t : Strand) (p : BitVec 48) : (t.goAt p).timed = t.timed := rfl
@[simp] theorem goAt_fromTimed (t : Strand) (p : BitVec 48) : (t.goAt p).fromTimed = t.fromTimed := rfl
@[simp] theorem goAt_level (t : Strand) (p : BitVec 48) : (t.goAt p).level = t.level := rfl
@[simp] theorem goAt_priv (t : Strand) (p : BitVec 48) : (t.goAt p).priv = t.priv := rfl
@[simp] theorem goAt_pub (t : Strand) (p : BitVec 48) : (t.goAt p).pub = t.pub := rfl
@[simp] theorem goAt_sub (t : Strand) (p : BitVec 48) : (t.goAt p).sub = t.sub := rfl
@[simp] theorem goAt_uns (t : Strand) (p : BitVec 48) : (t.goAt p).uns = t.uns := rfl
@[simp] theorem goAt_ichan (t : Strand) (p : BitVec 48) : (t.goAt p).ichan = t.ichan := rfl
@[simp] theorem goAt_cause (t : Strand) (p : BitVec 48) : (t.goAt p).cause = t.cause := rfl
@[simp] theorem goAt_epc (t : Strand) (p : BitVec 48) : (t.goAt p).epc = t.epc := rfl
@[simp] theorem goAt_tval (t : Strand) (p : BitVec 48) : (t.goAt p).tval = t.tval := rfl
@[simp] theorem goAt_nS (t : Strand) (p : BitVec 48) : (t.goAt p).nS = t.nS := rfl
@[simp] theorem goAt_nV (t : Strand) (p : BitVec 48) : (t.goAt p).nV = t.nV := rfl
@[simp] theorem goAt_nK (t : Strand) (p : BitVec 48) : (t.goAt p).nK = t.nK := rfl
@[simp] theorem goAt_watch (t : Strand) (p : BitVec 48) : (t.goAt p).watch = t.watch := rfl
@[simp] theorem goAt_hor (t : Strand) (p : BitVec 48) : (t.goAt p).hor = t.hor := rfl
@[simp] theorem goAt_flr (t : Strand) (p : BitVec 48) : (t.goAt p).flr = t.flr := rfl
@[simp] theorem goAt_rdMax (t : Strand) (p : BitVec 48) : (t.goAt p).rdMax = t.rdMax := rfl
@[simp] theorem goAt_repCp (t : Strand) (p : BitVec 48) : (t.goAt p).repCp = t.repCp := rfl
@[simp] theorem goAt_repTl (t : Strand) (p : BitVec 48) : (t.goAt p).repTl = t.repTl := rfl
@[simp] theorem goAt_arrRec (t : Strand) (p : BitVec 48) : (t.goAt p).arrRec = t.arrRec := rfl
@[simp] theorem goAt_sends (t : Strand) (p : BitVec 48) : (t.goAt p).sends = t.sends := rfl
@[simp] theorem goAt_entering (t : Strand) (p : BitVec 48) : (t.goAt p).entering = t.entering := rfl
@[simp] theorem goAt_faults (t : Strand) (p : BitVec 48) : (t.goAt p).faults = t.faults := rfl
@[simp] theorem goAt_lost (t : Strand) (p : BitVec 48) : (t.goAt p).lost = t.lost := rfl
@[simp] theorem goAt_walk (t : Strand) (p : BitVec 48) : (t.goAt p).walk = t.walk := rfl
@[simp] theorem goAt_walkAt (t : Strand) (p : BitVec 48) : (t.goAt p).walkAt = t.walkAt := rfl
@[simp] theorem goAt_trap (t : Strand) (p : BitVec 48) : (t.goAt p).trap = t.trap := rfl
@[simp] theorem goAt_why (t : Strand) (p : BitVec 48) : (t.goAt p).why = t.why := rfl
@[simp] theorem goAt_saveTo (t : Strand) (p : BitVec 48) : (t.goAt p).saveTo = t.saveTo := rfl
@[simp] theorem goAt_savePos (t : Strand) (p : BitVec 48) : (t.goAt p).savePos = t.savePos := rfl
@[simp] theorem goAt_preempt (t : Strand) (p : BitVec 48) : (t.goAt p).preempt = t.preempt := rfl
@[simp] theorem goAt_migWord (t : Strand) (p : BitVec 48) : (t.goAt p).migWord = t.migWord := rfl
@[simp] theorem goAt_timing (t : Strand) (p : BitVec 48) : (t.goAt p).timing = t.timing := rfl
@[simp] theorem goAt_started (t : Strand) (p : BitVec 48) : (t.goAt p).started = t.started := rfl
@[simp] theorem goAt_startNo (t : Strand) (p : BitVec 48) : (t.goAt p).startNo = t.startNo := rfl
@[simp] theorem goAt_startLeft (t : Strand) (p : BitVec 48) : (t.goAt p).startLeft = t.startLeft := rfl
@[simp] theorem goAt_hostWrites (t : Strand) (p : BitVec 48) : (t.goAt p).hostWrites = t.hostWrites := rfl
@[simp] theorem goAt_supervisor (t : Strand) (p : BitVec 48) : (t.goAt p).supervisor = t.supervisor := rfl
@[simp] theorem goAt_issued (t : Strand) (p : BitVec 48) : (t.goAt p).issued = t.issued := rfl

/-! ## `waitIn` -/

@[simp] theorem waitIn_task (t : Strand) (x : SlotState) (w : Wait) : (t.waitIn x w).task = t.task := rfl
@[simp] theorem waitIn_ctx (t : Strand) (x : SlotState) (w : Wait) : (t.waitIn x w).ctx = t.ctx := rfl
@[simp] theorem waitIn_asid (t : Strand) (x : SlotState) (w : Wait) : (t.waitIn x w).asid = t.asid := rfl
@[simp] theorem waitIn_chan (t : Strand) (x : SlotState) (w : Wait) : (t.waitIn x w).chan = t.chan := rfl
@[simp] theorem waitIn_seq (t : Strand) (x : SlotState) (w : Wait) : (t.waitIn x w).seq = t.seq := rfl
@[simp] theorem waitIn_pc (t : Strand) (x : SlotState) (w : Wait) : (t.waitIn x w).pc = t.pc := rfl
@[simp] theorem waitIn_sreg (t : Strand) (x : SlotState) (w : Wait) : (t.waitIn x w).sreg = t.sreg := rfl
@[simp] theorem waitIn_vreg (t : Strand) (x : SlotState) (w : Wait) : (t.waitIn x w).vreg = t.vreg := rfl
@[simp] theorem waitIn_kreg (t : Strand) (x : SlotState) (w : Wait) : (t.waitIn x w).kreg = t.kreg := rfl
@[simp] theorem waitIn_win (t : Strand) (x : SlotState) (w : Wait) : (t.waitIn x w).win = t.win := rfl
@[simp] theorem waitIn_ereg (t : Strand) (x : SlotState) (w : Wait) : (t.waitIn x w).ereg = t.ereg := rfl
@[simp] theorem waitIn_xi (t : Strand) (x : SlotState) (w : Wait) : (t.waitIn x w).xi = t.xi := rfl
@[simp] theorem waitIn_fmt (t : Strand) (x : SlotState) (w : Wait) : (t.waitIn x w).fmt = t.fmt := rfl
@[simp] theorem waitIn_strm (t : Strand) (x : SlotState) (w : Wait) : (t.waitIn x w).strm = t.strm := rfl
@[simp] theorem waitIn_msgid (t : Strand) (x : SlotState) (w : Wait) : (t.waitIn x w).msgid = t.msgid := rfl
@[simp] theorem waitIn_budget (t : Strand) (x : SlotState) (w : Wait) : (t.waitIn x w).budget = t.budget := rfl
@[simp] theorem waitIn_unb (t : Strand) (x : SlotState) (w : Wait) : (t.waitIn x w).unb = t.unb := rfl
@[simp] theorem waitIn_capped (t : Strand) (x : SlotState) (w : Wait) : (t.waitIn x w).capped = t.capped := rfl
@[simp] theorem waitIn_cLd (t : Strand) (x : SlotState) (w : Wait) : (t.waitIn x w).cLd = t.cLd := rfl
@[simp] theorem waitIn_cSt (t : Strand) (x : SlotState) (w : Wait) : (t.waitIn x w).cSt = t.cSt := rfl
@[simp] theorem waitIn_cCp (t : Strand) (x : SlotState) (w : Wait) : (t.waitIn x w).cCp = t.cCp := rfl
@[simp] theorem waitIn_cTl (t : Strand) (x : SlotState) (w : Wait) : (t.waitIn x w).cTl = t.cTl := rfl
@[simp] theorem waitIn_spdisc (t : Strand) (x : SlotState) (w : Wait) : (t.waitIn x w).spdisc = t.spdisc := rfl
@[simp] theorem waitIn_timed (t : Strand) (x : SlotState) (w : Wait) : (t.waitIn x w).timed = t.timed := rfl
@[simp] theorem waitIn_fromTimed (t : Strand) (x : SlotState) (w : Wait) : (t.waitIn x w).fromTimed = t.fromTimed := rfl
@[simp] theorem waitIn_level (t : Strand) (x : SlotState) (w : Wait) : (t.waitIn x w).level = t.level := rfl
@[simp] theorem waitIn_priv (t : Strand) (x : SlotState) (w : Wait) : (t.waitIn x w).priv = t.priv := rfl
@[simp] theorem waitIn_pub (t : Strand) (x : SlotState) (w : Wait) : (t.waitIn x w).pub = t.pub := rfl
@[simp] theorem waitIn_sub (t : Strand) (x : SlotState) (w : Wait) : (t.waitIn x w).sub = t.sub := rfl
@[simp] theorem waitIn_uns (t : Strand) (x : SlotState) (w : Wait) : (t.waitIn x w).uns = t.uns := rfl
@[simp] theorem waitIn_ichan (t : Strand) (x : SlotState) (w : Wait) : (t.waitIn x w).ichan = t.ichan := rfl
@[simp] theorem waitIn_cause (t : Strand) (x : SlotState) (w : Wait) : (t.waitIn x w).cause = t.cause := rfl
@[simp] theorem waitIn_epc (t : Strand) (x : SlotState) (w : Wait) : (t.waitIn x w).epc = t.epc := rfl
@[simp] theorem waitIn_tval (t : Strand) (x : SlotState) (w : Wait) : (t.waitIn x w).tval = t.tval := rfl
@[simp] theorem waitIn_nS (t : Strand) (x : SlotState) (w : Wait) : (t.waitIn x w).nS = t.nS := rfl
@[simp] theorem waitIn_nV (t : Strand) (x : SlotState) (w : Wait) : (t.waitIn x w).nV = t.nV := rfl
@[simp] theorem waitIn_nK (t : Strand) (x : SlotState) (w : Wait) : (t.waitIn x w).nK = t.nK := rfl
@[simp] theorem waitIn_watch (t : Strand) (x : SlotState) (w : Wait) : (t.waitIn x w).watch = t.watch := rfl
@[simp] theorem waitIn_hor (t : Strand) (x : SlotState) (w : Wait) : (t.waitIn x w).hor = t.hor := rfl
@[simp] theorem waitIn_flr (t : Strand) (x : SlotState) (w : Wait) : (t.waitIn x w).flr = t.flr := rfl
@[simp] theorem waitIn_rdMax (t : Strand) (x : SlotState) (w : Wait) : (t.waitIn x w).rdMax = t.rdMax := rfl
@[simp] theorem waitIn_repCp (t : Strand) (x : SlotState) (w : Wait) : (t.waitIn x w).repCp = t.repCp := rfl
@[simp] theorem waitIn_repTl (t : Strand) (x : SlotState) (w : Wait) : (t.waitIn x w).repTl = t.repTl := rfl
@[simp] theorem waitIn_arrRec (t : Strand) (x : SlotState) (w : Wait) : (t.waitIn x w).arrRec = t.arrRec := rfl
@[simp] theorem waitIn_sends (t : Strand) (x : SlotState) (w : Wait) : (t.waitIn x w).sends = t.sends := rfl
@[simp] theorem waitIn_entering (t : Strand) (x : SlotState) (w : Wait) : (t.waitIn x w).entering = t.entering := rfl
@[simp] theorem waitIn_faults (t : Strand) (x : SlotState) (w : Wait) : (t.waitIn x w).faults = t.faults := rfl
@[simp] theorem waitIn_lost (t : Strand) (x : SlotState) (w : Wait) : (t.waitIn x w).lost = t.lost := rfl
@[simp] theorem waitIn_walk (t : Strand) (x : SlotState) (w : Wait) : (t.waitIn x w).walk = t.walk := rfl
@[simp] theorem waitIn_walkAt (t : Strand) (x : SlotState) (w : Wait) : (t.waitIn x w).walkAt = t.walkAt := rfl
@[simp] theorem waitIn_walked (t : Strand) (x : SlotState) (w : Wait) : (t.waitIn x w).walked = t.walked := rfl
@[simp] theorem waitIn_cfgFrom (t : Strand) (x : SlotState) (w : Wait) : (t.waitIn x w).cfgFrom = t.cfgFrom := rfl
@[simp] theorem waitIn_walkFail (t : Strand) (x : SlotState) (w : Wait) : (t.waitIn x w).walkFail = t.walkFail := rfl
@[simp] theorem waitIn_trap (t : Strand) (x : SlotState) (w : Wait) : (t.waitIn x w).trap = t.trap := rfl
@[simp] theorem waitIn_why (t : Strand) (x : SlotState) (w : Wait) : (t.waitIn x w).why = t.why := rfl
@[simp] theorem waitIn_saveTo (t : Strand) (x : SlotState) (w : Wait) : (t.waitIn x w).saveTo = t.saveTo := rfl
@[simp] theorem waitIn_savePos (t : Strand) (x : SlotState) (w : Wait) : (t.waitIn x w).savePos = t.savePos := rfl
@[simp] theorem waitIn_preempt (t : Strand) (x : SlotState) (w : Wait) : (t.waitIn x w).preempt = t.preempt := rfl
@[simp] theorem waitIn_migWord (t : Strand) (x : SlotState) (w : Wait) : (t.waitIn x w).migWord = t.migWord := rfl
@[simp] theorem waitIn_timing (t : Strand) (x : SlotState) (w : Wait) : (t.waitIn x w).timing = t.timing := rfl
@[simp] theorem waitIn_started (t : Strand) (x : SlotState) (w : Wait) : (t.waitIn x w).started = t.started := rfl
@[simp] theorem waitIn_startNo (t : Strand) (x : SlotState) (w : Wait) : (t.waitIn x w).startNo = t.startNo := rfl
@[simp] theorem waitIn_startLeft (t : Strand) (x : SlotState) (w : Wait) : (t.waitIn x w).startLeft = t.startLeft := rfl
@[simp] theorem waitIn_hostWrites (t : Strand) (x : SlotState) (w : Wait) : (t.waitIn x w).hostWrites = t.hostWrites := rfl
@[simp] theorem waitIn_supervisor (t : Strand) (x : SlotState) (w : Wait) : (t.waitIn x w).supervisor = t.supervisor := rfl
@[simp] theorem waitIn_issued (t : Strand) (x : SlotState) (w : Wait) : (t.waitIn x w).issued = t.issued := rfl

/-! ## `rise` -/

@[simp] theorem rise_st (t : Strand) (c : Ctr) : (t.rise c).st = t.st := by cases c <;> rfl
@[simp] theorem rise_task (t : Strand) (c : Ctr) : (t.rise c).task = t.task := by cases c <;> rfl
@[simp] theorem rise_ctx (t : Strand) (c : Ctr) : (t.rise c).ctx = t.ctx := by cases c <;> rfl
@[simp] theorem rise_asid (t : Strand) (c : Ctr) : (t.rise c).asid = t.asid := by cases c <;> rfl
@[simp] theorem rise_chan (t : Strand) (c : Ctr) : (t.rise c).chan = t.chan := by cases c <;> rfl
@[simp] theorem rise_seq (t : Strand) (c : Ctr) : (t.rise c).seq = t.seq := by cases c <;> rfl
@[simp] theorem rise_pc (t : Strand) (c : Ctr) : (t.rise c).pc = t.pc := by cases c <;> rfl
@[simp] theorem rise_sreg (t : Strand) (c : Ctr) : (t.rise c).sreg = t.sreg := by cases c <;> rfl
@[simp] theorem rise_vreg (t : Strand) (c : Ctr) : (t.rise c).vreg = t.vreg := by cases c <;> rfl
@[simp] theorem rise_kreg (t : Strand) (c : Ctr) : (t.rise c).kreg = t.kreg := by cases c <;> rfl
@[simp] theorem rise_win (t : Strand) (c : Ctr) : (t.rise c).win = t.win := by cases c <;> rfl
@[simp] theorem rise_ereg (t : Strand) (c : Ctr) : (t.rise c).ereg = t.ereg := by cases c <;> rfl
@[simp] theorem rise_xi (t : Strand) (c : Ctr) : (t.rise c).xi = t.xi := by cases c <;> rfl
@[simp] theorem rise_fmt (t : Strand) (c : Ctr) : (t.rise c).fmt = t.fmt := by cases c <;> rfl
@[simp] theorem rise_strm (t : Strand) (c : Ctr) : (t.rise c).strm = t.strm := by cases c <;> rfl
@[simp] theorem rise_msgid (t : Strand) (c : Ctr) : (t.rise c).msgid = t.msgid := by cases c <;> rfl
@[simp] theorem rise_budget (t : Strand) (c : Ctr) : (t.rise c).budget = t.budget := by cases c <;> rfl
@[simp] theorem rise_unb (t : Strand) (c : Ctr) : (t.rise c).unb = t.unb := by cases c <;> rfl
@[simp] theorem rise_capped (t : Strand) (c : Ctr) : (t.rise c).capped = t.capped := by cases c <;> rfl
@[simp] theorem rise_spdisc (t : Strand) (c : Ctr) : (t.rise c).spdisc = t.spdisc := by cases c <;> rfl
@[simp] theorem rise_timed (t : Strand) (c : Ctr) : (t.rise c).timed = t.timed := by cases c <;> rfl
@[simp] theorem rise_fromTimed (t : Strand) (c : Ctr) : (t.rise c).fromTimed = t.fromTimed := by cases c <;> rfl
@[simp] theorem rise_level (t : Strand) (c : Ctr) : (t.rise c).level = t.level := by cases c <;> rfl
@[simp] theorem rise_priv (t : Strand) (c : Ctr) : (t.rise c).priv = t.priv := by cases c <;> rfl
@[simp] theorem rise_pub (t : Strand) (c : Ctr) : (t.rise c).pub = t.pub := by cases c <;> rfl
@[simp] theorem rise_sub (t : Strand) (c : Ctr) : (t.rise c).sub = t.sub := by cases c <;> rfl
@[simp] theorem rise_uns (t : Strand) (c : Ctr) : (t.rise c).uns = t.uns := by cases c <;> rfl
@[simp] theorem rise_ichan (t : Strand) (c : Ctr) : (t.rise c).ichan = t.ichan := by cases c <;> rfl
@[simp] theorem rise_cause (t : Strand) (c : Ctr) : (t.rise c).cause = t.cause := by cases c <;> rfl
@[simp] theorem rise_epc (t : Strand) (c : Ctr) : (t.rise c).epc = t.epc := by cases c <;> rfl
@[simp] theorem rise_tval (t : Strand) (c : Ctr) : (t.rise c).tval = t.tval := by cases c <;> rfl
@[simp] theorem rise_nS (t : Strand) (c : Ctr) : (t.rise c).nS = t.nS := by cases c <;> rfl
@[simp] theorem rise_nV (t : Strand) (c : Ctr) : (t.rise c).nV = t.nV := by cases c <;> rfl
@[simp] theorem rise_nK (t : Strand) (c : Ctr) : (t.rise c).nK = t.nK := by cases c <;> rfl
@[simp] theorem rise_watch (t : Strand) (c : Ctr) : (t.rise c).watch = t.watch := by cases c <;> rfl
@[simp] theorem rise_hor (t : Strand) (c : Ctr) : (t.rise c).hor = t.hor := by cases c <;> rfl
@[simp] theorem rise_flr (t : Strand) (c : Ctr) : (t.rise c).flr = t.flr := by cases c <;> rfl
@[simp] theorem rise_rdMax (t : Strand) (c : Ctr) : (t.rise c).rdMax = t.rdMax := by cases c <;> rfl
@[simp] theorem rise_repCp (t : Strand) (c : Ctr) : (t.rise c).repCp = t.repCp := by cases c <;> rfl
@[simp] theorem rise_repTl (t : Strand) (c : Ctr) : (t.rise c).repTl = t.repTl := by cases c <;> rfl
@[simp] theorem rise_arrRec (t : Strand) (c : Ctr) : (t.rise c).arrRec = t.arrRec := by cases c <;> rfl
@[simp] theorem rise_sends (t : Strand) (c : Ctr) : (t.rise c).sends = t.sends := by cases c <;> rfl
@[simp] theorem rise_entering (t : Strand) (c : Ctr) : (t.rise c).entering = t.entering := by cases c <;> rfl
@[simp] theorem rise_faults (t : Strand) (c : Ctr) : (t.rise c).faults = t.faults := by cases c <;> rfl
@[simp] theorem rise_lost (t : Strand) (c : Ctr) : (t.rise c).lost = t.lost := by cases c <;> rfl
@[simp] theorem rise_wait (t : Strand) (c : Ctr) : (t.rise c).wait = t.wait := by cases c <;> rfl
@[simp] theorem rise_walk (t : Strand) (c : Ctr) : (t.rise c).walk = t.walk := by cases c <;> rfl
@[simp] theorem rise_walkAt (t : Strand) (c : Ctr) : (t.rise c).walkAt = t.walkAt := by cases c <;> rfl
@[simp] theorem rise_walked (t : Strand) (c : Ctr) : (t.rise c).walked = t.walked := by cases c <;> rfl
@[simp] theorem rise_cfgFrom (t : Strand) (c : Ctr) : (t.rise c).cfgFrom = t.cfgFrom := by cases c <;> rfl
@[simp] theorem rise_walkFail (t : Strand) (c : Ctr) : (t.rise c).walkFail = t.walkFail := by cases c <;> rfl
@[simp] theorem rise_trap (t : Strand) (c : Ctr) : (t.rise c).trap = t.trap := by cases c <;> rfl
@[simp] theorem rise_why (t : Strand) (c : Ctr) : (t.rise c).why = t.why := by cases c <;> rfl
@[simp] theorem rise_saveTo (t : Strand) (c : Ctr) : (t.rise c).saveTo = t.saveTo := by cases c <;> rfl
@[simp] theorem rise_savePos (t : Strand) (c : Ctr) : (t.rise c).savePos = t.savePos := by cases c <;> rfl
@[simp] theorem rise_preempt (t : Strand) (c : Ctr) : (t.rise c).preempt = t.preempt := by cases c <;> rfl
@[simp] theorem rise_migWord (t : Strand) (c : Ctr) : (t.rise c).migWord = t.migWord := by cases c <;> rfl
@[simp] theorem rise_timing (t : Strand) (c : Ctr) : (t.rise c).timing = t.timing := by cases c <;> rfl
@[simp] theorem rise_started (t : Strand) (c : Ctr) : (t.rise c).started = t.started := by cases c <;> rfl
@[simp] theorem rise_startNo (t : Strand) (c : Ctr) : (t.rise c).startNo = t.startNo := by cases c <;> rfl
@[simp] theorem rise_startLeft (t : Strand) (c : Ctr) : (t.rise c).startLeft = t.startLeft := by cases c <;> rfl
@[simp] theorem rise_hostWrites (t : Strand) (c : Ctr) : (t.rise c).hostWrites = t.hostWrites := by cases c <;> rfl
@[simp] theorem rise_supervisor (t : Strand) (c : Ctr) : (t.rise c).supervisor = t.supervisor := by cases c <;> rfl
@[simp] theorem rise_issued (t : Strand) (c : Ctr) : (t.rise c).issued = t.issued := by cases c <;> rfl

/-! ## `fall` -/

@[simp] theorem fall_st (t : Strand) (c : Ctr) : (t.fall c).st = t.st := by cases c <;> rfl
@[simp] theorem fall_task (t : Strand) (c : Ctr) : (t.fall c).task = t.task := by cases c <;> rfl
@[simp] theorem fall_ctx (t : Strand) (c : Ctr) : (t.fall c).ctx = t.ctx := by cases c <;> rfl
@[simp] theorem fall_asid (t : Strand) (c : Ctr) : (t.fall c).asid = t.asid := by cases c <;> rfl
@[simp] theorem fall_chan (t : Strand) (c : Ctr) : (t.fall c).chan = t.chan := by cases c <;> rfl
@[simp] theorem fall_seq (t : Strand) (c : Ctr) : (t.fall c).seq = t.seq := by cases c <;> rfl
@[simp] theorem fall_pc (t : Strand) (c : Ctr) : (t.fall c).pc = t.pc := by cases c <;> rfl
@[simp] theorem fall_sreg (t : Strand) (c : Ctr) : (t.fall c).sreg = t.sreg := by cases c <;> rfl
@[simp] theorem fall_vreg (t : Strand) (c : Ctr) : (t.fall c).vreg = t.vreg := by cases c <;> rfl
@[simp] theorem fall_kreg (t : Strand) (c : Ctr) : (t.fall c).kreg = t.kreg := by cases c <;> rfl
@[simp] theorem fall_win (t : Strand) (c : Ctr) : (t.fall c).win = t.win := by cases c <;> rfl
@[simp] theorem fall_ereg (t : Strand) (c : Ctr) : (t.fall c).ereg = t.ereg := by cases c <;> rfl
@[simp] theorem fall_xi (t : Strand) (c : Ctr) : (t.fall c).xi = t.xi := by cases c <;> rfl
@[simp] theorem fall_fmt (t : Strand) (c : Ctr) : (t.fall c).fmt = t.fmt := by cases c <;> rfl
@[simp] theorem fall_strm (t : Strand) (c : Ctr) : (t.fall c).strm = t.strm := by cases c <;> rfl
@[simp] theorem fall_msgid (t : Strand) (c : Ctr) : (t.fall c).msgid = t.msgid := by cases c <;> rfl
@[simp] theorem fall_budget (t : Strand) (c : Ctr) : (t.fall c).budget = t.budget := by cases c <;> rfl
@[simp] theorem fall_unb (t : Strand) (c : Ctr) : (t.fall c).unb = t.unb := by cases c <;> rfl
@[simp] theorem fall_capped (t : Strand) (c : Ctr) : (t.fall c).capped = t.capped := by cases c <;> rfl
@[simp] theorem fall_spdisc (t : Strand) (c : Ctr) : (t.fall c).spdisc = t.spdisc := by cases c <;> rfl
@[simp] theorem fall_timed (t : Strand) (c : Ctr) : (t.fall c).timed = t.timed := by cases c <;> rfl
@[simp] theorem fall_fromTimed (t : Strand) (c : Ctr) : (t.fall c).fromTimed = t.fromTimed := by cases c <;> rfl
@[simp] theorem fall_level (t : Strand) (c : Ctr) : (t.fall c).level = t.level := by cases c <;> rfl
@[simp] theorem fall_priv (t : Strand) (c : Ctr) : (t.fall c).priv = t.priv := by cases c <;> rfl
@[simp] theorem fall_pub (t : Strand) (c : Ctr) : (t.fall c).pub = t.pub := by cases c <;> rfl
@[simp] theorem fall_sub (t : Strand) (c : Ctr) : (t.fall c).sub = t.sub := by cases c <;> rfl
@[simp] theorem fall_uns (t : Strand) (c : Ctr) : (t.fall c).uns = t.uns := by cases c <;> rfl
@[simp] theorem fall_ichan (t : Strand) (c : Ctr) : (t.fall c).ichan = t.ichan := by cases c <;> rfl
@[simp] theorem fall_cause (t : Strand) (c : Ctr) : (t.fall c).cause = t.cause := by cases c <;> rfl
@[simp] theorem fall_epc (t : Strand) (c : Ctr) : (t.fall c).epc = t.epc := by cases c <;> rfl
@[simp] theorem fall_tval (t : Strand) (c : Ctr) : (t.fall c).tval = t.tval := by cases c <;> rfl
@[simp] theorem fall_nS (t : Strand) (c : Ctr) : (t.fall c).nS = t.nS := by cases c <;> rfl
@[simp] theorem fall_nV (t : Strand) (c : Ctr) : (t.fall c).nV = t.nV := by cases c <;> rfl
@[simp] theorem fall_nK (t : Strand) (c : Ctr) : (t.fall c).nK = t.nK := by cases c <;> rfl
@[simp] theorem fall_watch (t : Strand) (c : Ctr) : (t.fall c).watch = t.watch := by cases c <;> rfl
@[simp] theorem fall_hor (t : Strand) (c : Ctr) : (t.fall c).hor = t.hor := by cases c <;> rfl
@[simp] theorem fall_flr (t : Strand) (c : Ctr) : (t.fall c).flr = t.flr := by cases c <;> rfl
@[simp] theorem fall_rdMax (t : Strand) (c : Ctr) : (t.fall c).rdMax = t.rdMax := by cases c <;> rfl
@[simp] theorem fall_repCp (t : Strand) (c : Ctr) : (t.fall c).repCp = t.repCp := by cases c <;> rfl
@[simp] theorem fall_repTl (t : Strand) (c : Ctr) : (t.fall c).repTl = t.repTl := by cases c <;> rfl
@[simp] theorem fall_arrRec (t : Strand) (c : Ctr) : (t.fall c).arrRec = t.arrRec := by cases c <;> rfl
@[simp] theorem fall_sends (t : Strand) (c : Ctr) : (t.fall c).sends = t.sends := by cases c <;> rfl
@[simp] theorem fall_entering (t : Strand) (c : Ctr) : (t.fall c).entering = t.entering := by cases c <;> rfl
@[simp] theorem fall_faults (t : Strand) (c : Ctr) : (t.fall c).faults = t.faults := by cases c <;> rfl
@[simp] theorem fall_lost (t : Strand) (c : Ctr) : (t.fall c).lost = t.lost := by cases c <;> rfl
@[simp] theorem fall_wait (t : Strand) (c : Ctr) : (t.fall c).wait = t.wait := by cases c <;> rfl
@[simp] theorem fall_walk (t : Strand) (c : Ctr) : (t.fall c).walk = t.walk := by cases c <;> rfl
@[simp] theorem fall_walkAt (t : Strand) (c : Ctr) : (t.fall c).walkAt = t.walkAt := by cases c <;> rfl
@[simp] theorem fall_walked (t : Strand) (c : Ctr) : (t.fall c).walked = t.walked := by cases c <;> rfl
@[simp] theorem fall_cfgFrom (t : Strand) (c : Ctr) : (t.fall c).cfgFrom = t.cfgFrom := by cases c <;> rfl
@[simp] theorem fall_walkFail (t : Strand) (c : Ctr) : (t.fall c).walkFail = t.walkFail := by cases c <;> rfl
@[simp] theorem fall_trap (t : Strand) (c : Ctr) : (t.fall c).trap = t.trap := by cases c <;> rfl
@[simp] theorem fall_why (t : Strand) (c : Ctr) : (t.fall c).why = t.why := by cases c <;> rfl
@[simp] theorem fall_saveTo (t : Strand) (c : Ctr) : (t.fall c).saveTo = t.saveTo := by cases c <;> rfl
@[simp] theorem fall_savePos (t : Strand) (c : Ctr) : (t.fall c).savePos = t.savePos := by cases c <;> rfl
@[simp] theorem fall_preempt (t : Strand) (c : Ctr) : (t.fall c).preempt = t.preempt := by cases c <;> rfl
@[simp] theorem fall_migWord (t : Strand) (c : Ctr) : (t.fall c).migWord = t.migWord := by cases c <;> rfl
@[simp] theorem fall_timing (t : Strand) (c : Ctr) : (t.fall c).timing = t.timing := by cases c <;> rfl
@[simp] theorem fall_started (t : Strand) (c : Ctr) : (t.fall c).started = t.started := by cases c <;> rfl
@[simp] theorem fall_startNo (t : Strand) (c : Ctr) : (t.fall c).startNo = t.startNo := by cases c <;> rfl
@[simp] theorem fall_startLeft (t : Strand) (c : Ctr) : (t.fall c).startLeft = t.startLeft := by cases c <;> rfl
@[simp] theorem fall_hostWrites (t : Strand) (c : Ctr) : (t.fall c).hostWrites = t.hostWrites := by cases c <;> rfl
@[simp] theorem fall_supervisor (t : Strand) (c : Ctr) : (t.fall c).supervisor = t.supervisor := by cases c <;> rfl
@[simp] theorem fall_issued (t : Strand) (c : Ctr) : (t.fall c).issued = t.issued := by cases c <;> rfl

/-! ## `raise` -/

@[simp] theorem raise_st (t : Strand) (fl : Flags) (x : Bool) : (t.raise fl x).st = t.st := rfl
@[simp] theorem raise_task (t : Strand) (fl : Flags) (x : Bool) : (t.raise fl x).task = t.task := rfl
@[simp] theorem raise_ctx (t : Strand) (fl : Flags) (x : Bool) : (t.raise fl x).ctx = t.ctx := rfl
@[simp] theorem raise_asid (t : Strand) (fl : Flags) (x : Bool) : (t.raise fl x).asid = t.asid := rfl
@[simp] theorem raise_chan (t : Strand) (fl : Flags) (x : Bool) : (t.raise fl x).chan = t.chan := rfl
@[simp] theorem raise_seq (t : Strand) (fl : Flags) (x : Bool) : (t.raise fl x).seq = t.seq := rfl
@[simp] theorem raise_pc (t : Strand) (fl : Flags) (x : Bool) : (t.raise fl x).pc = t.pc := rfl
@[simp] theorem raise_sreg (t : Strand) (fl : Flags) (x : Bool) : (t.raise fl x).sreg = t.sreg := rfl
@[simp] theorem raise_vreg (t : Strand) (fl : Flags) (x : Bool) : (t.raise fl x).vreg = t.vreg := rfl
@[simp] theorem raise_kreg (t : Strand) (fl : Flags) (x : Bool) : (t.raise fl x).kreg = t.kreg := rfl
@[simp] theorem raise_win (t : Strand) (fl : Flags) (x : Bool) : (t.raise fl x).win = t.win := rfl
@[simp] theorem raise_ereg (t : Strand) (fl : Flags) (x : Bool) : (t.raise fl x).ereg = t.ereg := rfl
@[simp] theorem raise_xi (t : Strand) (fl : Flags) (x : Bool) : (t.raise fl x).xi = t.xi := rfl
@[simp] theorem raise_strm (t : Strand) (fl : Flags) (x : Bool) : (t.raise fl x).strm = t.strm := rfl
@[simp] theorem raise_msgid (t : Strand) (fl : Flags) (x : Bool) : (t.raise fl x).msgid = t.msgid := rfl
@[simp] theorem raise_budget (t : Strand) (fl : Flags) (x : Bool) : (t.raise fl x).budget = t.budget := rfl
@[simp] theorem raise_unb (t : Strand) (fl : Flags) (x : Bool) : (t.raise fl x).unb = t.unb := rfl
@[simp] theorem raise_capped (t : Strand) (fl : Flags) (x : Bool) : (t.raise fl x).capped = t.capped := rfl
@[simp] theorem raise_cLd (t : Strand) (fl : Flags) (x : Bool) : (t.raise fl x).cLd = t.cLd := rfl
@[simp] theorem raise_cSt (t : Strand) (fl : Flags) (x : Bool) : (t.raise fl x).cSt = t.cSt := rfl
@[simp] theorem raise_cCp (t : Strand) (fl : Flags) (x : Bool) : (t.raise fl x).cCp = t.cCp := rfl
@[simp] theorem raise_cTl (t : Strand) (fl : Flags) (x : Bool) : (t.raise fl x).cTl = t.cTl := rfl
@[simp] theorem raise_spdisc (t : Strand) (fl : Flags) (x : Bool) : (t.raise fl x).spdisc = t.spdisc := rfl
@[simp] theorem raise_timed (t : Strand) (fl : Flags) (x : Bool) : (t.raise fl x).timed = t.timed := rfl
@[simp] theorem raise_fromTimed (t : Strand) (fl : Flags) (x : Bool) : (t.raise fl x).fromTimed = t.fromTimed := rfl
@[simp] theorem raise_level (t : Strand) (fl : Flags) (x : Bool) : (t.raise fl x).level = t.level := rfl
@[simp] theorem raise_priv (t : Strand) (fl : Flags) (x : Bool) : (t.raise fl x).priv = t.priv := rfl
@[simp] theorem raise_pub (t : Strand) (fl : Flags) (x : Bool) : (t.raise fl x).pub = t.pub := rfl
@[simp] theorem raise_sub (t : Strand) (fl : Flags) (x : Bool) : (t.raise fl x).sub = t.sub := rfl
@[simp] theorem raise_uns (t : Strand) (fl : Flags) (x : Bool) : (t.raise fl x).uns = t.uns := rfl
@[simp] theorem raise_ichan (t : Strand) (fl : Flags) (x : Bool) : (t.raise fl x).ichan = t.ichan := rfl
@[simp] theorem raise_cause (t : Strand) (fl : Flags) (x : Bool) : (t.raise fl x).cause = t.cause := rfl
@[simp] theorem raise_epc (t : Strand) (fl : Flags) (x : Bool) : (t.raise fl x).epc = t.epc := rfl
@[simp] theorem raise_tval (t : Strand) (fl : Flags) (x : Bool) : (t.raise fl x).tval = t.tval := rfl
@[simp] theorem raise_nS (t : Strand) (fl : Flags) (x : Bool) : (t.raise fl x).nS = t.nS := rfl
@[simp] theorem raise_nV (t : Strand) (fl : Flags) (x : Bool) : (t.raise fl x).nV = t.nV := rfl
@[simp] theorem raise_nK (t : Strand) (fl : Flags) (x : Bool) : (t.raise fl x).nK = t.nK := rfl
@[simp] theorem raise_watch (t : Strand) (fl : Flags) (x : Bool) : (t.raise fl x).watch = t.watch := rfl
@[simp] theorem raise_hor (t : Strand) (fl : Flags) (x : Bool) : (t.raise fl x).hor = t.hor := rfl
@[simp] theorem raise_flr (t : Strand) (fl : Flags) (x : Bool) : (t.raise fl x).flr = t.flr := rfl
@[simp] theorem raise_rdMax (t : Strand) (fl : Flags) (x : Bool) : (t.raise fl x).rdMax = t.rdMax := rfl
@[simp] theorem raise_repCp (t : Strand) (fl : Flags) (x : Bool) : (t.raise fl x).repCp = t.repCp := rfl
@[simp] theorem raise_repTl (t : Strand) (fl : Flags) (x : Bool) : (t.raise fl x).repTl = t.repTl := rfl
@[simp] theorem raise_arrRec (t : Strand) (fl : Flags) (x : Bool) : (t.raise fl x).arrRec = t.arrRec := rfl
@[simp] theorem raise_sends (t : Strand) (fl : Flags) (x : Bool) : (t.raise fl x).sends = t.sends := rfl
@[simp] theorem raise_entering (t : Strand) (fl : Flags) (x : Bool) : (t.raise fl x).entering = t.entering := rfl
@[simp] theorem raise_faults (t : Strand) (fl : Flags) (x : Bool) : (t.raise fl x).faults = t.faults := rfl
@[simp] theorem raise_lost (t : Strand) (fl : Flags) (x : Bool) : (t.raise fl x).lost = t.lost := rfl
@[simp] theorem raise_wait (t : Strand) (fl : Flags) (x : Bool) : (t.raise fl x).wait = t.wait := rfl
@[simp] theorem raise_walk (t : Strand) (fl : Flags) (x : Bool) : (t.raise fl x).walk = t.walk := rfl
@[simp] theorem raise_walkAt (t : Strand) (fl : Flags) (x : Bool) : (t.raise fl x).walkAt = t.walkAt := rfl
@[simp] theorem raise_walked (t : Strand) (fl : Flags) (x : Bool) : (t.raise fl x).walked = t.walked := rfl
@[simp] theorem raise_cfgFrom (t : Strand) (fl : Flags) (x : Bool) : (t.raise fl x).cfgFrom = t.cfgFrom := rfl
@[simp] theorem raise_walkFail (t : Strand) (fl : Flags) (x : Bool) : (t.raise fl x).walkFail = t.walkFail := rfl
@[simp] theorem raise_trap (t : Strand) (fl : Flags) (x : Bool) : (t.raise fl x).trap = t.trap := rfl
@[simp] theorem raise_why (t : Strand) (fl : Flags) (x : Bool) : (t.raise fl x).why = t.why := rfl
@[simp] theorem raise_saveTo (t : Strand) (fl : Flags) (x : Bool) : (t.raise fl x).saveTo = t.saveTo := rfl
@[simp] theorem raise_savePos (t : Strand) (fl : Flags) (x : Bool) : (t.raise fl x).savePos = t.savePos := rfl
@[simp] theorem raise_preempt (t : Strand) (fl : Flags) (x : Bool) : (t.raise fl x).preempt = t.preempt := rfl
@[simp] theorem raise_migWord (t : Strand) (fl : Flags) (x : Bool) : (t.raise fl x).migWord = t.migWord := rfl
@[simp] theorem raise_timing (t : Strand) (fl : Flags) (x : Bool) : (t.raise fl x).timing = t.timing := rfl
@[simp] theorem raise_started (t : Strand) (fl : Flags) (x : Bool) : (t.raise fl x).started = t.started := rfl
@[simp] theorem raise_startNo (t : Strand) (fl : Flags) (x : Bool) : (t.raise fl x).startNo = t.startNo := rfl
@[simp] theorem raise_startLeft (t : Strand) (fl : Flags) (x : Bool) : (t.raise fl x).startLeft = t.startLeft := rfl
@[simp] theorem raise_hostWrites (t : Strand) (fl : Flags) (x : Bool) : (t.raise fl x).hostWrites = t.hostWrites := rfl
@[simp] theorem raise_supervisor (t : Strand) (fl : Flags) (x : Bool) : (t.raise fl x).supervisor = t.supervisor := rfl
@[simp] theorem raise_issued (t : Strand) (fl : Flags) (x : Bool) : (t.raise fl x).issued = t.issued := rfl

/-! ## `trapTo` -/

@[simp] theorem trapTo_task (t : Strand) (x : TrapInfo) : (t.trapTo x).task = t.task := rfl
@[simp] theorem trapTo_ctx (t : Strand) (x : TrapInfo) : (t.trapTo x).ctx = t.ctx := rfl
@[simp] theorem trapTo_asid (t : Strand) (x : TrapInfo) : (t.trapTo x).asid = t.asid := rfl
@[simp] theorem trapTo_chan (t : Strand) (x : TrapInfo) : (t.trapTo x).chan = t.chan := rfl
@[simp] theorem trapTo_seq (t : Strand) (x : TrapInfo) : (t.trapTo x).seq = t.seq := rfl
@[simp] theorem trapTo_pc (t : Strand) (x : TrapInfo) : (t.trapTo x).pc = t.pc := rfl
@[simp] theorem trapTo_sreg (t : Strand) (x : TrapInfo) : (t.trapTo x).sreg = t.sreg := rfl
@[simp] theorem trapTo_vreg (t : Strand) (x : TrapInfo) : (t.trapTo x).vreg = t.vreg := rfl
@[simp] theorem trapTo_kreg (t : Strand) (x : TrapInfo) : (t.trapTo x).kreg = t.kreg := rfl
@[simp] theorem trapTo_win (t : Strand) (x : TrapInfo) : (t.trapTo x).win = t.win := rfl
@[simp] theorem trapTo_ereg (t : Strand) (x : TrapInfo) : (t.trapTo x).ereg = t.ereg := rfl
@[simp] theorem trapTo_xi (t : Strand) (x : TrapInfo) : (t.trapTo x).xi = t.xi := rfl
@[simp] theorem trapTo_fmt (t : Strand) (x : TrapInfo) : (t.trapTo x).fmt = t.fmt := rfl
@[simp] theorem trapTo_strm (t : Strand) (x : TrapInfo) : (t.trapTo x).strm = t.strm := rfl
@[simp] theorem trapTo_msgid (t : Strand) (x : TrapInfo) : (t.trapTo x).msgid = t.msgid := rfl
@[simp] theorem trapTo_budget (t : Strand) (x : TrapInfo) : (t.trapTo x).budget = t.budget := rfl
@[simp] theorem trapTo_unb (t : Strand) (x : TrapInfo) : (t.trapTo x).unb = t.unb := rfl
@[simp] theorem trapTo_capped (t : Strand) (x : TrapInfo) : (t.trapTo x).capped = t.capped := rfl
@[simp] theorem trapTo_cLd (t : Strand) (x : TrapInfo) : (t.trapTo x).cLd = t.cLd := rfl
@[simp] theorem trapTo_cSt (t : Strand) (x : TrapInfo) : (t.trapTo x).cSt = t.cSt := rfl
@[simp] theorem trapTo_cCp (t : Strand) (x : TrapInfo) : (t.trapTo x).cCp = t.cCp := rfl
@[simp] theorem trapTo_cTl (t : Strand) (x : TrapInfo) : (t.trapTo x).cTl = t.cTl := rfl
@[simp] theorem trapTo_spdisc (t : Strand) (x : TrapInfo) : (t.trapTo x).spdisc = t.spdisc := rfl
@[simp] theorem trapTo_timed (t : Strand) (x : TrapInfo) : (t.trapTo x).timed = t.timed := rfl
@[simp] theorem trapTo_fromTimed (t : Strand) (x : TrapInfo) : (t.trapTo x).fromTimed = t.fromTimed := rfl
@[simp] theorem trapTo_level (t : Strand) (x : TrapInfo) : (t.trapTo x).level = t.level := rfl
@[simp] theorem trapTo_priv (t : Strand) (x : TrapInfo) : (t.trapTo x).priv = t.priv := rfl
@[simp] theorem trapTo_pub (t : Strand) (x : TrapInfo) : (t.trapTo x).pub = t.pub := rfl
@[simp] theorem trapTo_sub (t : Strand) (x : TrapInfo) : (t.trapTo x).sub = t.sub := rfl
@[simp] theorem trapTo_uns (t : Strand) (x : TrapInfo) : (t.trapTo x).uns = t.uns := rfl
@[simp] theorem trapTo_ichan (t : Strand) (x : TrapInfo) : (t.trapTo x).ichan = t.ichan := rfl
@[simp] theorem trapTo_cause (t : Strand) (x : TrapInfo) : (t.trapTo x).cause = t.cause := rfl
@[simp] theorem trapTo_epc (t : Strand) (x : TrapInfo) : (t.trapTo x).epc = t.epc := rfl
@[simp] theorem trapTo_tval (t : Strand) (x : TrapInfo) : (t.trapTo x).tval = t.tval := rfl
@[simp] theorem trapTo_nS (t : Strand) (x : TrapInfo) : (t.trapTo x).nS = t.nS := rfl
@[simp] theorem trapTo_nV (t : Strand) (x : TrapInfo) : (t.trapTo x).nV = t.nV := rfl
@[simp] theorem trapTo_nK (t : Strand) (x : TrapInfo) : (t.trapTo x).nK = t.nK := rfl
@[simp] theorem trapTo_watch (t : Strand) (x : TrapInfo) : (t.trapTo x).watch = t.watch := rfl
@[simp] theorem trapTo_hor (t : Strand) (x : TrapInfo) : (t.trapTo x).hor = t.hor := rfl
@[simp] theorem trapTo_flr (t : Strand) (x : TrapInfo) : (t.trapTo x).flr = t.flr := rfl
@[simp] theorem trapTo_rdMax (t : Strand) (x : TrapInfo) : (t.trapTo x).rdMax = t.rdMax := rfl
@[simp] theorem trapTo_repCp (t : Strand) (x : TrapInfo) : (t.trapTo x).repCp = t.repCp := rfl
@[simp] theorem trapTo_repTl (t : Strand) (x : TrapInfo) : (t.trapTo x).repTl = t.repTl := rfl
@[simp] theorem trapTo_arrRec (t : Strand) (x : TrapInfo) : (t.trapTo x).arrRec = t.arrRec := rfl
@[simp] theorem trapTo_sends (t : Strand) (x : TrapInfo) : (t.trapTo x).sends = t.sends := rfl
@[simp] theorem trapTo_entering (t : Strand) (x : TrapInfo) : (t.trapTo x).entering = t.entering := rfl
@[simp] theorem trapTo_faults (t : Strand) (x : TrapInfo) : (t.trapTo x).faults = t.faults := rfl
@[simp] theorem trapTo_lost (t : Strand) (x : TrapInfo) : (t.trapTo x).lost = t.lost := rfl
@[simp] theorem trapTo_walkAt (t : Strand) (x : TrapInfo) : (t.trapTo x).walkAt = t.walkAt := rfl
@[simp] theorem trapTo_walked (t : Strand) (x : TrapInfo) : (t.trapTo x).walked = t.walked := rfl
@[simp] theorem trapTo_cfgFrom (t : Strand) (x : TrapInfo) : (t.trapTo x).cfgFrom = t.cfgFrom := rfl
@[simp] theorem trapTo_why (t : Strand) (x : TrapInfo) : (t.trapTo x).why = t.why := rfl
@[simp] theorem trapTo_saveTo (t : Strand) (x : TrapInfo) : (t.trapTo x).saveTo = t.saveTo := rfl
@[simp] theorem trapTo_savePos (t : Strand) (x : TrapInfo) : (t.trapTo x).savePos = t.savePos := rfl
@[simp] theorem trapTo_migWord (t : Strand) (x : TrapInfo) : (t.trapTo x).migWord = t.migWord := rfl
@[simp] theorem trapTo_timing (t : Strand) (x : TrapInfo) : (t.trapTo x).timing = t.timing := rfl
@[simp] theorem trapTo_started (t : Strand) (x : TrapInfo) : (t.trapTo x).started = t.started := rfl
@[simp] theorem trapTo_startNo (t : Strand) (x : TrapInfo) : (t.trapTo x).startNo = t.startNo := rfl
@[simp] theorem trapTo_startLeft (t : Strand) (x : TrapInfo) : (t.trapTo x).startLeft = t.startLeft := rfl
@[simp] theorem trapTo_hostWrites (t : Strand) (x : TrapInfo) : (t.trapTo x).hostWrites = t.hostWrites := rfl
@[simp] theorem trapTo_supervisor (t : Strand) (x : TrapInfo) : (t.trapTo x).supervisor = t.supervisor := rfl
@[simp] theorem trapTo_issued (t : Strand) (x : TrapInfo) : (t.trapTo x).issued = t.issued := rfl

/-! ## What an update writes -/

@[simp] theorem setCore_cores (s : State) (c : Nat) (k : Core) : (s.setCore c k).cores = mapSet s.cores c k := rfl
@[simp] theorem withLast_last (s : State) (l : Last) : (s.withLast l).last = l := rfl
@[simp] theorem fresh_nextId (s : State) : s.fresh.nextId = s.nextId + 1 := rfl
@[simp] theorem goAt_pc (t : Strand) (p : BitVec 48) : (t.goAt p).pc = p := rfl
@[simp] theorem goAt_wait (t : Strand) (p : BitVec 48) : (t.goAt p).wait = .nothing := rfl
@[simp] theorem waitIn_st (t : Strand) (x : SlotState) (w : Wait) : (t.waitIn x w).st = x := rfl
@[simp] theorem waitIn_wait (t : Strand) (x : SlotState) (w : Wait) : (t.waitIn x w).wait = w := rfl
@[simp] theorem trapTo_st (t : Strand) (x : TrapInfo) : (t.trapTo x).st = .trapping := rfl
@[simp] theorem trapTo_trap (t : Strand) (x : TrapInfo) : (t.trapTo x).trap = some x := rfl

end Sys2Proof.Machine
end

