-- ==== Sys2Proof/Tests/Slice0.lean ====
section
/-!
SUPPORT. Tests: words written out from the encoding tables of the spec decode to their instructions, ill-formed instructions are refused,
single steps give the results that the spec's rules and examples state, and states that meet the hypotheses of the statements.
-/

set_option Elab.async false

namespace Sys2Proof.Tests

open Sys2Proof Sys2Proof.Machine

/-! ## Words assembled by hand from Tables 4.11-4.16 -/

/-- Words of the group IntegerRegister, from the encodings of chapter 4. -/
theorem test_decode_IntegerRegister1 : ∀ p ∈ ([(32, 0x82532600, .add 5 6 9 true false), (32, 0x82532601, .sub 5 6 9 true false), (32, 0x82532602, .mul 5 6 9 true
       false), (32, 0x82532603, .mulh 5 6 9 true false), (32, 0x82532604, .mulhn 5 6 9 true false), (32, 0x82532605, .div 5 6 9
       true false), (32, 0x82532606, .divn 5 6 9 true false), (32, 0x82532607, .rem 5 6 9 true false), (32, 0x82532608, .remn 5
       6 9 true false), (32, 0x82532609, .and 5 6 9 true false), (32, 0x8253260A, .or 5 6 9 true false), (32, 0x8253260B, .xor
       5 6 9 true false)] :
    List (Nat × Nat × Instr)), decodeTableWord p.1 p.2.1 = some p.2.2 := by
  decide

/-- Words of the group IntegerRegister, from the encodings of chapter 4. -/
theorem test_decode_IntegerRegister2 : ∀ p ∈ ([(32, 0x8253260C, .shl 5 6 9 true false), (32, 0x8253260D, .shr 5 6 9 true false), (32, 0x8253260E, .sra 5 6 9 true
       false), (32, 0x8253260F, .slt 5 6 9 true false), (32, 0x82532610, .sltn 5 6 9 true false), (32, 0x82532611, .min 5 6 9
       true false), (32, 0x82532612, .minn 5 6 9 true false), (32, 0x82532613, .max 5 6 9 true false), (32, 0x82532614, .maxn 5
       6 9 true false), (32, 0x82530115, .clz 5 6 false true), (32, 0x82530116, .popc 5 6 false true), (32, 0x82530117, .brev 5
       6 false true)] :
    List (Nat × Nat × Instr)), decodeTableWord p.1 p.2.1 = some p.2.2 := by
  decide

/-- Words of the group IntegerRegister, from the encodings of chapter 4. -/
theorem test_decode_IntegerRegister3 : ∀ p ∈ ([(32, 0x82530198, .sext 5 6 false true 2), (32, 0x82530259, .zext 5 6 true false 1), (32, 0x8253031A, .mov 5 6 true
       true), (32, 0x82500E5A, .movStream 5 3 true), (32, 0x825F809A, .movWindow 5 7 false)] :
    List (Nat × Nat × Instr)), decodeTableWord p.1 p.2.1 = some p.2.2 := by
  decide

/-- Words of the group Immediate, from the encodings of chapter 4. -/
theorem test_decode_Immediate1 : ∀ p ∈ ([(32, 0x84530FFD, .addi 5 6 0xFFD), (32, 0x84531FFD, .andi 5 6 0xFFD), (32, 0x84532FFD, .ori 5 6 0xFFD), (32, 0x84533FFD,
       .xori 5 6 0xFFD), (32, 0x8453403F, .shli 5 6 63), (32, 0x8453503F, .shri 5 6 63), (32, 0x8453603F, .srai 5 6 63), (32,
       0x84537801, .slti 5 6 0x801), (32, 0x86532658, .sel 5 6 9 true false 11), (32, 0x8653255D, .ffma 5 6 9 false true 11 2),
       (32, 0x8A520001, .li 5 0x20001), (32, 0x8A540000, .liW 5)] :
    List (Nat × Nat × Instr)), decodeTableWord p.1 p.2.1 = some p.2.2 := by
  decide

/-- Words of the group Immediate, from the encodings of chapter 4. -/
theorem test_decode_Immediate2 : ∀ p ∈ ([(32, 0x8A580000, .liD 5)] :
    List (Nat × Nat × Instr)), decodeTableWord p.1 p.2.1 = some p.2.2 := by
  decide

/-- Words of the group Float, from the encodings of chapter 4. -/
theorem test_decode_Float1 : ∀ p ∈ ([(32, 0x88532640, .fadd 5 6 9 true false 1), (32, 0x88532641, .fsub 5 6 9 true false 1), (32, 0x88532642, .fmul 5 6 9
       true false 1), (32, 0x88532643, .fmin 5 6 9 true false 1), (32, 0x88532644, .fmax 5 6 9 true false 1), (32, 0x88532645,
       .fcmpEq 5 6 9 true false 1), (32, 0x88532646, .fcmpLt 5 6 9 true false 1), (32, 0x88532647, .fcmpLe 5 6 9 true false 1),
       (32, 0x88532648, .fcmpUn 5 6 9 true false 1), (32, 0x88532989, .fcvt 5 6 10 false true 2), (32, 0x8853270A, .fdiv 5 6 9
       true true 0), (32, 0x8853014B, .fsqrt 5 6 false true 1)] :
    List (Nat × Nat × Instr)), decodeTableWord p.1 p.2.1 = some p.2.2 := by
  decide

/-- Words of the group AddressAndIndex, from the encodings of chapter 4. -/
theorem test_decode_AddressAndIndex1 : ∀ p ∈ ([(32, 0x8C5326C0, .lea 5 6 9 true false 3), (32, 0x8C532501, .addp 5 6 9 false true), (32, 0x8C531E02, .pmake 5 6 7 true
       false), (32, 0x8C530103, .ptag 5 6 false true), (32, 0x8C030104, .setxi 6 true), (32, 0x8C0FFC05, .addxi 0x3FF), (32,
       0x8C200C06, .extHi 2 3), (32, 0xFE000001, .ext 3 0x2000001), (32, 0xF8123456, .ext 2 0x123456)] :
    List (Nat × Nat × Instr)), decodeTableWord p.1 p.2.1 = some p.2.2 := by
  decide

/-- Words of the group Control, from the encodings of chapter 4. -/
theorem test_decode_Control1 : ∀ p ∈ ([(32, 0x8E0C9FFE, .beq 6 9 0xFFE), (32, 0x8E4C9FFE, .bne 6 9 0xFFE), (32, 0x8E8C9FFE, .blt 6 9 0xFFE), (32, 0x8ECC9FFE,
       .bge 6 9 0xFFE), (32, 0x8F0C9FFE, .bltn 6 9 0xFFE), (32, 0x8F4C9FFE, .bgen 6 9 0xFFE), (32, 0x8F8C0FFF, .loop 6 0xFFF),
       (32, 0x90800001, .jmp 0x800001), (32, 0x912C0001, .jal 5 0x40001), (32, 0x92030100, .jr 6 true), (32, 0x92530201, .jalr
       5 6 true false), (32, 0x92000002, .endTask)] :
    List (Nat × Nat × Instr)), decodeTableWord p.1 p.2.1 = some p.2.2 := by
  decide

/-- Words of the group Control, from the encodings of chapter 4. -/
theorem test_decode_Control2 : ∀ p ∈ ([(32, 0x92000003, .yield), (32, 0x92000004, .nop), (32, 0x920FF805, .brk 0x3FE)] :
    List (Nat × Nat × Instr)), decodeTableWord p.1 p.2.1 = some p.2.2 := by
  decide

/-- Words of the group LoadsAndStores, from the encodings of chapter 4. -/
theorem test_decode_LoadsAndStores1 : ∀ p ∈ ([(32, 0x9453117F, .ld 5 6 4 1 3 0x1F), (32, 0x94532801, .ldv 5 6 2 0 0 1), (32, 0x94534B09, .ldg 5 6 2 3 9), (32,
       0x94036402, .pref 6 1 2), (32, 0x96530EA4, .st 5 6 3 2 5 4), (32, 0x96532403, .stv 5 6 1 0 0 3), (32, 0x96534909, .sts 5
       6 2 1 9)] :
    List (Nat × Nat × Instr)), decodeTableWord p.1 p.2.1 = some p.2.2 := by
  decide

/-- Words of the group Atomics, from the encodings of chapter 4. -/
theorem test_decode_Atomics1 : ∀ p ∈ ([(32, 0x985326C0, .amoAdd 5 6 9 true false 3), (32, 0x985326C1, .amoAnd 5 6 9 true false 3), (32, 0x985326C2, .amoOr 5 6
       9 true false 3), (32, 0x985326C3, .amoXor 5 6 9 true false 3), (32, 0x985326C4, .amoMin 5 6 9 true false 3), (32,
       0x985326C5, .amoMax 5 6 9 true false 3), (32, 0x985326C6, .amoSwap 5 6 9 true false 3), (32, 0x985326C7, .cas 5 6 9 true
       false 3), (32, 0x98532508, .ufn 5 6 9 false true), (32, 0x98032509, .ufncfg 6 9 true), (32, 0x9803254A, .red 6 9 true
       1), (32, 0x985326CB, .waitc 5 6 9 true false 3)] :
    List (Nat × Nat × Instr)), decodeTableWord p.1 p.2.1 = some p.2.2 := by
  decide

/-- Words of the group Atomics, from the encodings of chapter 4. -/
theorem test_decode_Atomics2 : ∀ p ∈ ([(32, 0x9800740C, .fence 3 5), (32, 0x9800240D, .bara 9), (32, 0x98007C0E, .barw 31), (32, 0x9853260F, .barx 5 6 9 true
       false), (32, 0x9BF7E084, .wait 62 63 1 2)] :
    List (Nat × Nat × Instr)), decodeTableWord p.1 p.2.1 = some p.2.2 := by
  decide

/-- Words of the group Queues, from the encodings of chapter 4. -/
theorem test_decode_Queues1 : ∀ p ∈ ([(32, 0x9C532700, .qinit 5 6 9 true true), (32, 0x9C532581, .qpush 5 6 9 false true 2), (32, 0x9C532602, .qpop 5 6 9 true
       false), (32, 0x9C532642, .qpopW 5 6 9 true false), (32, 0x9C532603, .qsteal 5 6 9 true false), (32, 0x9C530104, .qavail
       5 6 false true), (32, 0x9C532605, .permit 5 6 9 true false), (32, 0x9C032506, .pret 6 9 true), (32, 0x9C732507, .bind 7
       6 9 true), (32, 0x9C500008, .unbind 5)] :
    List (Nat × Nat × Instr)), decodeTableWord p.1 p.2.1 = some p.2.2 := by
  decide

/-- Words of the group Messages, from the encodings of chapter 4. -/
theorem test_decode_Messages1 : ∀ p ∈ ([(32, 0x9E032500, .send 6 9 true), (32, 0x9E032501, .sendt 6 9 true), (32, 0x9E032502, .sendr 6 9 true), (32, 0x9E530283,
       .mcast 5 6 true false 2), (32, 0x9E032504, .task 6 9 true), (32, 0x9E532605, .launch 5 6 9 true false), (32, 0x9E032506,
       .htset 6 9 true), (32, 0x9E032407, .hmask 6 9 false), (32, 0x9E500208, .msgid 5 true), (32, 0x9E030109, .migrate 6 true)] :
    List (Nat × Nat × Instr)), decodeTableWord p.1 p.2.1 = some p.2.2 := by
  decide

/-- Words of the group Channels, from the encodings of chapter 4. -/
theorem test_decode_Channels1 : ∀ p ∈ ([(32, 0xA000FF00, .publish 0xFF), (32, 0xA0000001, .unpublish), (32, 0xA060FE02, .subscribe 6 0xFE), (32, 0xA0000003,
       .unsub), (32, 0xA0600013, .unsubNz 6), (32, 0xA1030084, .resub 0x81 0x201), (32, 0xA003FF05, .rdv 0x3FF), (32,
       0xA00FFF06, .join 0xFFF), (32, 0xA0080107, .leave 0x801), (32, 0xA0500208, .gsize 5 2)] :
    List (Nat × Nat × Instr)), decodeTableWord p.1 p.2.1 = some p.2.2 := by
  decide

/-- Words of the group Vector, from the encodings of chapter 4. -/
theorem test_decode_Vector1 : ∀ p ∈ ([(32, 0xA2532508, .vadd 5 6 9 2 1), (32, 0xA2532509, .vsub 5 6 9 2 1), (32, 0xA2532522, .vadds 5 6 9 2 4), (32,
       0xA253250B, .vsubs 5 6 9 2 1), (32, 0xA2532544, .vmul 5 6 9 2 8), (32, 0xA253250D, .vmulh 5 6 9 2 1), (32, 0xA2532546,
       .vfma 5 6 9 2 8), (32, 0xA253254F, .vmin 5 6 9 2 9), (32, 0xA4532508, .vmax 5 6 9 2 1), (32, 0xA4530151, .vabs 5 6 2
       10), (32, 0xA4530142, .vneg 5 6 2 8), (32, 0xA453250B, .vand 5 6 9 2 1)] :
    List (Nat × Nat × Instr)), decodeTableWord p.1 p.2.1 = some p.2.2 := by
  decide

/-- Words of the group Vector, from the encodings of chapter 4. -/
theorem test_decode_Vector2 : ∀ p ∈ ([(32, 0xA453250C, .vor 5 6 9 2 1), (32, 0xA453250D, .vxor 5 6 9 2 1), (32, 0xA453010E, .vnot 5 6 2 1), (32, 0xA453250F,
       .vshl 5 6 9 2 1), (32, 0xA6532508, .vshr 5 6 9 2 1), (32, 0xA6532509, .vsra 5 6 9 2 1), (32, 0xA653250A, .vsel 5 6 9 2
       1), (32, 0xA6532553, .vdot 5 6 9 2 10), (32, 0xA653250C, .vshuf 5 6 9 2 1), (32, 0xA653010D, .vbcast 5 6 2 1), (32,
       0xA6533C06, .vmovs 5 6 15 0), (32, 0xA6504C06, .vmovsStream 5 3)] :
    List (Nat × Nat × Instr)), decodeTableWord p.1 p.2.1 = some p.2.2 := by
  decide

/-- Words of the group Vector, from the encodings of chapter 4. -/
theorem test_decode_Vector3 : ∀ p ∈ ([(32, 0xA6531C0F, .vins 5 6 7 1), (32, 0xA85309C0, .vcvt 5 6 2 3 8), (32, 0xA8531591, .vred 5 6 5 3 2), (32, 0xA85305C2,
       .vscan 5 6 1 3 8), (32, 0xA853256B, .vmatch 5 6 9 2 3 1), (32, 0xA853254C, .vcompress 5 6 9 2 9), (32, 0xA853250D,
       .vexpand 5 6 9 2 1), (32, 0xA853014E, .vclass 5 6 2 9), (32, 0xAA530148, .vrcp 5 6 2 9), (32, 0xAA530149, .vrsq 5 6 2
       9), (32, 0xAA53014A, .vexp2 5 6 2 9), (32, 0xAA53014B, .vlog2 5 6 2 9)] :
    List (Nat × Nat × Instr)), decodeTableWord p.1 p.2.1 = some p.2.2 := by
  decide

/-- Words of the group Vector, from the encodings of chapter 4. -/
theorem test_decode_Vector4 : ∀ p ∈ ([(32, 0xAA53014C, .vtanh 5 6 2 9), (32, 0xAA532555, .vdiv 5 6 9 2 10), (32, 0xAC532518, .vcmpEq 5 6 9 2 3), (32,
       0xAC532519, .vcmpNe 5 6 9 2 3), (32, 0xAC53251A, .vcmpLt 5 6 9 2 3), (32, 0xAC53251B, .vcmpLe 5 6 9 2 3), (32,
       0xAC53251C, .vcmpGt 5 6 9 2 3), (32, 0xAC53251D, .vcmpGe 5 6 9 2 3), (32, 0xAC532546, .vcmpUn 5 6 9 2 8)] :
    List (Nat × Nat × Instr)), decodeTableWord p.1 p.2.1 = some p.2.2 := by
  decide

/-- Words of the group Masks, from the encodings of chapter 4. -/
theorem test_decode_Masks1 : ∀ p ∈ ([(32, 0xAE5CC000, .kand 5 6 3), (32, 0xAE5CC001, .kor 5 6 3), (32, 0xAE5CC002, .kxor 5 6 3), (32, 0xAE5C0003, .knot 5 6),
       (32, 0xAE5C0004, .kmov 5 6), (32, 0xAE502904, .kmovScalar 5 9), (32, 0xAF5C0005, .kpop 21 6), (32, 0xAF5C0006, .kfirst
       21 6)] :
    List (Nat × Nat × Instr)), decodeTableWord p.1 p.2.1 = some p.2.2 := by
  decide

/-- Words of the group Matrix, from the encodings of chapter 4. -/
theorem test_decode_Matrix1 : ∀ p ∈ ([(32, 0xB00000A0, .claim 5), (32, 0xB00000A1, .release 5), (32, 0xB0532402, .tload 5 6 9), (32, 0xB0532403, .tmma 5 6 9),
       (32, 0xB0532624, .tsmma 5 6 9 17), (32, 0xB0F00005, .tzero 15), (32, 0xB0532406, .tstore 5 6 9), (32, 0xB1F30007,
       .tscale 31 6), (32, 0xB0530228, .taccv 5 6 17)] :
    List (Nat × Nat × Instr)), decodeTableWord p.1 p.2.1 = some p.2.2 := by
  decide

/-- Words of the group Fuller, from the encodings of chapter 4. -/
theorem test_decode_Fuller1 : ∀ p ∈ ([(32, 0xB2532400, .tmatch 5 6 9), (32, 0xB2532621, .tmerge 5 6 9 17), (32, 0xB2530222, .tmsize 5 6 17), (32, 0xB2532623,
       .tunmerge 5 6 9 17), (32, 0xB2532404, .tmapcomp 5 6 9), (32, 0xB2500005, .tmapfree 5), (32, 0xB2530006, .tmapsave 5 6),
       (32, 0xB2530007, .tmapload 5 6)] :
    List (Nat × Nat × Instr)), decodeTableWord p.1 p.2.1 = some p.2.2 := by
  decide

/-- Words of the group Routing, from the encodings of chapter 4. -/
theorem test_decode_Routing1 : ∀ p ∈ ([(32, 0xB4030100, .mboxk 6 true), (32, 0xB4032501, .mbput 6 9 true), (32, 0xB4532602, .mbtake 5 6 9 true false), (32,
       0xB4532503, .repl 5 6 9 false true), (32, 0xB4532704, .expsend 5 6 9 true true)] :
    List (Nat × Nat × Instr)), decodeTableWord p.1 p.2.1 = some p.2.2 := by
  decide

/-- Words of the group CopyAndIngest, from the encodings of chapter 4. -/
theorem test_decode_CopyAndIngest1 : ∀ p ∈ ([(32, 0xB6532600, .copy 5 6 9 true false), (32, 0xB6532501, .copym 5 6 9 false true), (32, 0xB6021402, .ingcfg 4 5
       false), (32, 0xB6638003, .ingq 6 7 false false)] :
    List (Nat × Nat × Instr)), decodeTableWord p.1 p.2.1 = some p.2.2 := by
  decide

/-- Words of the group System, from the encodings of chapter 4. -/
theorem test_decode_System1 : ∀ p ∈ ([(32, 0xB8032500, .trap 6 9 true), (32, 0xB8008801, .rett 1 2 false), (32, 0xB80FFC02, .ecall 0x3FF), (32, 0xB8512703,
       .csrr 5 0x127), (32, 0xB8501004, .csrw 5 0x010), (32, 0xB8032505, .tlbinv 6 9 true), (32, 0xB8530206, .ctxsave 5 6 true
       false), (32, 0xB8030107, .ctxload 6 true), (32, 0xB8000008, .halt), (32, 0xB8530209, .idle 5 6 true false), (32,
       0xB832000A, .pwrreq 3 4 false), (32, 0xB8501A0B, .perfr 5 6 true)] :
    List (Nat × Nat × Instr)), decodeTableWord p.1 p.2.1 = some p.2.2 := by
  decide

/-- Words of the group System, from the encodings of chapter 4. -/
theorem test_decode_System2 : ∀ p ∈ ([(32, 0xB832000C, .preempt 3 4 false), (32, 0xB803010D, .setfmt 6 true), (32, 0xB850020E, .getfmt 5 true)] :
    List (Nat × Nat × Instr)), decodeTableWord p.1 p.2.1 = some p.2.2 := by
  decide

/-- Words of the group Compact, from the encodings of chapter 4. -/
theorem test_decode_Compact1 : ∀ p ∈ ([(16, 0x06E6, .compactAdd 5 6 3), (16, 0x0AE6, .compactSub 5 6 3), (16, 0x0EE6, .compactAnd 5 6 3), (16, 0x12E6,
       .compactOr 5 6 3), (16, 0x16E6, .compactXor 5 6 3), (16, 0x1EE6, .compactShl 5 6 3), (16, 0x22E6, .compactShr 5 6 3),
       (16, 0x26E6, .compactSra 5 6 3), (16, 0x4EE6, .compactVaddF32 5 6 3), (16, 0x52E6, .compactVmulF32 5 6 3), (16, 0x56E6,
       .compactVfmaF32 5 6 3), (16, 0x5AE6, .compactVaddI32 5 6 3)] :
    List (Nat × Nat × Instr)), decodeTableWord p.1 p.2.1 = some p.2.2 := by
  decide

/-- Words of the group Compact, from the encodings of chapter 4. -/
theorem test_decode_Compact2 : ∀ p ∈ ([(16, 0x6EE6, .compactSlt 5 6 3), (16, 0x7EE6, .compactVsubF32 5 6 3), (16, 0x1AE0, .compactMov 5 6), (16, 0x2AE9,
       .compactAddi 5 6 9), (16, 0x2EE9, .compactShli 5 6 9), (16, 0x32E9, .compactShri 5 6 9), (16, 0x36E9, .compactLd 5 6 9),
       (16, 0x3AE9, .compactSt 5 6 9), (16, 0x3EE9, .compactLdv 5 6 9), (16, 0x42E9, .compactStv 5 6 9), (16, 0x46C1,
       .compactBeq 5 0x41), (16, 0x4AC1, .compactBne 5 0x41)] :
    List (Nat × Nat × Instr)), decodeTableWord p.1 p.2.1 = some p.2.2 := by
  decide

/-- Words of the group Compact, from the encodings of chapter 4. -/
theorem test_decode_Compact3 : ∀ p ∈ ([(16, 0x72C1, .compactLi 5 0x41), (16, 0x5C00, .compactJrS0), (16, 0x5C10, .compactJrS1), (16, 0x5C20, .compactJrS2),
       (16, 0x5C30, .compactJrS3), (16, 0x5C40, .compactJrS4), (16, 0x5C50, .compactJrS5), (16, 0x5C60, .compactJrS6), (16,
       0x5C70, .compactJrS7), (16, 0x6000, .compactEnd), (16, 0x6400, .compactNop), (16, 0x6800, .compactYield)] :
    List (Nat × Nat × Instr)), decodeTableWord p.1 p.2.1 = some p.2.2 := by
  decide

/-- Words of the group Compact, from the encodings of chapter 4. -/
theorem test_decode_Compact4 : ∀ p ∈ ([(16, 0x7400, .compactWait), (16, 0x7800, .compactBrk)] :
    List (Nat × Nat × Instr)), decodeTableWord p.1 p.2.1 = some p.2.2 := by
  decide
/-! ## Ill-formed instructions -/

/-- Field values that Tables 4.10, 4.16 and 25.2 and the CSR table do not give a form (R94). -/
theorem test_illFormed1 : ∀ i ∈ ([.sext 1 2 false false 3, .zext 1 2 false false 3, .ffma 1 2 3 false false 4 3, .fadd 1 2 3 false false 3, .fsub 1 2 3 false
     false 3, .fmul 1 2 3 false false 3, .fmin 1 2 3 false false 3, .fmax 1 2 3 false false 3, .fcmpEq 1 2 3 false false 3,
     .fcmpLt 1 2 3 false false 3, .fcmpLe 1 2 3 false false 3, .fcmpUn 1 2 3 false false 3, .fcvt 1 2 8 false false 3, .fcvt 1 2
     11 false false 0, .fdiv 1 2 3 false false 3, .fsqrt 1 2 false false 3, .ld 1 2 7 0 0 0, .ld 1 2 0 2 0 0, .ld 1 2 0 1 6 0,
     .ld 1 2 0 0 1 0, .ldv 1 2 0 2 0 0, .ldv 1 2 0 1 6 0, .st 1 2 0 1 0 0, .st 1 2 0 2 6 0] : List Instr), i.wf = false := by
  decide

/-- Field values that Tables 4.10, 4.16 and 25.2 and the CSR table do not give a form (R94). -/
theorem test_illFormed2 : ∀ i ∈ ([.st 1 2 0 0 1 0, .stv 1 2 0 1 0 0, .amoAdd 1 2 3 false false 1, .amoAnd 1 2 3 false false 1, .amoOr 1 2 3 false false 1,
     .amoXor 1 2 3 false false 1, .amoMin 1 2 3 false false 1, .amoMax 1 2 3 false false 1, .amoSwap 1 2 3 false false 1, .cas 1
     2 3 false false 1, .red 1 2 false 2, .fence 0 0, .fence 1 6, .qpush 1 2 3 false false 3, .publish 256, .subscribe 1 256,
     .rdv 1024, .vadd 1 2 3 0 11, .vsub 1 2 3 0 11, .vadds 1 2 3 0 8, .vsubs 1 2 3 0 8, .vmul 1 2 3 0 11, .vmulh 1 2 3 0 8, .vfma
     1 2 3 0 11] : List Instr), i.wf = false := by
  decide

/-- Field values that Tables 4.10, 4.16 and 25.2 and the CSR table do not give a form (R94). -/
theorem test_illFormed3 : ∀ i ∈ ([.vmin 1 2 3 0 11, .vmax 1 2 3 0 11, .vabs 1 2 0 4, .vabs 1 2 0 11, .vneg 1 2 0 7, .vand 1 2 3 0 8, .vor 1 2 3 0 8, .vxor 1 2
     3 0 8, .vnot 1 2 0 8, .vshl 1 2 3 0 8, .vshr 1 2 3 0 8, .vsra 1 2 3 0 8, .vsel 1 2 3 0 11, .vdot 1 2 3 0 2, .vdot 1 2 3 0 8,
     .vshuf 1 2 3 0 11, .vbcast 1 2 0 11, .vmovs 1 2 8 1, .vmovs 1 2 0 11, .vins 1 2 4 2, .vins 1 2 2 3, .vcvt 1 2 11 0 8, .vcvt
     1 2 8 0 11, .vred 1 2 6 0 0] : List Instr), i.wf = false := by
  decide

/-- Field values that Tables 4.10, 4.16 and 25.2 and the CSR table do not give a form (R94). -/
theorem test_illFormed4 : ∀ i ∈ ([.vred 1 2 3 0 8, .vred 1 2 0 0 11, .vscan 1 2 6 0 0, .vscan 1 2 3 0 10, .vcompress 1 2 3 0 2, .vexpand 1 2 3 0 8, .vclass 1
     2 0 7, .vrcp 1 2 0 7, .vrsq 1 2 0 11, .vexp2 1 2 0 7, .vlog2 1 2 0 7, .vtanh 1 2 0 7, .vdiv 1 2 3 0 7, .vcmpEq 1 2 3 0 11,
     .vcmpNe 1 2 3 0 11, .vcmpLt 1 2 3 0 11, .vcmpLe 1 2 3 0 11, .vcmpGt 1 2 3 0 11, .vcmpGe 1 2 3 0 11, .vcmpUn 1 2 3 0 11,
     .tmma 16 1 2, .tsmma 16 1 2 3, .tzero 16, .tstore 16 1 2] : List Instr), i.wf = false := by
  decide

/-- Field values that Tables 4.10, 4.16 and 25.2 and the CSR table do not give a form (R94). -/
theorem test_illFormed5 : ∀ i ∈ ([.taccv 1 16 2, .tmsize 16 1 2, .csrr 1 0x00E, .csrr 1 0x00F, .csrr 1 0x01A, .csrr 1 0x0FF, .csrr 1 0x108, .csrw 1 0x11F,
     .csrw 1 0x128] : List Instr), i.wf = false := by
  decide

/-- Words that decode to no instruction (R87, R91-R94): compact opcode 0, a reserved field of compact op 24 (the word 0x6001 of the
example of chapter 4), unassigned major opcodes (0x1D and 0), a type code of 3 in FADD, a size of 3 in SEXT, and a
reserved field b set in CLZ. -/
theorem test_decode_reserved : ∀ p ∈ ([(16, 0x0000), (16, 0x6001), (32, 0xBA000000), (32, 0x80000000), (32, 0x885326C0), (32, 0x825301D8), (32, 0x82530515)] : List (Nat × Nat)),
    decodeTableWord p.1 p.2 = none := by
  decide

/-- Bytes are read as little-endian halfwords, the first of them with bits [31:16] of the word (R86); what follows is left. -/
theorem test_decode_bytes :
    (decodeBytes [0x53, 0x82, 0x00, 0x26, 0xAA]).toOption = some (.add 5 6 9 true false, [0xAA]) ∧
    (decodeBytes [0x00, 0x64, 0x00]).toOption = some (.compactNop, [0x00]) ∧ (decodeBytes [0x53, 0x82]).toOption = none := by
  decide
/-! ## Words that the spec writes out -/

/-- Words from the encoding tables of chapters 21-25 as the spec prints them. -/
theorem test_decode_printed : ∀ p ∈ ([(32, 0x82308800, .add 3 1 2 false false), (32, 0x8410_8001, .addi 1 1 1), (32, 0x8C73_1C01, .addp 7 6 7 false false),
    (32, 0xB000_0160, .claim 11), (32, 0xB000_0101, .release 8), (32, 0xB040_0128, .taccv 4 0 9), (32, 0xB003_3802, .tload 0 6 14),
    (32, 0xB240_8804, .tmapcomp 4 1 2), (32, 0xB220_0005, .tmapfree 2), (32, 0xB222_8007, .tmapload 2 5),
    (32, 0xB222_8006, .tmapsave 2 5), (32, 0xB201_0C00, .tmatch 0 2 3), (32, 0xB232_14C1, .tmerge 3 4 5 6), (32, 0xB022_1403, .tmma 2 4 5),
    (32, 0xB201_0002, .tmsize 0 2 0), (32, 0xB032_8007, .tscale 3 5), (32, 0xB001_1124, .tsmma 0 2 4 9), (32, 0xB00A_4806, .tstore 0 20 18),
    (32, 0xB221_9183, .tunmerge 2 3 4 12), (32, 0xB030_0005, .tzero 3), (16, 0x6400, .compactNop)] :
    List (Nat × Nat × Instr)), decodeTableWord p.1 p.2.1 = some p.2.2 := by
  decide

/-! ## States that meet the hypotheses of the statements

`base` has one privileged task with the whole allotment in slot 0 of core 0 and a translation of page 1 of space 0x4; every witness
starts from it. -/

/-- A module that is running one task, with ADD s3, s1, s2 at its PC. -/
def base : State := State.withFetchWord State.reset 32 0x82308800

/-- The running task's scalar registers set. -/
def regs (l : List (Nat × Word)) (s : State) : State := s.onMe (fun t => l.foldl (fun t p => t.setS p.1 p.2) t)

/-- The running task with index register xi at 32. -/
def indexed : State := base.onMe (fun t => { t with xi := 32 })

/-- The running task without privilege. -/
def userTask : State := base.onMe (fun t => { t with priv := false })

/-- The pieces of an access that passes its checks. -/
def piecesOf : Located → List Piece
  | .pieces l => l
  | _ => []

/-- A pointer of space 0x4 into the page that `base` maps, at physical address 0x1040 + `n`. -/
def ptr4 (n : Nat) : Word := BitVec.ofNat 64 (0x4000000000001040 + n)

/-- `base` with pointers in s1 (address 0x1040), data in s2 and s3, and lane indices 0, 4, 8, 12 in v2. -/
def loaded : State :=
  (regs [(1, ptr4 0), (2, 0x1122334455667788), (3, 9)] base).onMe (fun t => t.setV 2 (BitVec.ofNat 128 0x0000000C000000080000000400000000))

/-- Operation 7 of the running task under way, and the event that names it with piece `b`. -/
def underway (s : State) (o : Op) (b : Nat) : State := { s with ops := [o], subj := { a := o.id, b := b } }

/-- An operation of the running task with one piece of `n` bytes at key `k`. -/
def opAt (kd : OpKind) (k n : Nat) : Op := { myOp base kd with id := 7, pieces := [{ key := k, n := n, ptr := BitVec.ofNat 64 (2 ^ 62 + k) }] }

/-- Page tables of space 0x4 for ASID 0 whose one entry maps page 1 to frame 1. -/
def withTables (s : State) : State :=
  { writeNat (writeNat (writeNat (writeNat s 0x100000 0x101001 255 8) 0x101000 0x102001 255 8) 0x102000 0x103001 255 8) 0x103008 0x103F 255 8
    with asids := [(0, BitVec.ofNat 256 (0x100000 * 2 ^ 52))] }

/-- A module whose context 0 has its record at 0x180000: ASID 0, privileged engines, two save images from 0x200000, which a 2 MiB page
maps. -/
def recorded : State :=
  { writeNat (writeNat (withTables base) 0x102008 0x20003F 255 8) 0x180000 (2 * 2 ^ 240 + 0x200000 * 2 ^ 192 + 2 ^ 135) (2 ^ 64 - 1) 64 with
    ctxtable := 0x180000, chans := [] }

/-- Where a route mask names port 15 alone and that port is READY, a packet finds it, whatever the hash. -/
theorem linkReady_15 (s : State) (src dev dst : Nat) (h : mapGet 0 s.routes (gatewayOf src * 4096 + dev) = 2 ^ 15)
    (hp : portReady (s.port 15) = true) (hd : (s.die 3).lost = false) : linkReady s src dev dst = true := by
  have hl : (List.range 16).filter (2 ^ 15 : BitVec 16).getLsbD = [15] := by decide
  simp only [linkReady, linkPort, h, flowPorts, hl]
  simp only [List.length_singleton, Nat.mod_one, List.drop_zero, List.take_zero, List.append_nil, List.find?_cons]
  rw [show (portReady (mapGet {} s.ports 15) && !(s.die (15 / 4)).lost) = true by
    rw [show portReady (mapGet {} s.ports 15) = true from hp, show (15 : Nat) / 4 = 3 from rfl, hd]; rfl]
  rfl

/-- Where a route mask names no port, a packet finds none. -/
theorem linkReady_none (s : State) (src dev dst : Nat) (h : mapGet 0 s.routes (gatewayOf src * 4096 + dev) = 0) :
    linkReady s src dev dst = false := by
  have hl : (List.range 16).filter (0 : BitVec 16).getLsbD = [] := by decide
  simp only [linkReady, linkPort, h, flowPorts, hl]
  simp

/-- `base` with a way to device 9 and to device 0 by port 15, and another identifier. -/
def linked (s : State) : State :=
  { s with fabid := 1, routes := [(0, 2 ^ 15), (9, 2 ^ 15)], ports := [(15, { stat := 6 })] }

/-- No UFNCFG is under way where no operation is one. -/
theorem steady_of {s : State} (h : ∀ o ∈ s.ops, (match o.kind with | .ufncfg _ _ _ => false | _ => true) = true) (f : Nat) :
    Steady s f := fun o ho w b hk => by
  have := h o ho
  rw [hk] at this
  exact Bool.noConfusion this

/-- Hypotheses of IntegerFormResult: s0 as destination, the last absolute registers, relative fields that reach s63. -/
theorem witness_IntegerFormResult :
    Ready [rdS base.me 0 false, rdS base.me 31 false, wrS base.me 0 false] base ∧
    Ready [rdS indexed.me 31 true, rdS indexed.me 31 false, wrS indexed.me 0 true] indexed ∧
    Ready [rdS indexed.me 31 true, wrS indexed.me 31 true] indexed := by
  unfold Ready; decide +kernel

/-- A stream register of KIND 1 with 8 bytes staged. -/
def staged : State := base.onMe (fun t => t.setQ 7 { kind := 1, esize := 8, stage := leBytes 8 12345 })

/-- Hypotheses of ImmediateAndMoveResult, clause by clause. -/
theorem witness_ImmediateAndMoveResult :
    Ready [rdS base.me 31 false, wrS base.me 31 false] base ∧ Ready [wrS base.me 0 false] base ∧
    Ready [rdS base.me 1 true, rdS base.me 2 false, rdS base.me 3 false, wrS base.me 4 true] base ∧
    (Ready [wrS staged.me 31 true] staged ∧ (staged.me.q (7 : BitVec 3).toNat).kind = 1 ∧
      8 ≤ (staged.me.q (7 : BitVec 3).toNat).stage.length ∧ staged.me.faults = [] ∧ (staged.me.q (7 : BitVec 3).toNat).msgs = []) ∧
    Ready [rdS base.me ((7 : BitVec 3).setWidth 5) false, rdS base.me ((0 : BitVec 3).setWidth 5) false,
      wrS base.me ((7 : BitVec 3).setWidth 5) false] base ∧
    Ready [rdS base.me ((7 : BitVec 3).setWidth 5) false, wrS base.me ((0 : BitVec 3).setWidth 5) false] base ∧
    Ready [wrS base.me ((7 : BitVec 3).setWidth 5) false] base := by
  unfold Ready; decide +kernel

/-- What a channel's publisher sends of ADD at 0x1000. -/
def sentAdd : Pub :=
  { instr := .add 3 1 2 false false, pc := 0x1000, len := 4, taken := false, next := 0x1004, fmt := 0x7FF01F3, ereg := Vector.replicate 4 9, pos := 0 }

/-- The running task as a subscriber of channel 5, with an instruction of the stream at the head of its port. -/
def follower (p : Pub) : State :=
  (base.onMe (fun t => { t with sub := true, ichan := 5 })).onChan 5 (fun _ =>
    { st := .published, ports := [{ core := 0, slot := 0, task := 1, registered := true, joined := true, buf := [p] }] })

/-- Hypotheses of AddressAndFormatResult: outside a stream and in a subscriber, a format word that SETFMT takes and one it does not. -/
theorem witness_AddressAndFormatResult :
    Ready [rdS base.me 31 true, rdS base.me 31 false, wrS base.me 0 true] base ∧ Ready [rdS base.me 0 true, wrS base.me 31 true] base ∧
    Ready [rdS base.me 31 true] base ∧ Ready [wrS base.me 31 true] base ∧ base.carried = none ∧
    (follower sentAdd).carried = some sentAdd ∧ Ready [rdS (follower sentAdd).me 31 false] (follower sentAdd) ∧
    ((regs [(5, 0x30)] base).me.rs 5 false).extractLsb' 4 2 = 3 ∧ Ready [rdS (regs [(5, 0x30)] base).me 5 false] (regs [(5, 0x30)] base) := by
  unfold Ready; decide +kernel

/-- Outside a stream every outcome agrees. -/
theorem agrees_outside {s : State} (h : s.carried = none) (c : Prop) (n : Nat) : agrees s c n := by
  intro p hp; rw [h] at hp; exact absurd hp (by simp)

/-- In a subscriber an outcome agrees that is the one the stream carries. -/
theorem agrees_carried {s : State} {p : Pub} (h : s.carried = some p) (c : Prop) (n : Nat)
    (hp : (p.taken = true ↔ c) ∧ (c → p.next = n)) : agrees s c n := by
  intro q hq; rw [h] at hq; cases hq; exact hp

/-- A publisher's jump by 8 bytes at 0x1000. -/
def sentJump : Pub := { sentAdd with instr := .jmp 4, taken := true, next := 0x1008 }

/-- Hypotheses of ControlTransferResult: outside a stream, in a subscriber that agrees, pointers of both spaces at their greatest. -/
theorem witness_ControlTransferResult :
    Ready [rdS base.me 31 false, rdS base.me 0 false] base ∧ agrees base True (branchTo base (2048 : BitVec 12)) ∧
    Ready [rdS base.me ((7 : BitVec 3).setWidth 5) false, rdS base.me 0 false] base ∧ Ready [rwS base.me 0 false] base ∧
    agrees (follower sentJump) True (branchTo (follower sentJump) (4 : BitVec 24)) ∧ Ready [wrS base.me 31 false] base ∧
    (codePointer 0x4000FFFFFFFFFFFE ∧ codePointer 0x0000FFFFFFFFFFFE ∧
      (regs [(7, 0x4000FFFFFFFFFFFE)] base).me.rs 7 false = 0x4000FFFFFFFFFFFE) ∧
    Ready [rdS (regs [(7, 0x4000FFFFFFFFFFFE)] base).me 7 false, wrS (regs [(7, 0x4000FFFFFFFFFFFE)] base).me 31 false]
      (regs [(7, 0x4000FFFFFFFFFFFE)] base) := by
  refine ⟨?_, agrees_outside (by decide +kernel) _ _, ?_, ?_, ?_, ?_, ?_, ?_⟩
  · unfold Ready; decide +kernel
  · unfold Ready; decide +kernel
  · unfold Ready; decide +kernel
  · exact agrees_carried (p := sentJump) (by decide +kernel) _ _ (by decide +kernel)
  · unfold Ready; decide +kernel
  · unfold codePointer; decide +kernel
  · unfold Ready; decide +kernel

/-- Hypotheses of TrapResult: a subscriber that does not agree, pointers of each refused kind, causes that a program may name and one it
may not, the number 0; a pre-emption that is pending; a context with a save image and one with none. -/
theorem witness_TrapResult :
    (¬ agrees (follower sentAdd) True (branchTo (follower sentAdd) (4 : BitVec 24))) ∧
    Ready [rdS (follower sentAdd).me 1 false, rdS (follower sentAdd).me 1 false] (follower sentAdd) ∧
    (¬ agrees (follower sentAdd) ((follower sentAdd).me.rs 1 false = (follower sentAdd).me.rs 1 false)
        (branchTo (follower sentAdd) (4 : BitVec 12))) ∧
    (¬ codePointer 0x1000000000000000 ∧ ¬ codePointer 0x4001000000000000 ∧ ¬ codePointer 0x4000000000000001) ∧
    Ready [rdS base.me 5 false, wrS base.me 1 false] base ∧
    (Ready [wrS (follower sentAdd).me 1 false] (follower sentAdd) ∧ Ready [rwS (follower sentAdd).me 5 false] (follower sentAdd) ∧
      Ready [rdS (follower sentAdd).me ((7 : BitVec 3).setWidth 5) false, rdS (follower sentAdd).me 0 false] (follower sentAdd)) ∧
    (¬ agrees (follower sentAdd) ((5 : BitVec 5) ≠ 0 ∧ (follower sentAdd).me.rs 5 false ≠ 1)
        (branchTo (follower sentAdd) (0xFFF : BitVec 12)) ∧
      ¬ agrees (follower sentAdd) ((follower sentAdd).me.s (7 : BitVec 3).toNat = 0) (branchTo (follower sentAdd) (0x7F : BitVec 7))) ∧
    (codePointer ((follower sentAdd).me.rs 5 false) ∧
      ¬ agrees (follower sentAdd) True (((follower sentAdd).me.rs 5 false).toNat % 2 ^ 48)) ∧
    ((base.onMe (fun t => { t with preempt := some 7 })).me.preempt = some 7 ∧ freeImage base base.me.ctx = none ∧
      freeImage recorded recorded.me.ctx = some 0 ∧ recorded.cur.2 < 4) ∧
    ((regs [(1, 0x07)] base).me.rs 1 false = BitVec.ofNat 64 (causeCode .page) ∧ Cause.page ≠ .dielost ∧ Cause.page ≠ .deadline ∧
      Cause.page ≠ .fenced ∧ Ready [rdS (regs [(1, 0x07)] base).me 1 false, rdS (regs [(1, 0x07)] base).me 0 false] (regs [(1, 0x07)] base)) ∧
    (∀ c, base.me.rs 0 false = BitVec.ofNat 64 (causeCode c) → c = .dielost ∨ c = .deadline ∨ c = .fenced) ∧ base.cur.2 < 4 := by
  have hc : (follower sentAdd).carried = some sentAdd := by decide +kernel
  have no : ∀ (c : Prop) (n : Nat), c → ¬ agrees (follower sentAdd) c n := fun c n hn h => by
    have := (h sentAdd hc).1; simp [sentAdd] at this; exact this hn
  refine ⟨no _ _ trivial, ?_, no _ _ rfl, ?_, ?_, ?_, ⟨no _ _ (by decide +kernel), no _ _ (by decide +kernel)⟩, ⟨?_, no _ _ trivial⟩, ?_, ?_, ?_, ?_⟩
  · unfold Ready; decide +kernel
  · unfold codePointer; decide +kernel
  · unfold Ready; decide +kernel
  · unfold Ready; decide +kernel
  · unfold codePointer; decide +kernel
  · decide +kernel
  · unfold Ready; decide +kernel
  · have h : base.me.rs 0 false = 0 := by decide +kernel
    rw [h]; intro c; cases c <;> decide
  · decide +kernel

/-- A task whose counters stand at 62, 1, 0 and 0. -/
def counting : State := base.onMe (fun t => { t with cLd := 62, cSt := 1 })

/-- Hypotheses of NopYieldAndWaitResult: counters at their immediates, counters of 0, a counter above its immediate. -/
theorem witness_NopYieldAndWaitResult :
    (follower sentAdd).me.sub = true ∧ base.me.sub = false ∧
    (counting.me.cLd ≤ (62 : BitVec 6).toNat ∧ counting.me.cSt ≤ (1 : BitVec 6).toNat ∧ counting.me.cCp ≤ (0 : BitVec 6).toNat ∧
      counting.me.faults = []) ∧
    (base.me.cLd = 0 ∧ base.me.cSt = 0 ∧ base.me.cCp = 0 ∧ base.me.cTl = 0 ∧ base.me.faults = []) ∧
    ((61 : BitVec 6) ≠ 63 ∧ (61 : BitVec 6).toNat < counting.me.cLd) := by
  decide +kernel

/-- Hypotheses of FloatFormResult: each format, an FCVT to the greatest type code. -/
theorem witness_FloatFormResult :
    (0 : BitVec 2) ≠ 3 ∧ (1 : BitVec 2) ≠ 3 ∧ (2 : BitVec 2) ≠ 3 ∧ (Instr.fcvt 1 2 10 false true 2).wf = true ∧
    (Instr.fcvt 1 2 0 false true 0).wf = true ∧
    Ready [rdS base.me 1 true, rdS base.me 31 false, rdS base.me 3 false, wrS base.me 0 true] base := by
  unfold Ready; decide +kernel

/-- Hypotheses of RoundingIsCorrect: a step of one bit and one of many. -/
theorem witness_RoundingIsCorrect : ((-1 : Int) < 0) ∧ ((-149 : Int) < 127) := by decide

/-- A request of the running task in the SFU. -/
def request : SfuReq := { op := 7, core := 0, slot := 0, task := 1, reg := .s 5, val := 0x3F800000, flags := 0 }

/-- The SFU with a request that waits, and with one whose result is due. -/
def sfuWaits : State := base.onCluster 0 (fun k => { k with sfuWait := [request] })
def sfuFull : State := base.onCluster 0 (fun k => { k with sfuWait := [request], sfuq := List.replicate 32 request })
def sfuDue : State :=
  { base.onCluster 0 (fun k => { k with sfuq := [request] }) with
    ops := [{ myOp base .sfu with id := 7, ctr := none, regs := [.s 5] }] }

/-- Hypotheses of SfuFormResult. -/
theorem witness_SfuFormResult :
    SfuFree base ∧ Ready [rdS base.me 1 true, rdS base.me 31 false, wrS base.me 0 true] base ∧ Ready [rdV 31, rdV 30, wrV 0] base ∧
    (sfuWaits.cluster sfuWaits.subj.a).sfuBusy = false ∧ (sfuWaits.cluster sfuWaits.subj.a).sfuq.length < 32 ∧
    32 ≤ (sfuFull.cluster sfuFull.subj.a).sfuq.length ∧ sfuNext (sfuWaits.cluster sfuWaits.subj.a) = some request ∧
    (sfuDue.cluster sfuDue.subj.a).sfuq = request :: [] ∧
    (findOp sfuDue 7).map (·.pend) = some false ∧ (findOp sfuDue request.op).isSome ∧ sfuDue.taskSlot request.task = some (0, 0) := by
  unfold SfuFree Ready; decide +kernel

/-- A stream register of KIND 1 with 16 bytes staged. -/
def staged16 : State := base.onMe (fun t => t.setQ 0 { kind := 1, esize := 16, stage := leBytes 16 (2 ^ 127 + 5) })

/-- Hypotheses of MaskAndMoveResult: k0 and k7, a destination that is a source, a full staging buffer. -/
theorem witness_MaskAndMoveResult :
    Ready [rdK 7, rdK 0, wrK 0] base ∧ Ready [rdK 7, wrK 7] base ∧ Ready [rdS base.me 31 false, wrK 7] base ∧
    Ready [rdK 0, wrS base.me 0 false] base ∧ Ready [rdV 31, rdV 0, rdK 7, wrV 31] base ∧ Ready [rdS base.me 31 false, rdK 0, rwV 31] base ∧
    Ready [rdS base.me 0 false, rwV 0] base ∧ Ready [rdV 31, wrS base.me 31 false] base ∧
    (Ready [wrV 31] staged16 ∧ (staged16.me.q (0 : BitVec 3).toNat).kind = 1 ∧ 16 ≤ (staged16.me.q (0 : BitVec 3).toNat).stage.length ∧
      staged16.me.faults = [] ∧ (staged16.me.q (0 : BitVec 3).toNat).msgs = []) ∧
    Ready [rdV 1, rdV 2, rwK 0, wrV 3] base ∧ Ready [rdV 1, wrV 1, rdK 7, wrV 31] base ∧ Ready [rdV 1, rdV 2, rdK 7, rwV 31] base := by
  and_intros <;> decide +kernel

/-- Hypotheses of VectorFormResult, with the first and the last type code. -/
theorem witness_VectorFormResult :
    (Instr.vadd 31 0 1 7 0).wf = true ∧ (Instr.vadd 31 0 1 7 10).wf = true ∧ (Instr.vabs 1 2 0 10).wf = true ∧
    (Instr.vclass 1 2 0 8).wf = true ∧ Ready [rdV 0, rdV 1, rdK 7, rwV 31] base ∧ Ready [rdV 2, rdK 0, rwV 1] base ∧
    Ready [rdV ((7 : BitVec 3).setWidth 5), rdV ((0 : BitVec 3).setWidth 5), rdK 0, rwV ((7 : BitVec 3).setWidth 5)] base ∧
    Ready [rdV 2, rdK 0, wrV 1] base ∧ Ready [rdV 0, rdV 1, rdK 7, wrK 0] base := by
  and_intros <;> decide +kernel

/-- Hypotheses of LaneWiseElements: the last element of the narrowest and the only wide one of the widest type. -/
theorem witness_LaneWiseElements : (0 ≤ 10 ∧ 15 < 16 / elemBytes 0) ∧ (10 ≤ 10 ∧ 7 < 16 / elemBytes 10) ∧ (3 ≤ 10 ∧ 1 < 16 / elemBytes 3) := by
  decide

/-- Hypotheses of IntegerElementFunctions: the greatest elements of i8 and of n64. -/
theorem witness_IntegerElementFunctions : (0 < 8 ∧ 255 < 2 ^ (intTy 0).bits) ∧ (7 < 8 ∧ 2 ^ 64 - 1 < 2 ^ (intTy 7).bits) := by decide

/-- A copy of the line at s1 in the core's L1, its lease live. -/
def copyOfLine : L1Line := { line := 0x1040 / 64, bytes := List.replicate 64 0x80, leaseEnd := 100, grant := 0 }
def cached : State := loaded.onCore 0 (fun k => { k with l1 := [copyOfLine] })

/-- Hypotheses of LoadAndStoreIssue: a load that acquires at SYSTEM scope, the greatest and the least offset, a masked unit, four lanes of
a gather and none, a load that the core's own copy serves; stores likewise, one of them a release at SYSTEM scope. -/
theorem witness_LoadAndStoreIssue :
    ((Instr.ld 0 1 3 1 5 0).wf = true ∧ Ready [rdS loaded.me 1 false, wrS loaded.me 0 false] loaded ∧ loaded.cur.2 < 4 ∧
      AccessOk .ld 0 (loadLane (ptrAdd (loaded.me.rs 1 false) ((0xF : BitVec 5).toInt * (loadType 3).1)) (loadType 3).1)
        (piecesOf (locateAll loaded .ld (loadLane (ptr4 120) 8))) loaded ∧
      ∀ p ∈ piecesOf (locateAll loaded .ld (loadLane (ptr4 120) 8)), l1Serve loaded p = p ∧ p.done = false) ∧
    AccessOk .ld 0 (loadLane (ptrAdd (loaded.me.s (1 : BitVec 3).toNat) ((15 : BitVec 4).toNat * 8)) 8)
      (piecesOf (locateAll loaded .ld (loadLane (ptr4 120) 8))) loaded ∧
    ((Instr.ldv 31 1 7 1 5 0x1F).wf = true ∧ Ready [rdS loaded.me 1 false, rdK 0, rwV 31] loaded ∧ loaded.me.k 0 ≠ 0 ∧
      AccessOk .load 0 (unitLane (ptrAdd (loaded.me.rs 1 false) ((0x1F : BitVec 5).toInt * 16)) (loaded.me.k 0))
        (piecesOf (locateAll loaded .load (unitLane (ptrAdd (ptr4 0) (-16)) 0xFFFF))) loaded) ∧
    (Ready [rdS cached.me 1 false, wrS cached.me 0 false] cached ∧ cached.cur.2 < 4 ∧
      AccessOk .ld 0 (loadLane (ptrAdd (cached.me.rs 1 false) ((0 : BitVec 5).toInt * (loadType 3).1)) (loadType 3).1)
        [{ key := 0x1040, n := 8, ptr := ptr4 0 }] cached ∧ tagOf (ptr4 0) = 4 ∧ isHbm 0x1040 = true ∧ settled cached 0x1040 8 = true ∧
      l1Hit cached cached.cur.1 cached.me.flr (0x1040 / 64) = some copyOfLine) ∧
    (Ready [rdS loaded.me 1 false, rdV 2, rdK 0, rwV 5] loaded ∧
      AccessOk .load 0 (gatherLanes (loaded.me.rs 1 false) (2 ^ (2 : BitVec 2).toNat) (loaded.me.k 0) (loaded.me.v 2) 0 false)
        (piecesOf (locateAll loaded .load (gatherLanes (ptr4 0) 4 0xFFFF (loaded.me.v 2) 0 false))) loaded ∧
      (piecesOf (locateAll loaded .load (gatherLanes (ptr4 0) 4 0xFFFF (loaded.me.v 2) 0 false))).length = 4 ∧
      (∀ p ∈ piecesOf (locateAll loaded .load (gatherLanes (ptr4 0) 4 0xFFFF (loaded.me.v 2) 0 false)),
        l1Serve loaded p = p ∧ p.done = false)) ∧
    loaded.me.k (7 : BitVec 3).toNat = 0 ∧
    ((Instr.st 2 1 3 2 5 0).wf = true ∧ Ready [rdS loaded.me 1 false, rdS loaded.me 2 false] loaded ∧
      AccessOk .store 1 (storeLane (ptrAdd (loaded.me.rs 1 false) ((0 : BitVec 5).toInt * 2 ^ (3 : BitVec 2).toNat)) 8 (loaded.me.rs 2 false))
        (piecesOf (locateAll loaded .store (storeLane (ptr4 0) 8 0x1122334455667788))) loaded ∧
      (released loaded (scopeOf 5) = true ∧ loaded.me.hostWrites = false) ∧
      ∀ p ∈ piecesOf (locateAll loaded .store (storeLane (ptr4 0) 8 0x1122334455667788)), isHost p.key = false) ∧
    ((Instr.stv 31 1 0 2 5 0).wf = true ∧
      AccessOk .store 1 (unitStore (ptrAdd (loaded.me.rs 1 false) ((0 : BitVec 5).toInt * 16)) (loaded.me.k 0) (loaded.me.v 2))
        (piecesOf (locateAll loaded .store (unitStore (ptr4 0) 0xFFFF (loaded.me.v 2)))) loaded) ∧
    AccessOk .store 1 (gatherLanes (loaded.me.rs 1 false) (2 ^ (2 : BitVec 2).toNat) (loaded.me.k 0) (loaded.me.v 2) (loaded.me.v 2) true)
      (piecesOf (locateAll loaded .store (gatherLanes (ptr4 0) 4 0xFFFF (loaded.me.v 2) (loaded.me.v 2) true))) loaded := by
  and_intros <;> decide +kernel

/-- A pointer in s1 and nothing else. -/
def pointing (p : Word) : State := regs [(1, p)] base

/-- What the first checks answer about pointers: a tag that no class accepts, one that only loads accept, a peer space that none accepts;
a set bit of each field that is zero; an odd address. -/
theorem witness_Refused (s : State) :
    (Refused s (takeTrap s .space 0x05 0 0x7000000000000000) [0, 1, 2, 3, 4, 5, 6, 8] 1 0x7000000000000000 ∧
      Refused s (takeTrap s .space 0x05 0 0x8000000000000000) [0, 1, 2, 3, 4, 5, 6] 16 0x8000000000000000 ∧
      Refused s (takeTrap s .space 0x05 0 0x5000500000000000) [0, 1, 2, 3, 4, 5] 8 0x5000500000000000 ∧
      Refused s (takeTrap s .space 0x05 0 0x4000000000001040) [8] 4 0x4000000000001040) ∧
    (Refused s (takeTrap s .bound 0x06 0 0x4001000000000001) [0, 1, 2, 3, 4, 5] 4 0x4001000000000001 ∧
      Refused s (takeTrap s .bound 0x06 0 0x8800000000000000) [8] 8 0x8800000000000000 ∧
      Refused s (takeTrap s .bound 0x06 0 0x1000000000040000) [0, 1, 2, 3, 4, 5, 6, 8] 8 0x1000000000040000 ∧
      Refused s (takeTrap s .bound 0x06 0 0x2000000000040000) [0, 1, 2, 3, 4, 5, 6] 8 0x2000000000040000 ∧
      Refused s (takeTrap s .bound 0x06 0 0x3000400000000000) [0, 1, 2, 3, 4, 5, 6] 8 0x3000400000000000 ∧
      Refused s (takeTrap s .bound 0x06 0 0x5000300000040000) [0, 1, 2, 3, 4, 5, 6] 8 0x5000300000040000) ∧
    (Refused s (takeTrap s .align 0x04 0 0x6000000000000001) [0, 1, 2, 3, 4, 5, 6, 8] 2 0x6000000000000001 ∧
      Refused s (takeTrap s .align 0x04 0 0x5000400000000008) [0, 1, 2, 3, 4, 5, 6] 16 0x5000400000000008 ∧
      Refused s (takeTrap s .align 0x04 0 0x8000000000000004) [8] 8 0x8000000000000004) := by
  and_intros <;>
    first
    | exact .inl ⟨by unfold Accepts; decide +kernel, rfl⟩
    | exact .inr (.inl ⟨by unfold Accepts; decide +kernel, by unfold ZeroFields; decide +kernel, rfl⟩)
    | exact .inr (.inr ⟨by unfold Accepts; decide +kernel, by unfold ZeroFields; decide +kernel, by decide +kernel, rfl⟩)

/-- The first checks refuse the second lane of a gather, after one that passes. -/
theorem witness_LanesRefused :
    LanesRefused loaded (takeTrap loaded .align 0x04 0 (ptr4 1)) .load [0, 1, 2, 3, 4, 5, 6]
      [{ lane := 0, ptr := ptr4 0, n := 4 }, { lane := 1, ptr := ptr4 1, n := 4 }] :=
  ⟨[{ lane := 0, ptr := ptr4 0, n := 4 }], { lane := 1, ptr := ptr4 1, n := 4 }, [], rfl,
    fun x hx => by rw [List.mem_singleton.mp hx]; exact ⟨0x1040, by decide +kernel⟩,
    .inr (.inr ⟨by unfold Accepts; decide +kernel, by unfold ZeroFields; decide +kernel, by decide +kernel, rfl⟩)⟩

/-- Hypotheses of AccessTrapAndFenceResult: forms of each class with their registers at hand, a load that acquires, a store that
releases, an installed update function; pointers as above; a hint that a lost translation stops and one that goes on; a fence of both
orders at SYSTEM scope. -/
theorem witness_AccessTrapAndFenceResult :
    ((Instr.ld 31 1 6 1 5 0x1F).wf = true ∧ (Instr.st 31 1 3 2 5 0x10).wf = true ∧ (Instr.ldv 31 1 7 1 5 0).wf = true ∧
      (Instr.stv 31 1 7 2 5 0).wf = true ∧ Ready [rdS base.me 1 false, wrS base.me 0 false] base ∧
      Ready [rdS base.me 1 false, rdS base.me 31 false] base ∧ Ready [rdS base.me 1 false, rdK 0, rwV 31] base ∧
      Ready [rdS base.me 1 false, rdK 0, rdV 31] base ∧ Ready [rdS base.me 1 false, rdV 0, rdK 0, rwV 31] base ∧
      Ready [rdS base.me 1 true, rdS base.me 2 false, rwS base.me 3 true] base ∧ base.me.k (0 : BitVec 3).toNat ≠ 0) ∧
    Steady base 0 ∧
    locate (pointing 0x9000000000000000) .pref (ptrAdd ((pointing 0x9000000000000000).me.rs 1 false) ((0 : BitVec 5).toInt * 64)) 1 =
      .trap .space 0 ∧
    (locate loaded .pref (ptrAdd (loaded.me.rs 1 false) ((15 : BitVec 5).toInt * 64)) 1 = .key 0x1400 ∧ onLostDie loaded 0x1400 = false ∧
      acquiring loaded = false ∧
      remoteCount loaded loaded.cur.1 < 64 ∧ Ready [rdS loaded.me 1 false] loaded) ∧
    ((Instr.fence 3 5).wf = true ∧ base.me.faults = [] ∧ (released base (scopeOf 5) = true ∧ base.me.hostWrites = false) ∧
      ∀ x ∈ base.ops, ¬ (x.task = base.me.task ∧ x.ctr = some .ld)) := by
  and_intros <;> first | exact steady_of (by decide +kernel) _ | decide +kernel

/-- A store of the running task to HBM and one to its scratchpad, at the head of the bank's queue. -/
def storeOp : Op := { opAt .store 0x1040 8 with ctr := some .st, pieces := [{ key := 0x1040, n := 8, data := 0x1122334455667788, en := 0xF0 }] }
def storing : State := underway base storeOp 0
def scratchOp : Op := { storeOp with pieces := [{ key := 2 ^ 40 + 16, n := 4, data := 5, en := 15 }] }
def scratching : State :=
  { underway base scratchOp 0 with subj := { a := 0, b := 1 } }.onCore 0 (fun k => { k with bankq := [(1, [(7, 0)])] })

/-- A load of the running task that has come to its home bank. -/
def loadOp : Op := { opAt (.load 8 true) 0x1040 8 with ctr := some .ld, regs := [.s 5] }
def loading : State := underway base loadOp 0
/-- A load from space 0x8. -/
def aroundPiece : Piece := { key := 0x1040, n := 8, ptr := 0x8000000000001040 }
def loadingAround : State := underway base { loadOp with pieces := [aroundPiece] } 0

/-- Hypotheses of StoreApplyAndLeaseResult. -/
theorem witness_StoreApplyAndLeaseResult :
    (storing.redLines = [] ∧ (homePiece storing 7 0 (fun k => k == .store)).isSome ∧
      ∀ x ∈ homePiece storing storing.subj.a storing.subj.b (fun k => k == .store), x.1 = storeOp ∧ x.2.fault = none) ∧
    (scratching.redLines = [] ∧ scratching.subj.c = 0 ∧ mapGet [] (scratching.core scratching.subj.a).bankq scratching.subj.b = (scratchOp.id, 0) :: [] ∧
      findOp scratching scratchOp.id = some scratchOp ∧ scratchOp.kind = .store ∧ scratchOp.pieces[0]?.isSome ∧
      ∀ p ∈ scratchOp.pieces[0]?, p.done = false ∧ p.fault = none ∧ isScratch p.key = true) ∧
    (loading.redLines = [] ∧ loadOp.kind = .load 8 true ∧
      homePiece loading loading.subj.a loading.subj.b
        (fun k => match k with | .load _ _ | .loadVec _ | .gather _ _ | .pref _ => true | _ => false) =
          some (loadOp, { key := 0x1040, n := 8, ptr := ptr4 0 }) ∧
      poisoned loading 0x1040 8 = false ∧ poisoned loading (0x1040 / 64 * 64) 64 = false ∧ tagOf (ptr4 0) = 4) ∧
    (homePiece loadingAround 7 0
        (fun k => match k with | .load _ _ | .loadVec _ | .gather _ _ | .pref _ => true | _ => false) =
          some ({ loadOp with pieces := [aroundPiece] }, aroundPiece) ∧ tagOf aroundPiece.ptr = 8 ∧
      poisoned loadingAround aroundPiece.key 8 = false) := by
  and_intros <;> decide +kernel

/-- Operations whose pieces have been applied, one to a peer and one of a host address still to come. -/
def donePieces (o : Op) : Op := { o with pieces := o.pieces.map (fun p => { p with done := true, val := 0x80 }) }
def loadAnswered : State := underway base (donePieces loadOp) 0
def storeAnswered : State := underway base (donePieces storeOp) 0
def peerOp : Op := { storeOp with pieces := [{ key := 2 ^ 60 + 64, n := 8, ptr := 0x5000400000000040 }] }
/-- A load from this device's own location, named as a peer's. -/
def ownOp : Op := { loadOp with tc := 9, pieces := [{ key := 2 ^ 60 + 64, n := 8, ptr := 0x5000400000000040, done := true }] }
def peerRefused : State := { underway (linked base) peerOp 0 with subj := { a := 7, b := 8 } }
def hostOp : Op := { loadOp with pieces := [{ key := 2 ^ 48 + 64, n := 8, ptr := 0x6000000000000040 }] }
def hostFailed : State := { underway base hostOp 0 with subj := { a := 7, b := 1 } }
def hostSilent : State := { underway base hostOp 0 with devtime := 50000000 }

/-- A walk that finds a translation, a lease that has ended, a line asked for and a forwarding entry that is due. -/
def tabled : State :=
  ({ withTables base with subj := { a := 0, b := 3 }, fills := [(0, 0, 0)], leases := [(0, 0)] }.onCore 0
    (fun k => { k with fwd := List.replicate 4 { task := 4, core := 9, chan := 2, till := 0 } })).setSlot 0 3 { walk := some (0, 4, 1) }

/-- The translation of page 1; a walk for it, and one that the second-level cache answers. -/
def page1 : Xlat := { asid := 0, space := 4, page := 1, pages := 1, frame := 1, perm := 15 }
def tabledPage : State := tabled.setSlot 0 3 { walk := some (0, 4, 4096) }
def tabledTwice : State := { tabledPage with tlb2 := [page1] }

/-- Lines 0 and 2^24 + 2^18 lie in one home bank. Where their set is the same, which Config leaves open, it is full of the second line
here: without a lease, and with one. -/
def fullSet (l : AMap Nat) : State :=
  { base with fills := [(0, 0, 0)], homeLines := List.replicate (moreWays + 1) (2 ^ 24 + 2 ^ 18), leases := l }

/-- Hypotheses of MemorySystemEvents, for a home bank whose set is full. -/
theorem witness_MemorySystemEvents_full (h : Config.homeSet 0 = Config.homeSet (2 ^ 24 + 2 ^ 18)) :
    ((fullSet []).fills.find? (fun y => y.1 == 0) = some (0, 0, 0) ∧ 0 ∉ (fullSet []).homeLines ∧
      moreWays < (homeSetOf (fullSet []) 0).length ∧
      (homeSetOf (fullSet []) 0).reverse.find? (fun l => !leased (fullSet []) l && !(fullSet []).redLines.any (fun r => r.line == l)) =
        some (2 ^ 24 + 2 ^ 18)) ∧
    (0 ∉ (fullSet [(2 ^ 24 + 2 ^ 18, 100)]).homeLines ∧ moreWays < (homeSetOf (fullSet [(2 ^ 24 + 2 ^ 18, 100)]) 0).length ∧
      ∀ l ∈ homeSetOf (fullSet [(2 ^ 24 + 2 ^ 18, 100)]) 0, leased (fullSet [(2 ^ 24 + 2 ^ 18, 100)]) l = true ∨
        (fullSet [(2 ^ 24 + 2 ^ 18, 100)]).redLines.any (fun r => r.line == l) = true) ∧
    (homeSetOf { base with fills := [(0, 0, 0)] } 0).length < moreWays + 1 := by
  have hs : sameSet 0 (2 ^ 24 + 2 ^ 18) = true := by rw [sameSet, h, beq_self_eq_true, Bool.and_true]; decide
  have hf : ∀ l, homeSetOf (fullSet l) 0 = List.replicate (moreWays + 1) (2 ^ 24 + 2 ^ 18) := fun l => by
    rw [homeSetOf, fullSet, List.filter_replicate, if_pos hs]
  have hn : ∀ l, 0 ∉ (fullSet l).homeLines := fun l => by simp [fullSet]
  refine ⟨⟨rfl, hn _, by simp [hf], ?_⟩, ⟨hn _, by simp [hf], fun l hl => ?_⟩,
    by simp [homeSetOf, show base.homeLines = [] from by decide +kernel]⟩
  · rw [hf, List.reverse_replicate, List.replicate_succ, List.find?_cons_of_pos]
    decide +kernel
  · rw [hf] at hl
    rw [List.eq_of_mem_replicate hl]
    exact .inl (by decide +kernel)

/-- The refused access had a way to its device. -/
theorem witness_ReplyResult_reachable : reachable peerRefused peerOp = true := by
  have h : keyReady peerRefused peerOp.core (2 ^ 60 + 64) = true := by
    rw [keyReady, linkReady_15 _ _ _ _ (by decide +kernel) (by decide +kernel) (by decide +kernel), Bool.or_true]
  simpa [reachable, peerOp] using h

/-- Hypotheses of ReplyAndMemoryEvents. -/
theorem witness_ReplyAndMemoryEvents :
    (OpOf loadAnswered loadAnswered.subj.a 0 0 (donePieces loadOp) ∧ (donePieces loadOp).ctr = some .ld ∧
      (donePieces loadOp).pend = false ∧ isQueue (donePieces loadOp).kind = false ∧ (donePieces loadOp).kind ≠ .flush ∧ (donePieces loadOp).pieces ≠ [] ∧
      ∀ p ∈ (donePieces loadOp).pieces, p.done = true ∧ isHost p.key = false ∧ (tagOf p.ptr = 5 → (donePieces loadOp).tc ≤ loadAnswered.devtime)) ∧
    (OpOf storeAnswered storeAnswered.subj.a 0 0 (donePieces storeOp) ∧ (donePieces storeOp).ctr = some .st ∧
      (donePieces storeOp).kind = .store ∧ (donePieces storeOp).pend = false ∧ (donePieces storeOp).pieces ≠ [] ∧
      ∀ p ∈ (donePieces storeOp).pieces, p.done = true ∧ (tagOf p.ptr = 5 → (donePieces storeOp).tc ≤ storeAnswered.devtime)) ∧
    (∀ p ∈ ownOp.pieces, p.done = true ∧ isHost p.key = false ∧ tagOf p.ptr = 5 ∧ ownOp.tc ≤ (underway { base with devtime := 9 } ownOp 0).devtime) ∧
    (findOp peerRefused peerRefused.subj.a = some peerOp ∧ peerOp.ctr ≠ none ∧ peerRefused.subj.b = 0x08 ∧
      peerOp.pieces.findIdx? (fun p => !p.done && isPeer p.key && !isSelfPeer peerRefused p.key) = some 0 ∧ peerOp.pieces[0]?.isSome) ∧
    (findOp hostFailed hostFailed.subj.a = some hostOp ∧ hostOp.kind ≠ .flush ∧ writes hostOp.kind = false ∧
      hostOp.pieces.findIdx? (fun p => !p.done && isHost p.key) = some 0 ∧ hostOp.pieces[0]?.isSome ∧ hostFailed.subj.b = 1) ∧
    (findOp hostSilent hostSilent.subj.a = some hostOp ∧ hostOp.since + 50000000 ≤ hostSilent.devtime) ∧
    mapGet 0 tabled.leases tabled.subj.a ≤ tabled.devtime ∧ tabled.fills.find? (fun y => y.1 == tabled.subj.a) = some (0, 0, 0) ∧
    (∀ k ∈ walkReads tabled 0 4 1, homeRoom tabled (k / 64) = true) ∧
    (∀ k ∈ walkReads tabledPage 0 4 4096, homeRoom tabledPage (k / 64) = true) ∧
    ((tabled.slot tabled.subj.a tabled.subj.b).walk = some (0, 4, 1) ∧ tabled.subj.b < 4 ∧
      tabled.tlb2.find? (xlatHas 0 4 1) = none ∧
      walksBefore tabled (xlatDie tabled 0 1) (tabled.slot tabled.subj.a tabled.subj.b).walkAt < 512 ∧
      walk tabled 0 4 1 = .error 0 ∧
      (tabledPage.slot tabledPage.subj.a tabledPage.subj.b).walk = some (0, 4, 4096) ∧
      tabledPage.tlb2.find? (xlatHas 0 4 (4096 / 4096)) = none ∧
      walksBefore tabledPage (xlatDie tabledPage 0 4096) (tabledPage.slot tabledPage.subj.a tabledPage.subj.b).walkAt < 512 ∧
      walk tabledPage 0 4 4096 = .ok page1) ∧
    (tabledTwice.slot tabledTwice.subj.a tabledTwice.subj.b).walk = some (0, 4, 4096) ∧
    tabledTwice.tlb2.find? (xlatHas 0 4 (4096 / 4096)) = some page1 ∧
    ((tabled.core tabled.subj.a).fwd[tabled.subj.b]? = some { task := 4, core := 9, chan := 2, till := 0 } ∧ 0 ≤ tabled.devtime) := by
  and_intros <;> decide +kernel

/-- `loaded` with update function 3 installed; its function word in s4 and its body, words of 64 zero bytes, in memory at s1. -/
def functions : State :=
  { regs [(4, 3)] loaded with ufns := [(3, ⟨false, List.replicate 16 0⟩)] }.onMe (fun t => { t with ereg := t.ereg.set 0 3 })

/-- A UFNCFG that has begun to install update function 3. -/
def installOp : Op := { myOp functions (.ufncfg 3 true (List.replicate 16 0)) with id := 7, pend := true }
def installing : State := underway functions installOp 0

/-- Pointers of RED's space to the word at s1. -/
def reducing : State := regs [(1, 0x8000000000001040)] base

/-- Hypotheses of AtomicIssueResult: both widths, a destination that is a source, an update function that is installed and one that is not,
RED of both types, UFNCFG in both modes. -/
theorem witness_AtomicIssueResult :
    (Ready [rdS loaded.me 1 true, rdS loaded.me 2 false, wrS loaded.me 1 true] loaded ∧ loaded.cur.2 < 4 ∧
      AccessOk .amo 2 (loadLane (loaded.me.rs 1 true) (2 ^ (2 : BitVec 2).toNat))
        (piecesOf (locateAll loaded .amo (loadLane (ptr4 0) 4))) loaded ∧
      AccessOk .amo 2 (loadLane (loaded.me.rs 1 true) (2 ^ (3 : BitVec 2).toNat))
        (piecesOf (locateAll loaded .amo (loadLane (ptr4 0) 8))) loaded) ∧
    Ready [rdS loaded.me 1 false, rdS loaded.me 2 false, rwS loaded.me 3 false] loaded ∧
    (mapGet? functions.ufns ((functions.me.e 0).toNat % 16) = some ⟨false, List.replicate 16 0⟩ ∧
      Ready [rdS functions.me 1 false, rdS functions.me 2 false, rwS functions.me 3 false] functions ∧
      AccessOk .amo 2 (loadLane (functions.me.rs 1 false) 4) (piecesOf (locateAll functions .amo (loadLane (ptr4 0) 4))) functions) ∧
    mapGet? loaded.ufns ((loaded.me.e 0).toNat % 16) = none ∧
    ((1 : BitVec 2).toNat ≤ 1 ∧ Ready [rdS reducing.me 1 false, rdS reducing.me 0 false] reducing ∧
      AccessOk .red 2 (loadLane (reducing.me.rs 1 false) (4 * 2 ^ (0 : BitVec 2).toNat))
        (piecesOf (locateAll reducing .red (loadLane 0x8000000000001040 4))) reducing ∧
      AccessOk .red 2 (loadLane (reducing.me.rs 1 false) (4 * 2 ^ (1 : BitVec 2).toNat))
        (piecesOf (locateAll reducing .red (loadLane 0x8000000000001040 8))) reducing) ∧
    (Steady functions ((functions.me.e 0).toNat % 16) ∧ Steady loaded ((loaded.me.e 0).toNat % 16)) ∧
    (installing.me.priv = true ∧ Ready [rdS installing.me 1 false, rdS installing.me 4 false] installing ∧
      pending installing = some installOp ∧ installOp.kind = .ufncfg 3 true (List.replicate 16 0)) ∧
    (functions.me.priv = true ∧ Ready [rdS functions.me 1 false, rdS functions.me 4 false] functions ∧ pending functions = none ∧
      functions.cur.2 < 4 ∧ tagOf (functions.me.rs 1 false) = 4 ∧
      Passes .load [{ lane := 0, ptr := functions.me.rs 1 false, n := 64 }] [{ key := 0x1040, n := 64, ptr := ptr4 0 }] functions ∧
      functions.redLines = [] ∧ poisoned functions 0x1040 64 = false ∧ settled functions 0x1040 64 = true ∧ bits (functions.me.rs 4 false) 63 5 = 0 ∧
      ((List.range 16).map (fun i => BitVec.ofNat 32 (readNat functions (0x1040 + 4 * i) 4))).all
        (microOk ((functions.me.rs 4 false).getLsbD 4)) = true) ∧
    userTask.me.priv = false := by
  and_intros <;> first | exact steady_of (by decide +kernel) _ | decide +kernel

/-- Atomics, an update function and a RED that have come to their home bank, with the field of the operation that matters. -/
def amoOp (k : OpKind) (n : Nat) : Op := { opAt k 0x1040 n with ctr := some .ld, regs := [.s 5] }
def amoHere (k : OpKind) (n : Nat) : State := underway { base with ufns := [(3, ⟨false, List.replicate 16 0⟩)] } (amoOp k n) 0
def redHere : State := underway base (amoOp (.red true 5) 8) 0
/-- The 4,096 slots of the home bank are held by other cores; a RED comes to it, and one has waited there 10 us. -/
def redFull4096 (t : Nat) (o : Op) : State :=
  { underway base o 0 with
    devtime := t, redLines := [⟨0x1040 / 64, true, (List.range 4096).map (fun i => ⟨i + 1, [(0, 1)], []⟩)⟩] }
def redNow : Op := amoOp (.red true 5) 8
def redLate : Op := { redNow with phase := 2 }

/-- Hypotheses of AtomicApplyAndRedResult. -/
theorem witness_AtomicApplyAndRedResult :
    ((amoHere (.amo .min 4 5) 4).redLines = [] ∧
      homePiece (amoHere (.amo .min 4 5) 4) 7 0 (fun k => match k with | .amo _ _ _ | .cas _ _ _ => true | _ => false) =
        some (amoOp (.amo .min 4 5) 4, { key := 0x1040, n := 4, ptr := ptr4 0 }) ∧
      poisoned (amoHere (.amo .min 4 5) 4) 0x1040 4 = false) ∧
    (homePiece (amoHere (.cas 8 0 9) 8) 7 0 (fun k => match k with | .amo _ _ _ | .cas _ _ _ => true | _ => false) =
        some (amoOp (.cas 8 0 9) 8, { key := 0x1040, n := 8, ptr := ptr4 0 }) ∧
      poisoned (amoHere (.cas 8 0 9) 8) 0x1040 8 = false) ∧
    (homePiece (amoHere (.ufn 3 1 2) 4) 7 0 (fun k => match k with | .ufn _ _ _ => true | _ => false) =
        some (amoOp (.ufn 3 1 2) 4, { key := 0x1040, n := 4, ptr := ptr4 0 }) ∧
      mapGet? (amoHere (.ufn 3 1 2) 4).ufns 3 = some ⟨false, List.replicate 16 0⟩) ∧
    (Steady (amoHere (.ufn 3 1 2) 4) 3 ∧ poisoned (amoHere (.ufn 3 1 2) 4) 0x1040 4 = false) ∧
    (redHere.redLines = [] ∧ redWaited redHere (amoOp (.red true 5) 8) = false ∧
      homePiece redHere 7 0 (fun k => match k with | .red _ _ => true | _ => false) =
        some (amoOp (.red true 5) 8, { key := 0x1040, n := 8, ptr := ptr4 0 })) ∧
    (homePiece (redFull4096 0 redNow) 7 0 (fun k => match k with | .red _ _ => true | _ => false) =
        some (redNow, { key := 0x1040, n := 8, ptr := ptr4 0 }) ∧ redNow.kind = .red true 5 ∧
      redFull (redFull4096 0 redNow) redNow { key := 0x1040, n := 8, ptr := ptr4 0 } true = true ∧ redNow.phase ≠ 2) ∧
    (findOp (redFull4096 10000 redLate) (redFull4096 10000 redLate).subj.a = some redLate ∧ redLate.kind = .red true 5 ∧
      redLate.phase = 2 ∧ redLate.since + 10000 ≤ (redFull4096 10000 redLate).devtime ∧ ∃ p ∈ redLate.pieces, p.done = false) := by
  and_intros <;> first | exact steady_of (by decide +kernel) _ | decide +kernel

/-- A WAITC that has been answered, one at its home bank, one that reads again. -/
def waitOp : Op := { opAt (.waitc 0 0 false 0) 0x1040 8 with pend := true }
def waitAnswered : State := underway loaded { donePieces waitOp with answer := some [5] } 0
def waitHere : State := underway loaded waitOp 0
/-- A WAITC whose condition is not met, its strand still in the short stall of its issue. -/
def waitStart : Op := { waitOp with kind := .waitc 0 5 false 0 }
def waitStalled : State := (underway loaded waitStart 0).onMe (fun t => t.waitIn .stalled (.op 7))
def waitAgain : State := underway loaded (donePieces waitOp) 0
/-- A barrier that 64 arrivals complete, 63 of them made; the strand has its arrival recorded in `arrived`; deliveries still to credit. -/
def barred : State :=
  base.onCluster 0 (fun k => { k with bars := [(31, { phase := 0xFFFF, need := 64, arr := 63 })], credits := [(30, 8, 100), (31, 16, 0)] })
/-- Deliveries that a release still holds back. -/
def heldBack : State := base.onCluster 0 (fun k => { k with credits := [(31, 16, 100)] })
def arrived : State := barred.onMe (fun t => t.setArrival 31 (some 0xFFFF))

/-- Hypotheses of WaitcAndBarrierResult: BARX with NEED 64 and its greatest byte count. -/
theorem witness_WaitcAndBarrierResult :
    (Ready [rdS waitAnswered.me 1 false, rdS waitAnswered.me 0 false, wrS waitAnswered.me 0 false] waitAnswered ∧ waitAnswered.cur.2 < 4 ∧
      Answered waitAnswered { donePieces waitOp with answer := some [5] } [5] ∧
      watchHit waitAnswered.me 0 (loadLane (waitAnswered.me.rs 1 false) 8) = none) ∧
    (pending loaded = none ∧ Passes .waitc (loadLane (loaded.me.rs 1 false) 8) (piecesOf (locateAll loaded .waitc (loadLane (ptr4 0) 8))) loaded ∧
      Ready [rdS loaded.me 1 false, rdS loaded.me 0 false, wrS loaded.me 0 false] loaded) ∧
    (waitHere.redLines = [] ∧
      homePiece waitHere waitHere.subj.a 0 (fun k => match k with | .waitc _ _ _ _ => true | _ => false) =
        some (waitOp, { key := 0x1040, n := 8, ptr := ptr4 0 }) ∧ waitOp.kind = .waitc 0 0 false 0 ∧ poisoned waitHere 0x1040 8 = false ∧
      condHolds 0 (BitVec.ofNat 64 (readNat waitHere 0x1040 8)) 0 = true ∧ monitorsAt waitHere 0x1040 < 1024) ∧
    (homePiece waitStalled waitStalled.subj.a 0 (fun k => match k with | .waitc _ _ _ _ => true | _ => false) =
        some (waitStart, { key := 0x1040, n := 8, ptr := ptr4 0 }) ∧ waitStart.kind = .waitc 0 5 false 0 ∧
      condHolds 0 (BitVec.ofNat 64 (readNat waitStalled 0x1040 8)) 5 = false ∧ monitorsAt waitStalled 0x1040 < 1024 ∧
      waitStalled.taskSlot waitStart.task = some (0, 0) ∧ (waitStalled.slot 0 0).st = .stalled ∧
      (waitStalled.slot 0 0).wait = .op waitStart.id) ∧
    (findOp waitAgain waitAgain.subj.a = some (donePieces waitOp) ∧ (donePieces waitOp).kind = .waitc 0 0 false 0 ∧
      (donePieces waitOp).pieces = [{ key := 0x1040, n := 8, ptr := ptr4 0, done := true, val := 0x80 }] ∧
      (donePieces waitOp).fault = none ∧ (donePieces waitOp).answer = none ∧ 0 ≤ waitAgain.devtime ∧ isHbm 0x1040 = true ∧
      bankFree waitAgain 0x1040 8 = true ∧ poisoned waitAgain 0x1040 8 = false ∧
      condHolds 0 (BitVec.ofNat 64 (readNat waitAgain 0x1040 8)) 0 = true) ∧
    (barred.me.arrival (31 : BitVec 5).toNat ≠ some (barrier barred barred.myCluster (31 : BitVec 5).toNat).phase ∧ barred.cur.2 < 4) ∧
    arrived.me.arrival (31 : BitVec 5).toNat = some (barrier arrived arrived.myCluster (31 : BitVec 5).toNat).phase ∧
    ((regs [(1, 0x000040FFFFFFFFFF)] base).me.rs 1 false).extractLsb' 40 7 ≤ 64 ∧
    ((regs [(1, 0x000040FFFFFFFFFF)] base).me.rs 1 false).extractLsb' 47 17 = 0 ∧
    (barred.cluster barred.subj.a).credits.find? (fun x => decide (x.2.2 ≤ barred.devtime)) = some (31, 16, 0) ∧
    (∀ x ∈ (heldBack.cluster heldBack.subj.a).credits, heldBack.devtime < x.2.2) := by
  and_intros <;> decide +kernel

/-- The descriptor line of a queue object at physical address 0x1040 (Table 9.5). -/
def descLine (kind esize cap head count granted : Nat) : Nat :=
  1 + kind * 2 + esize * 8 + cap * 2 ^ 24 + 100 * 2 ^ 48 + head * 2 ^ 64 + count * 2 ^ 96 + granted * 2 ^ 128

/-- The handle of that object in s1, and its descriptor in memory. -/
def handle : Word := 0x7000000000001040
def queueObj (n : Nat) : State := writeNat (regs [(1, handle)] (withTables base)) 0x1040 n (2 ^ 64 - 1) 64

/-- A live permit of two elements; one that waits for nothing. -/
def permit : PermitEntry := { ctx := 0, handle := 0x7000000000001040, count := 2, expiry := 3, busy := 0, reserved := none }
def permitted : State := (queueObj 0).onCore 0 (fun k => { k with permits := [permit] })

/-- A pop word for 64-byte elements with a window of 1,023 ns. -/
def popping : State := regs [(2, 0x17FF), (4, 7)] (queueObj 0)

/-- A QPOP.w that its home has refused. -/
def refusedPop : Op := { waitOp with fault := some (.bound, 0, handle) }

/-- Hypotheses of QueueFormResult: elements of 64 bytes that end at s63, a pop word with every field at its greatest, a live permit to the
instant, one permit to give back, none held; answers of QINIT and QPOP.w; a configuration word of STACK, 64 bytes and the greatest
capacity. -/
theorem witness_QueueFormResult :
    ((2 : BitVec 2) ≠ 3 ∧ Ready ([rdS permitted.me 1 false, ⟨0, (((24 : BitVec 5).toNat + bytesOfCode 2 / 8 - 1 : Nat) : Int), true, false⟩] ++
        rdRange 24 (bytesOfCode 2 / 8) ++ [wrS permitted.me 0 false]) permitted ∧
      Passes .queue (handleLane (permitted.me.rs 1 false)) (piecesOf (locateAll permitted .queue (handleLane handle))) permitted ∧
      cachedKind permitted (permitted.me.rs 1 false) = none ∧
      permitEntry permitted.myCore permitted.me.ctx (permitted.me.rs 1 false).toNat = some permit ∧ permit.count ≠ 0 ∧
      permitted.devtime + 2 < permit.expiry) ∧
    (Ready [rdS popping.me 1 false, rdS popping.me 2 false] popping ∧ Ready (popUses popping.me 23 false (popping.me.rs 2 false)) popping ∧
      popOk (popping.me.rs 2 false) = true ∧
      Passes .queue (handleLane (popping.me.rs 1 false)) (piecesOf (locateAll popping .queue (handleLane handle))) popping ∧
      Passes .avail (handleLane (popping.me.rs 1 false)) (piecesOf (locateAll popping .avail (handleLane handle))) popping) ∧
    (Ready [rdS popping.me 1 false, rdS popping.me 4 false, wrS popping.me 0 false] popping ∧ (popping.me.rs 4 false).toNat < 2 ^ 32 ∧
      (permitClaim popping.devtime popping.myCore popping.me.ctx (popping.me.rs 1 false).toNat).isSome ∧
      ∀ k ∈ permitClaim popping.devtime popping.myCore popping.me.ctx (popping.me.rs 1 false).toNat,
        ∀ e ∈ permitEntry k popping.me.ctx (popping.me.rs 1 false).toNat, e.reserved = none) ∧
    (permit.reserved = none ∧ 0 < min (permitted.me.rs 1 false).toNat permit.count) ∧
    permitEntry popping.myCore popping.me.ctx (popping.me.rs 1 false).toNat = none ∧
    Answered (underway loaded { waitOp with answer := some [] } 0) { waitOp with answer := some [] } [] ∧
    (pending loaded = none ∧ ptrCheck .region (loaded.me.rs 1 false) = none ∧ (loaded.me.rs 1 false).toNat % 64 = 0 ∧
      qinitOk 0x0000FFFFFFFFFF0A = true ∧
      Passes .region (handleLane (loaded.me.rs 1 false)) (piecesOf (locateAll loaded .region (handleLane (ptr4 0)))) loaded) ∧
    cachedKind popping (popping.me.rs 1 false) = none ∧ pending popping = none ∧
    (Ready (popUses popping.me 23 false (popping.me.rs 2 false)) { popping with ops := [{ waitOp with answer := some [] }] } ∧
      Answered { popping with ops := [{ waitOp with answer := some [1, 2, 3, 4, 5, 6, 7, 8, 1] }] }
        { waitOp with answer := some [1, 2, 3, 4, 5, 6, 7, 8, 1] } [1, 2, 3, 4, 5, 6, 7, 8, 1]) ∧
    (Ready (popUses popping.me 23 false (popping.me.rs 2 false)) { popping with ops := [refusedPop] } ∧
      pending { popping with ops := [refusedPop] } = some refusedPop ∧ opFault refusedPop = some (.bound, 0, handle)) := by
  and_intros <;> decide +kernel

/-- A queue operation of the running task at its home. -/
def queueOp (k : OpKind) : Op := { opAt k 0x1040 64 with ptr := handle }
/-- One that has arrived there, and the module at the next instant. -/
def initOp : Op := { queueOp (.qinit 0x0000FFFFFFFFFF0A) with pend := true }
def initHome : State := underway (queueObj 0) initOp 0
def homeOp (k : OpKind) : Op := { queueOp k with phase := 5 }
def atHome (k : OpKind) (n : Nat) : State := { underway (queueObj n) (homeOp k) 0 with devtime := 1 }
def toHome (k : OpKind) : State := underway (queueObj 0) (queueOp k) 0

/-- The module with a permit of two elements recorded, which expires at `e`. -/
def withPermit (k : OpKind) (e n : Nat) : State := { atHome k n with permRecs := [⟨0x1040, 0, 0, 2, some e, none⟩] }

/-- Where a home finds an element of the object at 0x1040, and that the element's bank has a way for it. -/
def ElementAt (s : State) (o : Op) (need : Nat) (p : Word) (k : Nat) : Prop :=
  elementKey (homeView s o 0x1040 p) o need p = .ok k ∧ homeRoom (homeView s o 0x1040 p) (k / 64) = true

/-- A bank whose lines may all be evicted has room. -/
theorem room_of {s : State} {l : Nat} (h : s.homeLines.all (evictable s) = true) : homeRoom s l = true := by
  rw [homeRoom]
  rcases he : homeSetOf s l with _ | ⟨x, r⟩
  · simp
  · have hx : x ∈ s.homeLines := (List.mem_filter.mp (show x ∈ homeSetOf s l by rw [he]; exact List.mem_cons_self)).1
    simp [List.all_eq_true.mp h x hx]

/-- Banks of HBM whose lines may all be evicted serve an engine at once. -/
theorem segsFree_of {s : State} {l : List Seg} (h : s.homeLines.all (evictable s) = true)
    (hk : ∀ g ∈ l, isHbm (locOf s { key := g.key, n := g.len }) = true) : segsFree s l = true := by
  rw [segsFree, List.all_eq_true]
  intro g hg
  rw [bankFree, if_pos (hk g hg), List.all_eq_true]
  exact fun _ _ => room_of h

theorem element_at {s : State} {o : Op} {need k : Nat} {p : Word} (h : elementKey (homeView s o 0x1040 p) o need p = .ok k)
    (hr : (homeView s o 0x1040 p).homeLines.all (evictable (homeView s o 0x1040 p)) = true) : ElementAt s o need p k := ⟨h, room_of hr⟩

/-- Hypotheses of QueueHomeResult: an object one element short of full and one with permits granted, a FIFO at its last slot, a STACK, an
empty object; operations on their way and in their turn; permits granted, given back and expired. -/
theorem witness_QueueHomeResult :
    (initHome.redLines = [] ∧ findOp initHome initHome.subj.a = some initOp ∧ initOp.phase = 0 ∧ initOp.pend = true ∧
      (initOp.pieces.head?).map (·.key) = some 0x1040 ∧ (∀ m ∈ initHome.monitors, m.op ≠ initOp.id) ∧
      homeRoom initHome (0x1040 / 64) = true) ∧
    (∀ kd ∈ ([.qpush 8 [5] 1 none, .qpop 8 false 64 0, .qsteal 8, .qavail, .permit 9, .pret 9] : List OpKind),
      findOp (toHome kd) 7 = some (queueOp kd) ∧ (queueOp kd).phase = 0 ∧ ((queueOp kd).pieces.head?).map (·.key) = some 0x1040 ∧
      mustPair (toHome kd) (queueOp kd) 0x1040 = false ∧ inOrder (toHome kd) (queueOp kd) 0x1040 = true ∧
      earlierOnes (toHome kd) (queueOp kd) 0x1040 5 = []) ∧
    inOrder { toHome .qavail with ops := [{ queueOp .qavail with id := 6 }, queueOp .qavail] } (queueOp .qavail) 0x1040 = false ∧
    (earlierOnes { toHome .qavail with ops := [{ homeOp .qavail with id := 6 }, queueOp .qavail] } (queueOp .qavail) 0x1040 5 ≠ [] ∧
      inOrder { toHome .qavail with ops := [{ homeOp .qavail with id := 6 }, queueOp .qavail] } (queueOp .qavail) 0x1040 = true) ∧
    (∀ kd ∈ ([.qpush 8 [5] 0 none, .qpop 8 false 64 0, .qsteal 8, .qavail, .permit 9, .pret 9] : List OpKind),
      (homeOp kd).phase = 5 ∧ ((homeOp kd).pieces.head?).map (·.key) = some 0x1040 ∧ homeTurn (atHome kd 0) (homeOp kd) 0x1040 = true) ∧
    (HomeServes (atHome (.qpush 8 [5] 0 none) (descLine 0 0 4 3 2 1)) (homeOp (.qpush 8 [5] 0 none)) 0x1040 (some (codeOf 8))
        ⟨true, 0, 0, 4, 100, 3, 2, 1⟩ ∧ 2 + 1 < 4 ∧ waitingPop (atHome (.qpush 8 [5] 0 none) (descLine 0 0 4 3 2 1)) 0x1040 = none ∧
      ElementAt (atHome (.qpush 8 [5] 0 none) (descLine 0 0 4 3 2 1)) (homeOp (.qpush 8 [5] 0 none)) 2 (elementPtr handle 8 ((3 + 2) % 4))
        0x1088) ∧
    (HomeServes (atHome (.qpop 8 false 64 0) (descLine 0 0 4 3 4 0)) (homeOp (.qpop 8 false 64 0)) 0x1040 (some (codeOf 8))
        ⟨true, 0, 0, 4, 100, 3, 4, 0⟩ ∧
      ElementAt (atHome (.qpop 8 false 64 0) (descLine 0 0 4 3 4 0)) (homeOp (.qpop 8 false 64 0)) 1 (elementPtr handle 8 3) 0x1098 ∧
      poisoned (atHome (.qpop 8 false 64 0) (descLine 0 0 4 3 4 0)) 0x1098 8 = false) ∧
    (HomeServes (atHome (.qsteal 8) (descLine 1 0 4 0 1 0)) (homeOp (.qsteal 8)) 0x1040 (some (codeOf 8)) ⟨true, 1, 0, 4, 100, 0, 1, 0⟩ ∧
      ElementAt (atHome (.qsteal 8) (descLine 1 0 4 0 1 0)) (homeOp (.qsteal 8)) 1 (elementPtr handle 8 0) 0x1080 ∧
      poisoned (atHome (.qsteal 8) (descLine 1 0 4 0 1 0)) 0x1080 8 = false) ∧
    HomeServes (atHome (.qpop 8 false 64 0) (descLine 0 0 4 0 0 0)) (homeOp (.qpop 8 false 64 0)) 0x1040 (some (codeOf 8))
      ⟨true, 0, 0, 4, 100, 0, 0, 0⟩ ∧
    HomeServes (atHome .qavail (descLine 0 0 4 0 4 0)) (homeOp .qavail) 0x1040 none ⟨true, 0, 0, 4, 100, 0, 4, 0⟩ ∧
    HomeServes (atHome (.permit 9) (descLine 0 0 4 0 0 0)) (homeOp (.permit 9)) 0x1040 none ⟨true, 0, 0, 4, 100, 0, 0, 0⟩ ∧
    (let s := withPermit (.permit 9) 9 (descLine 0 0 4 0 1 2)
     HomeReads s (homeOp (.permit 9)) 0x1040 none ⟨true, 0, 0, 4, 100, 0, 1, 2⟩ ∧ homeTurn s (homeOp (.permit 9)) 0x1040 = true ∧
      s.permRecs = [⟨0x1040, (homeOp (.permit 9)).core, (homeOp (.permit 9)).ctx, 2, some 9, none⟩] ∧ s.devtime < 9) ∧
    (let s := withPermit (.qpush 8 [5] 0 none) 9 (descLine 0 0 4 0 2 2)
     HomeReads s (homeOp (.qpush 8 [5] 0 none)) 0x1040 (some (codeOf 8)) ⟨true, 0, 0, 4, 100, 0, 2, 2⟩ ∧
      homeTurn s (homeOp (.qpush 8 [5] 0 none)) 0x1040 = true ∧ waitingPop s 0x1040 = none ∧
      ElementAt s (homeOp (.qpush 8 [5] 0 none)) 2 (elementPtr handle 8 ((0 + 2) % 4)) 0x1090) ∧
    (let s := withPermit (.pret 9) 9 (descLine 0 0 4 0 0 2)
     HomeReads s (homeOp (.pret 9)) 0x1040 none ⟨true, 0, 0, 4, 100, 0, 0, 2⟩ ∧ homeTurn s (homeOp (.pret 9)) 0x1040 = true ∧
      (homeOp (.pret 9)).phase = 5) ∧
    (let s := { withPermit (.pret 9) 0 (descLine 0 0 4 0 0 2) with subj := {} }
     s.redLines = [] ∧ s.subj.a = 0 ∧ 0 ≤ s.devtime ∧ 2 ≠ 0) := by
  and_intros <;> first | exact element_at (by decide +kernel) (by decide +kernel) | decide +kernel


/-- A push of core 0 and a pop of core 16 that the Glover stage of cluster 0 holds, of one object whose home is cluster `homeCluster 0x1040`. -/
def pushOp : Op := queueOp (.qpush 8 [5] 1 none)
def heldPop : Op := { queueOp (.qpop 8 false 64 0) with id := 8, core := 16, task := 2, phase := 1 }
def meeting : State :=
  { (queueObj (descLine 0 0 4 0 0 0)).onCluster 0 (fun k => { k with glover := [8] }) with ops := [pushOp, heldPop], subj := { a := 7, b := 8 } }
/-- The window of the pop is over: 64 ns at two counts each. -/
def windowDone : State := { meeting with devtime := 32, subj := { a := 8 } }
def retrying : Op := { queueOp (.qpop 8 true 64 0) with phase := 3 }

/-- The running task's stream register 7 bound, and the task BLOCKED for 8 bytes of it. -/
def blockedOn (q : Stream) : State :=
  ({ withTables base with subj := { a := 0, b := 0, c := 7 } }).onMe (fun t => { t.setQ 7 q with st := .blocked, wait := .stream 7 8 })
def boundQueue : Stream := { kind := 1, esize := 0, source := handle }
def blockedMiss (q : Stream) : State := (blockedOn q).onCore 0 (fun k => { k with tlb := [] })
/-- A message of channel 3 in the receive store. -/
def arrivedMsg : Msg := { chan := 3, seq := 0, pay := Vector.replicate 8 5, msgid := 1 }

/-- Hypotheses of GloverAndStreamResult. -/
theorem witness_GloverAndStreamResult :
    (findOp meeting meeting.subj.a = some pushOp ∧ pushOp.phase = 0 ∧ (pushOp.pieces.head?).map (·.key) = some 0x1040 ∧
      findOp meeting meeting.subj.b = some heldPop ∧ heldPop.kind = .qpop 8 false 64 0 ∧ stageOf meeting meeting.subj.b = some 0 ∧
      stagePop meeting 0 pushOp.ptr 0x1040 8 = some heldPop.id ∧ pushOp.id ≠ heldPop.id ∧
      onRoute meeting (clusterOf pushOp.core) (homeCluster 0x1040) 0 = true) ∧
    (findOp windowDone windowDone.subj.a = some heldPop ∧ stageOf windowDone windowDone.subj.a = some 0 ∧
      windowOver windowDone heldPop = true) ∧
    (HomeServes (underway (queueObj (descLine 0 0 4 0 0 0)) retrying 0) retrying 0x1040 (some (codeOf 8)) ⟨true, 0, 0, 4, 100, 0, 0, 0⟩ ∧
      homeRoom (underway (queueObj (descLine 0 0 4 0 0 0)) retrying 0) (0x1040 / 64) = true ∧
      monitorsAt (underway (queueObj (descLine 0 0 4 0 0 0)) retrying 0) 0x1040 < 1024) ∧
    ((let s := regs [(2, 9)] (queueObj 0)
      Ready [rdS s.me 1 false, rdS s.me 2 false] s ∧ (s.me.q (7 : BitVec 3).toNat).kind = 0 ∧ (s.me.rs 2 false).toNat % 4 = 1 ∧
      (s.me.rs 2 false).toNat < 12 ∧ ptrCheck .queue (s.me.rs 1 false) = none)) ∧
    ((blockedOn boundQueue).me.q (7 : BitVec 3).toNat).kind ≠ 0 ∧ ((blockedOn boundQueue).me.q (7 : BitVec 3).toNat).kind ≤ 1 ∧
    (streamWants ((blockedOn boundQueue).slot 0 0) 7 = true ∧ 
      boundQueue.retry = 0 ∧ translate (blockedMiss boundQueue) 4 2 (bits handle 47 0) = .walk 0 4 0x1040 ∧ (blockedMiss boundQueue).me.walk = none ∧
      translate (blockedOn boundQueue) 4 2 (bits handle 47 0) = .key 0x1040 ∧ acquiring (blockedOn boundQueue) = false ∧
      remoteCount (blockedOn boundQueue) 0 < 64 ∧
      (blockedOn boundQueue).cur = ((blockedOn boundQueue).subj.a, (blockedOn boundQueue).subj.b) ∧
      streamWants ((blockedOn { boundQueue with retry := 64 }).slot 0 0) 7 = true ∧ 0 < 64 ∧ 64 ≤ ({ blockedOn boundQueue with devtime := 64 }).devtime) ∧
    (streamWants ((blockedOn { kind := 3, source := 3 }).slot 0 0) 7 = true ∧
      nextRouted (((blockedOn { kind := 3, source := 3 }).onCore 0 (fun k => { k with rx := [arrivedMsg] })).core 0) 3 = some arrivedMsg) := by
  and_intros <;> decide +kernel

/-- Destination words in s1: a peer device with its greatest fields, channel 63; a grid of 2^24 tasks in e0 and e1; 31 sends buffered. -/
def sender : State :=
  (regs [(1, 0x00000000FFFFFFFF), (2, 63), (3, 0x00000000040000FF)] base).onMe (fun t => { t with
    fromTimed := true, ereg := (t.ereg.set 0 0x01000100).set 1 0x100
    sends := List.replicate 31 { form := 0, net := 0, dest := 0, data := [], pc := 0 } })

/-- Hypotheses of SendAndHandlerResult: payloads that end at s63, an own entry and one of another context, the greatest target word, an
entry write under way. -/
theorem witness_SendAndHandlerResult :
    (Ready (rdS sender.me 1 true :: rangeUses 31 8) sender ∧ destOk (sender.me.rs 1 true) = true ∧ sender.me.fromTimed = true) ∧
    (Ready (rdS userTask.me 1 false :: rangeUses 24 8) userTask ∧ destOk (userTask.me.rs 1 false) = true ∧ userTask.me.fromTimed = false ∧
      userTask.me.priv = false) ∧
    ((sender.me.rs 2 false).toNat < 64 ∧ sendUsed sender sender.cur.1 sender.cur.2 0 < 32 ∧ Ready (rdS sender.me 2 false :: rangeUses 24 8) sender) ∧
    (let s := regs [(3, 0x0000000004000000)] sender
     Ready [rdS s.me 3 false, rdS s.me 0 false] s ∧ Ready (rangeUses 27 5) s ∧ coreSetOk (s.me.rs 3 false) = true ∧
      (s.me.rs 3 false).getLsbD 27 = false ∧ s.me.rs 0 false = 0 ∧ gridCount (s.me.e 0) (s.me.e 1) ≤ 2 ^ 24 ∧ sendUsed s s.cur.1 s.cur.2 0 < 32) ∧
    (let s := regs [(1, 63 * 2 ^ 13 + 8191), (2, 1)] userTask
     targetCore (s.me.rs 1 false) ≠ s.cur.1 ∧ (s.die (dieOf (targetCore (s.me.rs 1 false)))).lost = false ∧ remoteCount s s.cur.1 < 64 ∧
      entryPriv s.me.ctx ((s.core (targetCore (s.me.rs 1 false))).entry (targetChan (s.me.rs 1 false)))
        ((s.me.s ((3 : BitVec 5).toNat + 1)).append (s.me.s (3 : BitVec 5).toNat)) = false) ∧
    (let s := regs [(1, 63 * 2 ^ 13), (2, 1)] userTask
     Ready [rdS s.me 1 false, rdS s.me 2 false] s ∧ pending s = none ∧ (s.me.rs 1 false).toNat < 2 ^ 19 ∧ (s.me.rs 2 false).toNat < 2 ∧
      entBits ((s.core (targetCore (s.me.rs 1 false))).entry (targetChan (s.me.rs 1 false))) 0 0 = 0 ∧
      targetCore (s.me.rs 1 false) = s.cur.1) ∧
    (let s := (regs [(1, 63 * 2 ^ 13)] userTask).onCore 0 (fun k => { k with handlers := [(63, BitVec.ofNat 128 (2 ^ 76 + 1))] })
     s.me.priv = false ∧ entBits ((s.core (targetCore (s.me.rs 1 false))).entry (targetChan (s.me.rs 1 false))) 0 0 = 1 ∧
      entBits ((s.core (targetCore (s.me.rs 1 false))).entry (targetChan (s.me.rs 1 false))) 76 64 ≠ s.me.ctx) ∧
    (let s := regs [(1, 63 * 2 ^ 13)] base
     Ready (rdS s.me 1 false :: rangeUses 30 2) s ∧ s.me.priv = true ∧ targetCore (s.me.rs 1 false) = s.cur.1) ∧
    (let o := { myOp base (.handler false 1) with id := 7, pend := true, answer := some [], ptr := 8191 }
     Answered (underway base o 0) o [] ∧ o.fault = none ∧ Ready [rdS base.me 1 false, rdS base.me 2 false] (underway base o 0)) ∧
    (let o := { myOp base (.handler true 1) with id := 7, pend := true, ptr := 0x7FFFF }
     findOp (underway base o 0) 7 = some o ∧ o.pend = true ∧ o.answer = none) := by
  and_intros <;> decide +kernel

/-- Groups with one member, requests at their root, multicasts of 8 bytes to the last word of every member's scratchpad. -/
def groupOp (k : OpKind) : Op := { myOp base k with id := 7, pend := true, ptr := 4095 }
def rootHas (o : Op) : State := { underway base o 0 with groups := [(4095, [0])] }
/-- The root of group 4,095, which has no members, with 256 records. -/
def fullRoot : State := { rootHas (groupOp .join) with groups := (4095, []) :: List.replicate 256 (4095, [1]) }
/-- Its records are 256, wherever the root lies. -/
theorem witness_GroupAndMulticastResult_full : 256 ≤ recordsAt fullRoot (groupRoot (groupKey 0 4095)) := by
  show 256 ≤ (List.filter (fun p => groupRoot p.1 == groupRoot 4095 && !p.2.isEmpty)
    (((4095, []) : Nat × List Nat) :: List.replicate 256 (4095, [1]))).length
  rw [List.filter_cons_of_neg (by simp), List.filter_replicate, if_pos (by rw [beq_self_eq_true]; rfl), List.length_replicate]
def castWord : Word := 0x0000FFF00003FFF8
def castOp : Op := { myOp base (.mcast 8 5) with id := 7, ptr := castWord, ctr := some .st }
def castHere : State := rootHas { castOp with phase := 3, members := [0], todo := [0] }

/-- Hypotheses of GroupAndMulticastResult. -/
theorem witness_GroupAndMulticastResult :
    (pending base = none ∧ rootLost base (groupKey base.me.ctx (4095 : BitVec 12).toNat) = false ∧ base.cur.2 < 4 ∧
      remoteCount base base.cur.1 < 64 ∧ Ready [wrS base.me 31 false] base) ∧
    (Answered (rootHas { groupOp .gsize with answer := some [1] }) { groupOp .gsize with answer := some [1] } [1] ∧
      Ready [wrS base.me 31 false] (rootHas { groupOp .gsize with answer := some [1] })) ∧
    (∀ k ∈ ([.join, .leave, .gsize] : List OpKind), findOp (rootHas (groupOp k)) 7 = some (groupOp k) ∧ (groupOp k).pend = true ∧
      (groupOp k).answer = none ∧ (groupOp k).fault = none ∧ members (rootHas (groupOp k)) (groupKey 0 4095) ≠ []) ∧
    recordsAt { rootHas (groupOp .join) with groups := [] } (groupRoot (groupKey 0 4095)) < 256 ∧
    (members fullRoot (groupKey 0 4095) = [] ∧ findOp fullRoot fullRoot.subj.a = some (groupOp .join)) ∧
    (Ready [rdS (regs [(1, castWord)] base).me 1 false, rdS (regs [(1, castWord)] base).me 2 false] (regs [(1, castWord)] base) ∧
      bits castWord 35 18 = 0 ∧ bits castWord 63 48 = 0 ∧ bits castWord 17 0 % 2 ^ (3 : BitVec 2).toNat = 0 ∧
      rootLost (regs [(1, castWord)] base) (groupKey 0 (bits castWord 47 36)) = false ∧ acquiring (regs [(1, castWord)] base) = false ∧
      remoteCount (regs [(1, castWord)] base) 0 < 64) ∧
    (findOp (rootHas castOp) 7 = some castOp ∧ (rootHas castOp).ops = [castOp] ∧ members (rootHas castOp) (opGroup castOp) = 0 :: []) ∧
    (mcastNext castHere { castOp with phase := 3, members := [0], todo := [0] } castHere.subj.b = true ∧ castHere.redLines = [] ∧
      regionOk castHere 0 0 0 true (bits castWord 17 0) 8 = true ∧ poisoned castHere (spKey 0 (bits castWord 17 0)) 8 = false ∧
      bankFree castHere (spKey 0 (bits castWord 17 0)) 8 = true ∧ onLostDie castHere (spKey 0 (bits castWord 17 0)) = false ∧
      ({ castOp with phase := 3, members := [0], todo := [0] } : Op).todo.filter (· != castHere.subj.b) = []) ∧
    [0, 1].filter (· != castHere.subj.b) ≠ [] := by
  and_intros <;> decide +kernel

/-- The running task's own message, and a packet for channel 63 of core 8,191. -/
def migrating : State := regs [(1, 0x7FFFF)] base
def packet : Packet :=
  { pid := 9, src := 3, dst := 8191, net := 0, since := 0, holds := some 0, body := .message 63 (Vector.replicate 8 1) false 0 3 false none 0 }
def incoming : State := { base with net := [packet], subj := { a := 9 } }

/-- Its channel's reserved entry and the 192 shared ones are taken. -/
def crowded : State :=
  incoming.onCore 8191 (fun k => { k with
    rx := { arrivedMsg with chan := 63 } :: List.replicate 192 { arrivedMsg with chan := 63, shared := true } })

/-- Hypotheses of MessageMovementResult. -/
theorem witness_MessageMovementResult :
    (Ready [rdS migrating.me 1 false] migrating ∧ migrating.cur.2 < 4 ∧ (migrating.me.rs 1 false).toNat < 2 ^ 19 ∧ migrating.me.pub = false ∧
      migrating.me.sub = false ∧ migrating.me.uns = false ∧ boundStream migrating.me = none ∧ migrateReady migrating = true ∧ migrating.me.faults.any lateFault = false ∧
      entBits ((migrating.core (targetCore (migrating.me.rs 1 false))).entry (targetChan (migrating.me.rs 1 false))) 0 0 = 0) ∧
    (incoming.net.find? (fun x => x.pid == incoming.subj.a && isMessage x) = some packet ∧ firstOfFlow incoming packet = true ∧
      inputOpen incoming packet = true ∧
      rxRoom (incoming.core packet.dst) 63 = true ∧ entBits ((incoming.core packet.dst).entry 63) 91 91 = 0) ∧
    (inputOpen crowded packet = true ∧ firstOfFlow crowded packet = true ∧ rxRoom (crowded.core packet.dst) 63 = false) := by
  and_intros <;> decide +kernel

/-- The running task as publisher of channel 63, as a subscriber of channel 5 that leaves, and as one that watches for markers. -/
def publisher : State :=
  (base.onMe (fun t => { t with pub := true, ichan := 63 })).onChan 63 (fun _ => { st := .published, pub := some (0, 0, 1) })
def watcher : State :=
  (base.onMe (fun t => { t with uns := true, ichan := 5 })).onChan 5 (fun _ => { st := .published, pub := some (1, 0, 2) })

/-- Requests of SUBSCRIBE with an address: to be registered, refused, and with its port registered. -/
def subscribeOp : Op := { myOp base (.subscribe true) with id := 7, pend := true, ptr := 63, args := [ptr4 0] }
def subscribing : State := underway base subscribeOp 0
def subscribeAdd : Op := { subscribeOp with phase := 5, pend := false }
def refusedSub : Op := { subscribeOp with fault := some (.suberr, 0, suberr 63 3) }

/-- A port that waits for its channel's next instruction, which is on its way; a switch of the group frequency. -/
def waitingPort : IPort := { core := 0, slot := 3, task := 4, registered := true, joined := true, flight := [sentAdd], issued := 2 }
def stream : State :=
  (({ base with subj := { a := 5, b := 0, c := 3 } }).onChan 5 (fun _ => { st := .published, ports := [waitingPort] })).setSlot 0 3
    { task := 4, sub := true, ichan := 5, st := .blocked, wait := .channel }
def switching : State := ({ base with subj := { a := 511 } }).onCluster 511 (fun k => { k with lockSwitch := some 9 })

/-- Hypotheses of InstructionChannelResult. -/
theorem witness_InstructionChannelResult :
    (base.me.pub = false ∧ base.me.sub = false ∧ base.me.uns = false ∧ dieOf base.cur.1 = (63 : BitVec 12).toNat % 256 / 64 ∧
      (base.chan ((63 : BitVec 12).toNat % 256)).st = .free ∧ base.cur.2 < 4) ∧
    (publisher.me.pub = true ∧ publisher.me.ichan = (63 : BitVec 12).toNat % 256) ∧
    (dieOf base.cur.1 ≠ (64 : BitVec 12).toNat % 256 / 64 ∧ (base.chan ((64 : BitVec 12).toNat % 256)).st = .free) ∧
    (Ready [rdS base.me 31 false] base ∧ Ready [rdS base.me 0 false] base ∧ pending base = none) ∧
    (findOp subscribing subscribing.subj.a = some subscribeOp ∧ subscribeOp.fault = none ∧ subscribeOp.phase ≠ 5 ∧
      (subscribing.slot 0 0).task = subscribeOp.task ∧ (subscribing.slot 0 0).st = .ready ∧
      subscribeRefused subscribing subscribeOp 63 = none ∧ (subscribing.chan 63).st = .free ∧
      subscribeRefused (subscribing.onChan 63 (fun _ => { st := .registered, owner := 1 })) subscribeOp 63 ≠ none) ∧
    (findOp (underway loaded subscribeAdd 0) 7 = some subscribeAdd ∧ subscribeAdd.fault = none ∧ subscribeAdd.phase = 5 ∧
      Passes .amo (loadLane ((subscribeAdd.args.head?).getD 0) 8) [{ key := 0x1040, n := 8, ptr := ptr4 0 }] (underway loaded subscribeAdd 0) ∧
      (underway loaded subscribeAdd 0).cur = (subscribeAdd.core, subscribeAdd.slot) ∧
      released (underway loaded subscribeAdd 0) .device = true) ∧
    (pending (underway base refusedSub 0) = some refusedSub ∧ Ready [rdS base.me 31 false] (underway base refusedSub 0)) ∧
    ((follower sentAdd).me.sub = true ∧ ((follower sentAdd).chan (follower sentAdd).me.ichan).ports =
        [{ core := 0, slot := 0, task := 1, registered := true, joined := true, buf := [sentAdd] }] ∧ (follower sentAdd).me.task = 1) ∧
    ((regs [(3, 1)] (follower sentAdd)).me.rs 3 false ≠ 0 ∧ Ready [rdS (regs [(3, 1)] (follower sentAdd)).me 3 false] (regs [(3, 1)] (follower sentAdd))) ∧
    (watcher.me.pub = false ∧ watcher.me.sub = false ∧ watcher.me.uns = true ∧ watcher.me.ichan = (5 : BitVec 8).toNat ∧
      (watcher.chan (5 : BitVec 8).toNat).st = .published) ∧
    ((stream.chan stream.subj.a).ports = [waitingPort] ∧ waitingPort.core = stream.subj.b ∧ waitingPort.slot = stream.subj.c ∧
      waitingPort.flight = sentAdd :: [] ∧ (stream.slot 0 3).task = waitingPort.task ∧ (stream.slot 0 3).st = .blocked ∧
      waitingPort.uns = false ∧ (stream.slot 0 3).wait = .channel ∧ (stream.slot 0 3).ichan = stream.subj.a ∧
      ∀ o ∈ stream.ops, Machine.subscribing waitingPort.task o = false) ∧
    (∀ p ∈ ([.rdv 1, .unpublish, .endTask, .compactEnd] : List Instr), let q := { waitingPort with joined := false, flight := [{ sentAdd with instr := p }] }
      let s := stream.onChan 5 (fun c => { c with ports := [q] })
      (s.chan s.subj.a).ports = [q] ∧ q.joined = false ∧ (s.slot 0 3).sub = true ∧ (s.slot 0 3).st = .blocked) ∧
    (together switching switching.subj.a = [switching.subj.a] ∧ (switching.cluster switching.subj.a).lockSwitch = some 9) := by
  and_intros <;> decide +kernel

/-- A strand whose waits are over, with one buffered send; a privileged one on a core with no reservation; a reply outstanding. -/
def ending : State := base.onMe (fun t => { t with sends := [{ form := 0, net := 2, dest := 0x7FFFF, data := List.replicate 8 1, pc := 0x1000 }] })
def unfinished : State := base.onMe (fun t => { t with cLd := 1 })

/-- Hypotheses of TaskEndResult: a send to channel 63 of core 8,191; IDLE after an arrival, at its limit and before it. -/
theorem witness_TaskEndResult :
    (ending.me.pub = false ∧ ending.me.sub = false ∧ ending.me.priv = true ∧ ending.myCore.rsv = 0 ∧ ending.me.faults = [] ∧
      endReady ending = true ∧ (∀ q ∈ ending.me.strm.toList, q.kind ≠ 3) ∧ (∀ x ∈ ending.me.sends, x.form = 0 ∧ x.dest.getLsbD 19 = false)) ∧
    (unfinished.me.faults = [] ∧ endReady unfinished = false) ∧
    (let s := (base.onMe (fun t => { t with wait := .idle 0 0 })).onCore 0 (fun k => { k with nextSeq := 1 })
     Ready [rdS s.me 31 true, wrS s.me 0 true] s ∧ s.me.wait = .idle 0 0 ∧ 0 < s.myCore.nextSeq) ∧
    (let s := { regs [(31, 5)] base with devtime := 5 }
     s.me.wait = .nothing ∧ s.me.rs 31 false ≠ 0 ∧ (s.me.rs 31 false).toNat ≤ s.devtime) := by
  and_intros <;> decide +kernel

/-- Channel 3 of core 0 with a handler entry, with the greatest allotment and a budget of `b`, and a message `m`. -/
def channel3 (b : Nat) (m : Msg) : State :=
  recorded.onCore 0 (fun k => { k with
    handlers := [(3, BitVec.ofNat 128 (1 + 2 * 0x800 + 2 ^ 61 * 6 + 0x1F * 2 ^ 84 + b * 2 ^ 96))], rx := [m] })

/-- The message of a task that was saved, and a module that may resume it. -/
def savedMsg : Msg := { arrivedMsg with image := some 1, task := 5, kept := some { nS := 64, nV := 32, nK := 8 } }
def resuming : State := channel3 9 savedMsg

/-- The pages of the second image of context 0, and its bytes, none of which memory lists. -/
def savedSegs : List Seg := (List.range 4).map (fun i => ⟨4096 * i, 4096, 0x204000 + 4096 * i⟩)
def savedImage : List Byte := savedSegs.flatMap (fun x => List.replicate x.len 0)

/-- Hypotheses of TaskBeginResult: a budget of 0 and the greatest one, the last image of the context, a migrated strand. -/
theorem witness_TaskBeginAndLeaveResult_begin :
    (choose (channel3 0 arrivedMsg) (channel3 0 arrivedMsg).subj.a = some (1, 6, arrivedMsg) ∧
      choose (channel3 0xFFFFFFFF arrivedMsg) 0 = some (1, 6, arrivedMsg) ∧ arrivedMsg.image = none ∧ arrivedMsg.mig = none) ∧
    (let u : Strand := { base.me with sends := [] }
     let m := { arrivedMsg with mig := some u }
     choose (channel3 9 m) 0 = some (1, 6, m) ∧ entBits (((channel3 9 m).core 0).entry m.chan) 76 64 = u.ctx ∧ u.sends = []) := by
  and_intros <;> decide +kernel

/-- The module once the pages of the image have been looked up. -/
def resumeView : State := (hardSegs resuming (ctxActor resuming 0 0) 1 (imagePtr resuming 0 1) 16384).1

theorem witness_TaskBeginAndLeaveResult_resume :
    (choose resuming 0 = some (1, 6, savedMsg) ∧ savedMsg.image = some 1 ∧ savedMsg.kept.isSome ∧ savedMsg.resub = false ∧
      resuming.chans = [] ∧ resuming.redLines = [] ∧ (resuming.core 0).away = [] ∧
      (hardSegs resuming (ctxActor resuming 0 0) 1 (imagePtr resuming 0 1) 16384).2 = .ok savedSegs) ∧
    segsFree resumeView savedSegs = true ∧
    (readSegs resumeView (ctxActor resuming 0 0) (imagePtr resuming 0 1) savedSegs).2 = .ok savedImage ∧
    sendsOf savedImage = [] ∧ nbits (imgNat savedImage 54 1) 2 2 = 0 := by
  refine ⟨by and_intros <;> decide +kernel, segsFree_of (by decide +kernel) (by decide +kernel), ?_, by decide +kernel, by decide +kernel⟩
  have hc : Clean resumeView := clean_of_dies (by decide +kernel) (by decide +kernel) (by decide +kernel)
  obtain ⟨c, e, h⟩ := readSegs_above savedSegs hc (ctxActor resuming 0 0) (imagePtr resuming 0 1) (b := 0x200000) (by decide +kernel) (by decide)
  rw [h]; rfl

/-- Slot 3 of core 0 with a strand. -/
def slot3 (t : Strand) : State := { base with subj := { a := 0, b := 3 } }.setSlot 0 3 t

/-- Hypotheses of SchedulerAndContextResult. -/
theorem witness_SchedulerAndContextResult :
    (((slot3 { st := .blocked, wait := .nothing }).slot 0 3).st = .blocked ∧
      waitOver (slot3 { st := .blocked, wait := .nothing }) 0 ((slot3 { st := .blocked, wait := .nothing }).slot 0 3) = true) ∧
    (let s := { slot3 { st := .blocked, wait := .idle 0 5 } with devtime := 5 }
     (s.slot 0 3).wait = .idle 0 5 ∧ (s.slot 0 3).st = .blocked ∧ 5 ≠ 0 ∧ 5 ≤ s.devtime) ∧
    (((slot3 { st := .ready, capped := some 0 }).slot 0 3).capped.isSome = true ∧ ((slot3 { st := .ready, capped := some 0 }).slot 0 3).st = .ready ∧
      freeImage (slot3 { st := .ready, capped := some 0 }) 0 = none ∧ freeImage recorded 0 = some 0) ∧
    (((slot3 { st := .ready }).slot 0 3).capped = none ∧ ((slot3 { st := .ready }).slot 0 3).unb = false ∧
      ((slot3 { st := .ready }).slot 0 3).budget = 0) ∧
    (let s := (channel3 9 arrivedMsg).onCore 0 (fun k => { k with
        slots := ((k.slots.set 1 { st := .ready }).set 2 { st := .ready }).set 3 { st := .blocked, level := 5 } })
     arrivalVictim s s.subj.a = some 3 ∧ freeImage s (s.slot s.subj.a 3).ctx = some 0) ∧
    (let s := { slot3 { st := .ready, started := 9999 } with devtime := 10000 }.onCore 0 (fun k => { k with rsv := 1 })
     (s.core 0).rsv ≠ 0 ∧ (s.core 0).capFrame < s.devtime / 10000 ∧ (s.slot 0 3).st = .ready ∧ (s.slot 0 3).timed = false ∧
      (s.slot 0 3).capped = none ∧ (s.slot 0 3).started < s.devtime / 10000 * 10000) ∧
    (let s := (({ recorded with subj := { a := 0, b := 3 } } : State).onCore 0 (fun k => { k with
        handlers := [(3, BitVec.ofNat 128 (1 + 2 ^ 61 * 4))], rx := [arrivedMsg], ages := [(3, (1, 50000))] }))
     mapGet (0, 0) (s.core s.subj.a).ages s.subj.b = (1, 50000) ∧ ages s s.subj.a s.subj.b = true ∧ ageStep s s.subj.a ≤ 50000) ∧
    (asidLive base (nbits base.subj.d.toNat 12 0) (base.subj.a % 8192) = false ∧
      asidLive { writeNat recorded 0x180011 1 1 1 with ctxs := [(0, {})] } 0 1 = true ∧ base.subj.a % 8192 = 0) ∧
    (base.redLines = [] ∧ base.monitors = [] ∧ byPrivileged base = true ∧ byPrivileged { base with subj := { b := 1 } } = true ∧
      byPrivileged { userTask with subj := { b := 1 } } = false) := by
  and_intros <;> decide +kernel

/-- A strand of slot 3 that is being saved to the first image of its context, `n` bytes of which are written. -/
def savingAt (n : Nat) : State :=
  ({ recorded with subj := { a := 0, b := 3 } }.onCtx 0 (fun x => { x with images := [0] })).setSlot 0 3
    { st := .saving, task := 4, saveTo := some 0, savePos := n }

/-- The module as it writes that line: what the strand waits for withdrawn, and the line's page looked up. -/
def saveStart (n : Nat) : State := perf (if n = 0 then withdrawWaits (savingAt n) 4 else savingAt n) 0 0x13 1
def savePtr (n : Nat) : Word := ptrAdd (imagePtr (savingAt n) 0 0) n
def saveView (n : Nat) : State := (hardSegs (saveStart n) (ctxActor (saveStart n) 0 0) 2 (savePtr n) 64).1

/-- Hypotheses of TaskLeaveResult: a strand that writes the first and the last line of its image, one whose QPOP.w has been answered, one
that has trapped and has nothing to drain. -/
theorem witness_TaskBeginAndLeaveResult_leave :
    (∀ n ∈ [0, 16320], let s := savingAt n
     let u := s.slot 0 3
     u.st = .saving ∧ u.saveTo = some 0 ∧ u.savePos = n ∧ u.task = 4 ∧ u.ctx = 0 ∧ poppedBy s u = none ∧
      (u.savePos = 0 → saveReady s u = true) ∧ mapsHold s 0 3 u = false ∧
      remoteCount s 0 < 64 ∧ u.why = .preempt ∧ (s.ctx 0).mapkeep = false ∧
      (hardSegs (saveStart n) (ctxActor (saveStart n) 0 0) 2 (savePtr n) 64).2 = .ok [⟨0, 64, 0x200000 + n⟩] ∧
      (writeRange (saveView n) (ctxActor (saveStart n) 0 0) (savePtr n) (((imageBytes u 3 u.sub false).drop n).take 64)
        [⟨0, 64, 0x200000 + n⟩]).2 = .ok 0) ∧
    (segsFree (saveView 0) [⟨0, 64, 0x200000⟩] = true ∧ segsFree (saveView 16320) [⟨0, 64, 0x200000 + 16320⟩] = true) ∧
    (let o : Op := { myOp base (.qpop 8 true 64 0) with id := 7, task := 4, pend := true, answer := some [5, 1], members := [6, 7] }
     poppedBy { savingAt 0 with ops := [o] } ((savingAt 0).slot 0 3) = some (o, [5, 1])) ∧
    (let x : TrapInfo := { cause := .bound, code := 6, sub := 0, async := false, epc := 0, tval := 0, time := 0 }
     let s := slot3 { st := .trapping, trap := some x }
     (s.slot 0 3).st = .trapping ∧ (s.slot 0 3).trap = some x ∧ s.clusters = [] ∧ s.ops = []) := by
  and_intros <;> first | exact segsFree_of (by decide +kernel) (by decide +kernel) | decide +kernel

/-- Hypotheses of SaveImageRoundTrip: an unsaved strand and the empty one of the same allotment. -/
theorem witness_SaveImageRoundTrip : ∃ u : Strand, u.nS = base.me.nS ∧ u.nV = base.me.nV ∧ u.nK = base.me.nK ∧ base.me.hor < 2 ^ 64 :=
  ⟨{ nS := 64, nV := 32, nK := 8 }, by decide +kernel⟩

/-- Context 0 owns every operand slot and accumulator of cluster 0; shapes of 64 by 64 by 64 and class 0 in e0-e3; local pointers in s1
and s2; page 0x200000 of space 0x4 mapped. -/
def engine : State :=
  let s := (regs [(1, 0x1000000000000000), (2, 0x1000000000010000)] (withTables base)).onMe (fun t => { t with
    ereg := ((t.ereg.set 0 64).set 1 64).set 2 64 })
  s.onCluster 0 (fun k => { k with slotOwner := (List.range 32).map (fun i => (i, 0)), accOwner := (List.range 16).map (fun i => (i, 0)) })

/-- A TLOAD of 64 rows into a pair, a 2:4 sparsity descriptor with its metadata in slot 31, a TSTORE of 64 rows of f32, a TACCV row. -/
def shapes : State := regs [(3, 0x0000004000101007), (4, 0x0001001F), (5, 0x0000000800103F07), (6, 0xFF)] engine

/-- Hypotheses of TileIssueResult, clause by clause. -/
theorem witness_TileIssueResult :
    (let s := regs [(1, 0x0000FFFFFFFFFFFF)] base
     Ready [rdS s.me 1 false] s ∧ s.me.pub = false ∧ s.me.sub = false ∧ s.cur.2 < 4 ∧ bits (s.me.rs 1 false) 63 48 = 0 ∧
      ∀ n ∈ requested (s.me.rs 1 false), tileOwner (s.cluster s.myCluster) n = none ∨ tileOwner (s.cluster s.myCluster) n = some s.me.ctx) ∧
    (let s := (regs [(1, 2 ^ 47)] base).onCluster 0 (fun k => { k with accOwner := [(15, 1)] })
     bits (s.me.rs 1 false) 63 48 = 0 ∧
      (requested (s.me.rs 1 false)).find? (fun n => (tileOwner (s.cluster s.myCluster) n).isSome && !claimed s n) = some 47) ∧
    (let s := regs [(1, 0x0000FFFFFFFFFFFF)] engine
     bits (s.me.rs 1 false) 63 48 = 0 ∧ (∀ n ∈ requested (s.me.rs 1 false), claimed s n = true) ∧
      (∀ e ∈ (s.cluster s.myCluster).tileq, ∀ n ∈ requested (s.me.rs 1 false), namesResource e n = false)) ∧
    claimed shapes (31 : BitVec 5).toNat = true ∧ TileFree shapes ∧ acquiring shapes = false ∧
    (tloadBad (shapes.me.rs 3 false) = false ∧ bits (shapes.me.rs 3 false) 38 38 = 1 ∧ claimed shapes 30 = true ∧ claimed shapes 31 = true ∧
      EnginePtr 6 16 (shapes.me.rs 1 false) ∧
      pageMissing shapes (rowPages (shapes.me.rs 1 false) (16 * bits (shapes.me.rs 3 false) 31 16) (16 * bits (shapes.me.rs 3 false) 15 8)
        (bits (shapes.me.rs 3 false) 7 0 + 1)) = none ∧
      pageMissing shapes (rowPages (shapes.me.rs 2 false) (16 * bits (shapes.me.rs 5 false) 31 16)
        (storeRowBytes (bits (shapes.me.rs 5 false) 35 32) (bits (shapes.me.rs 5 false) 15 8 + 1)) (bits (shapes.me.rs 5 false) 7 0 + 1)) = none ∧
      pageMissing shapes (rowPages (ptr4 0) 64 64 4) = none ∧
      (rowSegs shapes shapes.actor 1 (shapes.me.rs 1 false) (16 * bits (shapes.me.rs 3 false) 31 16) (16 * bits (shapes.me.rs 3 false) 15 8)
        (List.range (bits (shapes.me.rs 3 false) 7 0 + 1))).toOption.isSome) ∧
    MulOk shapes 15 0 31 ∧
    (sparsityBad (shapes.me.rs 4 false) (shapes.me.e 3).toNat (fmtNxa shapes.me.fmt) (shapes.me.e 2).toNat = false ∧
      claimed shapes (sparsityOf (shapes.me.rs 4 false)).slot = true ∧
      (joinAll ((List.range (shapes.me.e 0).toNat).map
        (keptLine (sparsityOf (shapes.me.rs 4 false)) (shapes.cluster shapes.myCluster) (shapes.me.e 2).toNat))).toOption.isSome) ∧
    (claimed shapes (32 + 15) = true ∧ tstoreBad (shapes.me.rs 5 false) = false ∧ EnginePtr 4 16 (shapes.me.rs 2 false) ∧
      (rowSegs shapes shapes.actor 2 (shapes.me.rs 2 false) (16 * bits (shapes.me.rs 5 false) 31 16)
        (storeRowBytes (bits (shapes.me.rs 5 false) 35 32) (bits (shapes.me.rs 5 false) 15 8 + 1))
        (List.range (bits (shapes.me.rs 5 false) 7 0 + 1))).toOption.isSome) ∧
    (Ready [rdS shapes.me 6 false] shapes ∧
      Ready ((List.range 4).map (fun i => ⟨1, (((28 : BitVec 5).toNat + i : Nat) : Int), false, true⟩)) shapes ∧
      bits (shapes.me.rs 6 false) 63 8 = 0 ∧ (∀ e ∈ (shapes.cluster shapes.myCluster).tileq, e.wrA.contains 15 = false)) := by
  and_intros <;> decide +kernel

/-- An entry alone in the tile queue. -/
def queued (e : TileOp) : State := { engine.onCluster 0 (fun k => { k with tileq := [e] }) with subj := { a := 0, b := e.n } }
def mulDone : TileOp := { mulEntry engine .tmma 15 0 1 (List.replicate 64 []) with n := 7 }
def loadRow : TileOp :=
  { tileEntry engine .tload with n := 7, td := 30, args := [0x1000000000000000, 0x0000002500100800], src := [⟨0, 128, 2 ^ 40⟩], wrS := [30] }
def storeRow0 : TileOp :=
  { tileEntry engine .tstore with n := 7, td := 15, args := [0x1000000000010000, 0x0000000800100000], dst := [⟨0, 4, 2 ^ 40 + 0x10000⟩], rdA := [15] }

/-- A TSTORE that a poisoned unit has stopped. -/
def storeStopped : TileOp := { storeRow0 with fault := some (.poison, 0, 0x1000000000010000) }

/-- Hypotheses of TilePerform and Int8Multiply: a multiply, a TLOAD with credit, a TSTORE at its last row and one that a late fault has
stopped; K of 512. -/
theorem witness_TilePerform :
    (tileReady (queued mulDone) (queued mulDone).subj.a (queued mulDone).subj.b = some mulDone ∧
      (queued mulDone).taskSlot mulDone.task = some (0, 0) ∧ mulDone.shared = [] ∧ mulDone.device = false ∧ mulDone.kind = .tmma) ∧
    (tileReady (queued loadRow) 0 7 = some loadRow ∧ loadRow.kind = .tload ∧ loadRow.args = [0x1000000000000000, 0x0000002500100800] ∧
      (queued loadRow).redLines = [] ∧ segsFree (queued loadRow) (rowOf loadRow.src (16 * bits 0x0000002500100800 15 8) 0) = true ∧
      (∀ x ∈ rowOf loadRow.src (16 * bits 0x0000002500100800 15 8) 0, keyReady (queued loadRow) 0 x.key = true) ∧
      (readSegs { queued loadRow with portWaits := mapDel (queued loadRow).portWaits 7 } loadRow.actor (ptrAdd 0x1000000000000000 (16 * bits 0x0000002500100800 31 16 * 0))
        (rowOf loadRow.src (16 * bits 0x0000002500100800 15 8) 0)).2 = .ok (List.replicate 128 0)) ∧
    (tileReady (queued storeRow0) 0 7 = some storeRow0 ∧ storeRow0.fault = none ∧ storeRow0.pos < bits 0x0000000800100000 7 0 + 1 ∧
      ¬ storeRow0.pos < bits 0x0000000800100000 7 0 ∧ bits 0x0000000800100000 41 41 = 0 ∧
      rowOf storeRow0.dst (storeRowBytes (bits 0x0000000800100000 35 32) (bits 0x0000000800100000 15 8 + 1)) 0 = storeRow0.dst ∧
      segsFree (queued storeRow0) storeRow0.dst = true ∧ (∀ x ∈ storeRow0.dst, keyReady (queued storeRow0) 0 x.key = true) ∧
      storeRow0.pos < tstoreRows storeRow0 ∧
      (rowsFrom (tstoreMeets storeRow0) (tstoreRows storeRow0) 0).flatMap (rowOf storeRow0.dst (tstoreLen storeRow0)) = storeRow0.dst ∧
      (writeRows (tstoreRow 0 storeRow0) (tstoreMeets storeRow0) (tstoreRows storeRow0) (queued storeRow0) 0 0).2.toOption = some (0, 1) ∧
      (writeRange (queued storeRow0) storeRow0.actor (ptrAdd 0x1000000000010000 (16 * bits 0x0000000800100000 31 16 * 0))
        (storeRow ((queued storeRow0).cluster 0) storeRow0 0).1
        (rowOf storeRow0.dst (storeRowBytes (bits 0x0000000800100000 35 32) (bits 0x0000000800100000 15 8 + 1)) 0)).2.toOption.isSome) ∧
    (tileReady (queued storeStopped) 0 7 = some storeStopped ∧ storeStopped.device = false ∧ storeStopped.shared = [] ∧
      (queued storeStopped).taskSlot storeStopped.task = some (0, 0)) := by
  and_intros <;> decide +kernel

theorem witness_Int8Multiply : ({ tileEntry base .tmma with e := [64, 64, 512, 2] } : TileOp).e[3]? = some 2 ∧ 512 ≤ 512 := by decide +kernel

/-- Maps of context 0 in cluster 0: 0 matched over two tokens, 1 merged to one, 2 merged over one. -/
def maps : State :=
  engine.onCluster 0 (fun k => { k with maps :=
    [(0, { st := .matched, n := 2, n' := 2, best := [(0, 1, 5)], sizes := [1, 1] }),
     (1, { st := .merged, n := 2, n' := 1, depth := 1, sizes := [2], dest := [0, 0] }),
     (2, { st := .merged, n := 1, n' := 1, depth := 7, sizes := [1], dest := [0] })] })

/-- Words of the Fuller forms: TMATCH of two tokens and of 4,096, rows of four f32 elements with a stride of 16, maps in memory. -/
def merging : State := (regs [(3, 1), (4, 0), (5, 0x0000000001000003), (7, 0x0000000000000FFF)] maps).onMe (fun t => { t with ereg := t.ereg.set 0 1 })
/-- A map image at the head of the local scratchpad: 8 tokens, 6 of them left, depth 1. -/
def mapImage : State := regs [(1, 0x1000000000000000)] (writeNat maps (2 ^ 40) 0x0000000100060008 255 8)

/-- Hypotheses of FullerIssue. -/
theorem witness_FullerIssue :
    (let v := merging.me.rs 3 false
     let n := bits v 11 0 + 1
     Ready [rdS merging.me 3 false, rdS merging.me 4 false] merging ∧ TileFree merging ∧ acquiring merging = false ∧ bits v 63 29 = 0 ∧ n ≠ 1 ∧ bits v 17 12 + 1 ≤ 32 ∧
      bits v 23 19 + (keySlots n (bits v 17 12 + 1) (bits v 23 19)).length ≤ 32 ∧ bits (merging.me.rs 4 false) 63 n = 0 ∧
      (∀ k ∈ keySlots n (bits v 17 12 + 1) (bits v 23 19), claimed merging k = true) ∧ (merging.cluster merging.myCluster).marks = [] ∧
      entriesUsed (merging.cluster merging.myCluster) < 32) ∧
    (let v := merging.me.rs 7 false
     let n := bits v 11 0 + 1
     n = 4096 ∧ bits v 17 12 + 1 ≤ 32 ∧ bits v 23 19 + (keySlots n (bits v 17 12 + 1) (bits v 23 19)).length ≤ 32) ∧
    (let m := myMap merging 0
     MapIn merging 0 .matched ∧ (merging.me.e 0).toNat ≤ (sideTokens m.n m.protect 0).length ∧ sideTokens m.n m.protect 1 ≠ [] ∧
      RowsOk merging (merging.me.rs 1 false) (merging.me.rs 2 false) (merging.me.rs 5 false) m.n (m.n - (merging.me.e 0).toNat)
        [⟨0, 16, 2 ^ 40⟩, ⟨16, 16, 2 ^ 40 + 16⟩] [⟨0, 16, 2 ^ 40 + 0x10000⟩]) ∧
    (let m := myMap merging 1
     MapIn merging 1 .merged ∧ RowsOk merging (merging.me.rs 1 false) (merging.me.rs 2 false) (merging.me.rs 5 false) m.n' m.n
        [⟨0, 16, 2 ^ 40⟩] [⟨0, 16, 2 ^ 40 + 0x10000⟩, ⟨16, 16, 2 ^ 40 + 0x10010⟩]) ∧
    (claimed maps (32 + 15) = true ∧ MapIn maps 2 .merged ∧ 1 ≤ (maps.me.e 0).toNat ∧ (maps.me.e 0).toNat ≤ 64 ∧ 1 ≤ (maps.me.e 1).toNat ∧
      (maps.me.e 1).toNat ≤ 64 ∧ bits (maps.me.rs 0 false) 63 12 = 0) ∧
    ((myMap maps 2).n = (myMap maps 1).n' ∧ (myMap maps 1).depth + (myMap maps 2).depth ≤ 8) ∧
    (∀ e ∈ (maps.cluster maps.myCluster).tileq, mapKey maps.me.ctx 31 ∉ e.rdM ∧ mapKey maps.me.ctx 31 ∉ e.wrM) ∧
    (EnginePtr 4 64 (maps.me.rs 1 false) ∧ pageMissing maps (rangePages (maps.me.rs 1 false) 16448) = none ∧
      acquiring maps = false ∧ (rangeSegs maps maps.actor 2 (maps.me.rs 1 false) 16448).toOption.isSome) ∧
    (mapImage.redLines = [] ∧ pageMissing mapImage (rangePages (mapImage.me.rs 1 false) 16448) = none ∧ entriesUsed (mapImage.cluster mapImage.myCluster) < 32) ∧
    (match rangeSegs mapImage mapImage.actor 1 (mapImage.me.rs 1 false) 16448 with
      | .ok g =>
        segsFree mapImage (g.take 1) && forked mapImage mapImage.me.task mapImage.nextId mapImage.me.hor (!nearCluster mapImage.myCluster g) &&
        match (readSegs mapImage mapImage.actor (mapImage.me.rs 1 false) ((g.take 1).map (fun g => { g with len := Nat.min g.len 64 }))).2 with
        | .ok h => mapHeaderOk h
        | .error _ => false
      | .error _ => false) = true := by
  and_intros <;> decide +kernel

def matchDone : TileOp := { tileEntry maps .tmatch with n := 7, td := 3, args := [3, 0], rdS := [0], wrM := [3] }
def compDone : TileOp := { tileEntry maps .tmapcomp with n := 7, td := 3, ta := 1, tb := 2, rdM := [1, 2], wrM := [3] }
def sizeDone : TileOp := { tileEntry maps .tmsize with n := 7, td := 15, ta := 1, args := [0], e := [64, 64], rdM := [1], map := { n' := 1 } }
def fulling (e : TileOp) : State := { maps.onCluster 0 (fun k => { k with tileq := [e] }) with subj := { a := 0, b := 7 } }
/-- Two entries that are ready, of which the older is the Fuller's turn. -/
def fullering : State :=
  { maps.onCluster 0 (fun k => { k with tileq := [sizeDone, { sizeDone with n := 8, td := 14 }] }) with subj := { a := 0, b := 8 } }
/-- A saved map of context 0 to reload from its save area, where a 2 MiB page begins. -/
def reloading : State :=
  { writeNat recorded 0x180020 0x200000 63 6 with subj := { a := 0 } }.onCluster 0 (fun k => { k with reloads := [(0, 31)], maps := [(31, { st := .saved })] })

/-- A merge of one of map 0's two tokens and an unmerge of map 1, with rows of 16 bytes in the local scratchpad; a save of map 1 there and a
load of map 3, whose next line holds destinations, from there. -/
def rowsArgs : List Word := [0x1000000000000000, 0x1000000000010000, 0x0000000001000003]
def mergeRun : TileOp :=
  { tileEntry maps .tmerge with
    n := 7, td := 0, args := rowsArgs, e := [1], src := [⟨0, 16, 2 ^ 40⟩, ⟨16, 16, 2 ^ 40 + 16⟩], dst := [⟨0, 16, 2 ^ 40 + 0x10000⟩]
    map := myMap maps 0, rdM := [0], wrM := [0] }
def mergeOver : TileOp := { mergeRun with pos := 1 }
def unmergeRun : TileOp :=
  { tileEntry maps .tunmerge with
    n := 7, td := 1, args := rowsArgs, e := [0], src := [⟨0, 16, 2 ^ 40⟩], map := myMap maps 1
    dst := [⟨0, 16, 2 ^ 40 + 0x10000⟩, ⟨16, 16, 2 ^ 40 + 0x10010⟩], rdM := [1] }
def saveRun : TileOp :=
  { tileEntry maps .tmapsave with
    n := 7, td := 1, args := [0x1000000000000000], dst := [⟨0, 16448, 2 ^ 40⟩], map := myMap maps 1, rdM := [1] }
def loadRun : TileOp :=
  { tileEntry maps .tmapload with
    n := 7, td := 3, args := [0x1000000000000000], src := [⟨0, 16448, 2 ^ 40⟩], map := { n := 100, n' := 60 }, pos := 1, wrM := [3] }
/-- The rows of a merge and of an unmerge that are written together. -/
def mergeRows (s : State) (e : TileOp) : List Seg :=
  let p := mergePlan e.map.n ((e.e[0]?).getD 0) (s.fmap 0 e.ctx e.td).best
  fullerSegs e (fun n => let i := (p.live[n]?).getD 0; i :: foldedInto p i) (rowsFrom (destsMeet e p.live.length) p.live.length e.pos)
def unmergeRows (s : State) (e : TileOp) : List Seg :=
  fullerSegs e (fun n => [((s.fmap 0 e.ctx e.td).dest[n]?).getD 0]) (rowsFrom (destsMeet e e.map.n) e.map.n e.pos)

/-- Hypotheses of FullerPerform for the entries that move rows and images. -/
theorem witness_FullerPerform_memory :
    (let s := fulling mergeRun
     let m := s.fmap 0 mergeRun.ctx 0
     let p := mergePlan mergeRun.map.n 1 m.best
     tileReady s s.subj.a s.subj.b = some mergeRun ∧ fullerTurn s 0 7 = true ∧ mergeRun.fault = none ∧ mergeRun.pos < p.live.length ∧
      segsFree s (mergeRows s mergeRun) = true ∧ (∀ x ∈ mergeRows s mergeRun, keyReady s 0 x.key = true) ∧
      (writeRows (tmergeRow mergeRun p m.sizes) (destsMeet mergeRun p.live.length) p.live.length s 0 0).2.toOption = some (0, 1)) ∧
    (let s := fulling mergeOver
     tileReady s 0 7 = some mergeOver ∧ fullerTurn s 0 7 = true ∧ mergeOver.fault = none ∧ mergeOver.device = false ∧
      (mergePlan mergeOver.map.n 1 (s.fmap 0 mergeOver.ctx 0).best).live.length ≤ mergeOver.pos) ∧
    (let s := fulling unmergeRun
     tileReady s 0 7 = some unmergeRun ∧ fullerTurn s 0 7 = true ∧ unmergeRun.fault = none ∧ unmergeRun.pos < unmergeRun.map.n ∧
      segsFree s (unmergeRows s unmergeRun) = true ∧ (∀ x ∈ unmergeRows s unmergeRun, keyReady s 0 x.key = true) ∧
      (writeRows (tunmergeRow 0 unmergeRun) (destsMeet unmergeRun 2) 2 s 0 0).2.toOption.isSome) ∧
    (let s := fulling saveRun
     tileReady s 0 7 = some saveRun ∧ fullerTurn s 0 7 = true ∧ saveRun.fault = none ∧ saveRun.pos = 0 ∧ segsFree s saveRun.dst = true ∧
      (∀ x ∈ saveRun.dst, keyReady s 0 x.key = true)) ∧
    (let s := fulling loadRun
     tileReady s 0 7 = some loadRun ∧ fullerTurn s 0 7 = true ∧ 1 ≤ loadRun.pos ∧ loadRun.pos < 128 ∧
      segKey loadRun.src 128 = some (2 ^ 40 + 128) ∧ bankFree s (2 ^ 40 + 128) 64 = true ∧ keyReady s 0 (2 ^ 40 + 128) = true ∧
      (readRun s loadRun.actor (2 ^ 40 + 128) (ptrAdd 0x1000000000000000 128) 64 5).2.toOption.isSome) := by
  and_intros <;> decide +kernel

/-- The whole image of a map that is saved is written. -/
theorem witness_FullerPerform_save : ∃ u tc, writeRange { fulling saveRun with portWaits := mapDel (fulling saveRun).portWaits 7 } saveRun.actor
    0x1000000000000000 (Machine.mapImage { saveRun.map with dest := ((fulling saveRun).fmap 0 0 1).dest, sizes := ((fulling saveRun).fmap 0 0 1).sizes })
    saveRun.dst = (u, .ok tc) :=
  have ⟨u, tc, h, _⟩ := writeRange_ok saveRun.dst (s := { fulling saveRun with portWaits := mapDel (fulling saveRun).portWaits 7 })
    (clean_of_dies (by decide +kernel) (by decide +kernel) (by decide +kernel)).1 saveRun.actor 0x1000000000000000
    (Machine.mapImage { saveRun.map with dest := ((fulling saveRun).fmap 0 0 1).dest, sizes := ((fulling saveRun).fmap 0 0 1).sizes })
    (by decide +kernel)
  ⟨u, tc, h⟩

/-- Hypotheses of FullerPerform: an entry of each kind in its turn, one that is not the Fuller's turn, a reload. -/
theorem witness_FullerPerform :
    (tileReady (fulling matchDone) (fulling matchDone).subj.a (fulling matchDone).subj.b = some matchDone ∧ matchDone.kind = .tmatch ∧
      bits (3 : Word) 29 29 = 0 ∧ sideTokens (bits (3 : Word) 11 0 + 1) 0 1 ≠ []) ∧
    (∀ e ∈ [matchDone, compDone, sizeDone], fullerTurn (fulling e) 0 7 = true) ∧
    (fullerTurn fullering 0 8 = false ∧ tileReady fullering 0 8 = some { sizeDone with n := 8, td := 14 }) ∧
    tileReady (fulling compDone) 0 7 = some compDone ∧ tileReady (fulling sizeDone) 0 7 = some sizeDone ∧ sizeDone.e = [64, 64] ∧
    ((reloading.cluster 0).reloads = (0, 31) :: [] ∧ 31 < 32 ∧ (reloading.fmap 0 0 31).st = .saved ∧ (reloading.cluster 0).tileq.length < 32 ∧
      entriesUsed (reloading.cluster 0) < 32 ∧
      (hardSegs reloading (ctxActor reloading (16 * 0) 0) 1 (mapSavePtr reloading 0 0 31) 16448).2.toOption.isSome) ∧
    (fulling sizeDone).subj.a = 0 ∧ ((fulling sizeDone).cluster 0).reloads = [] := by
  and_intros <;> decide +kernel

/-- Hypotheses of MergePlanResult: three tokens, none merged and one. -/
theorem witness_MergePlanResult :
    (([(0, 1, 5), (2, 1, 4)] : List (Nat × Nat × Nat)).map (·.1)).Nodup ∧
    (∀ x ∈ ([(0, 1, 5), (2, 1, 4)] : List (Nat × Nat × Nat)), x.1 < 3 ∧ x.2.1 < 3) ∧
    (∀ x ∈ ([(0, 1, 5), (2, 1, 4)] : List (Nat × Nat × Nat)), ∀ y ∈ ([(0, 1, 5), (2, 1, 4)] : List (Nat × Nat × Nat)), x.2.1 ≠ y.1) ∧
    2 ≤ ([(0, 1, 5), (2, 1, 4)] : List (Nat × Nat × Nat)).length := by
  decide

/-- A mailbox of context 0 with one token collecting two puts, and one combining. -/
def collecting : TokenEntry := { st := 1, token := 5, puts := 255, list := [(0x3F800000, 3, 1), (0xBF800000, 1, 2)] }
def combining : TokenEntry := { st := 2, token := 6, experts := [3], got := [false] }
def box : Mailbox := { owner := some 0, k := 8, entries := [collecting, combining] ++ List.replicate 62 {} }
def boxed : State := (regs [(1, 5 * 2 ^ 32), (2, 255), (3, 8), (4, 0x0000000000004000), (5, 0x1000000000000000), (6, 5)] base).onCore 0 (fun k => { k with mbox := box })

/-- Hypotheses of RoutingIssue: the greatest K, an unowned mailbox and a foreign one, the last score of a list that ends at s63, a row of
one unit at the queue's last slot, and the token that MBTAKE asks for. -/
theorem witness_RoutingIssue :
    (Ready [rdS boxed.me 3 false] boxed ∧ (boxed.me.rs 3 false).toNat ≤ 8 ∧ boxed.myCore.mbox.owner = some boxed.me.ctx ∧
      base.myCore.mbox.owner = none) ∧
    (let s := base.onCore 0 (fun k => { k with mbox := { box with owner := some 1 } })
     s.myCore.mbox.owner = some 1 ∧ 1 ≠ s.me.ctx) ∧
    (Ready [rdS boxed.me 1 true, rdS boxed.me 2 false] boxed ∧ bits (boxed.me.rs 1 true) 31 13 = 0 ∧ sendUsed boxed boxed.cur.1 boxed.cur.2 0 < 32) ∧
    (Ready [rdS boxed.me 6 false, rdS boxed.me 2 false, wrS boxed.me 31 false] boxed ∧ (boxed.me.rs 2 false).toNat ≤ 255 ∧
      Ready (⟨0, boxed.me.idx (31 : BitVec 5).toNat false + box.k, false, true⟩ :: wrRange boxed.me 31 false (box.k + 1)) boxed ∧
      box.entries.findIdx? (fun e => e.st == 1 && e.token == bits (boxed.me.rs 6 false) 31 0) = some 0 ∧ box.entries[0]? = some collecting ∧
      collecting.list ≠ [] ∧ (boxed.me.rs 2 false).toNat ≤ collecting.puts ∧
      ({ collecting with puts := 254 } : TokenEntry).puts < (boxed.me.rs 2 false).toNat) ∧
    (Ready [rdS boxed.me 4 false, rdS boxed.me 5 false, rdS boxed.me 1 false] boxed ∧ rowDestOk (boxed.me.rs 4 false) = true ∧
      tagOf (boxed.me.rs 5 false) ≤ 4 ∧ (boxed.me.rs 5 false).toNat % 16 = 0 ∧
      pageMissing boxed (rangePages (boxed.me.rs 5 false) (16 * bits (boxed.me.rs 4 false) 25 14)) = none ∧
      rangeSegs boxed boxed.actor 1 (boxed.me.rs 5 false) (16 * bits (boxed.me.rs 4 false) 25 14) = .ok [⟨0, 16, 2 ^ 40⟩]) := by
  and_intros <;> decide +kernel

/-- Hypotheses of ReplicaResult: counts of 0, 256 and 257, attempt 255 and a bit that must be zero, each in s2. -/
theorem witness_ReplicaResult :
    ∀ n < 5, let s := regs [(2, [0, 0x00FF0100, 257, 0x200, 0x1000001].getD n 0)] base
      Ready [rdS s.me 1 true, rdS s.me 2 false, wrS s.me 0 true] s := by
  unfold Ready; decide +kernel

/-- Hypotheses of TokenListResult: a full list and one with room. -/
theorem witness_TokenListResult :
    collecting.list.length ≤ 2 ∧ (collecting.list.map (fun z => z.2.1)).Nodup ∧ collecting.list.Pairwise (fun a b => listBefore a b = true) ∧
    (∀ y ∈ collecting.list, y.2.1 ≠ 2) ∧ collecting.list.length < 8 := by
  decide +kernel

/-- Packets to core 0: a put for the collecting token, a row to read, a result of expert 3 and of expert 4, a row for a queue; the queue's
header at the head of the scratchpad, with one row present, not announced, on channel 63. -/
def onWay (b : Body) : Packet := { pid := 9, src := 3, dst := 0, net := 1, since := 0, holds := none, body := b }
def holding (b : Body) : State := { boxed with net := [onWay b], subj := { a := 9 } }
def resultFrom (expert : Nat) : Body := .row 0 0 true (BitVec.ofNat 64 (6 + expert * 2 ^ 32)) 0x6000 [7] none
def rowHeader : Nat := 2 + 1 * 2 ^ 16 + 1 * 2 ^ 32 + 5 * 2 ^ 48 + 63 * 2 ^ 64 + 1 * 2 ^ 160
def rowBody : Body := .row 0 0 true 6 0x4000 (List.replicate 16 7) none
def rowComes : State := writeNat (holding rowBody) (2 ^ 40) rowHeader (2 ^ 64 - 1) 64
def announcing : State := { rowComes with subj := { a := 0, b := 0 }, devtime := 5000 }.onCore 0 (fun k => { k with rings := [(0, 0)] })

/-- A mailbox with no entry FREE; one whose rank 0 has been taken since a copy of the result was passed on with it. -/
def fullBox (b : Body) : State :=
  (holding b).onCore 0 (fun k => { k with mbox := { box with entries := List.replicate 64 collecting } })
def lateCopy (b : Body) : State :=
  (holding b).onCore 0 (fun k => { k with mbox := { box with entries := [{ combining with got := [true] }] } })

/-- Hypotheses of RoutingEvents: a put to a foreign mailbox, a NaN, a put that is kept, one that finds no entry, a second copy of a result;
the threshold and the timer of a queue. -/
theorem witness_RoutingEvents :
    (let p := onWay (.put 0 (5 * 2 ^ 32) 0x00020007BF800001)
     (holding p.body).net.find? (fun x => x.pid == (holding p.body).subj.a) = some p ∧ firstOfFlow (holding p.body) p = true ∧ inputOpen (holding p.body) p = true ∧
      ((holding p.body).core p.dst).mbox = box ∧ scoreNan (bits (0x00020007BF800001 : Word) 31 0) = false ∧
      entryOf box (bits ((5 * 2 ^ 32 : Word)) 63 32) = some 0 ∧ box.entries[0]? = some collecting ∧ collecting.st = 1) ∧
    (scoreNan (bits (0x000000007F800001 : Word) 31 0) = true ∧ box.owner ≠ some 1) ∧
    (let p := onWay (.put 0 (9 * 2 ^ 32) 0x00020007BF800001)
     firstOfFlow (fullBox p.body) p = true ∧ inputOpen (fullBox p.body) p = true ∧ ((fullBox p.body).core 0).mbox.owner = some 0 ∧
      entryOf ((fullBox p.body).core 0).mbox (bits ((9 * 2 ^ 32 : Word)) 63 32) = none ∧
      ∀ e ∈ ((fullBox p.body).core 0).mbox.entries, e.st ≠ 0) ∧
    (let b : Body := .row 0 0 true (BitVec.ofNat 64 (6 + 3 * 2 ^ 32)) 0x6000 [7] (some 0)
     (lateCopy b).net.find? (fun x => x.pid == (lateCopy b).subj.a) = some (onWay b) ∧ firstOfFlow (lateCopy b) (onWay b) = true ∧
      inputOpen (lateCopy b) (onWay b) = true ∧ rowFree (lateCopy b) 0 (bits (0x6000 : Word) 49 32) = true ∧
      resultRank ((lateCopy b).core 0).mbox (BitVec.ofNat 64 (6 + 3 * 2 ^ 32)) ≠ some 0) ∧
    (let b : Body := .rowRead 0 0 true 6 0x4000 0x1000000000000000 []
     (holding b).net.find? (fun x => x.pid == (holding b).subj.a) = some (onWay b) ∧ (holding b).redLines = [] ∧
      (hardSegs (holding b) ⟨3, 0, 0, true⟩ 1 0x1000000000000000 (16 * bits (0x4000 : Word) 25 14)).2 = .ok [⟨0, 16, 2 ^ 40 + 3 * 2 ^ 18⟩] ∧
      (let u := (hardSegs (holding b) ⟨3, 0, 0, true⟩ 1 0x1000000000000000 (16 * bits (0x4000 : Word) 25 14)).1
       segsFree u [⟨0, 16, 2 ^ 40 + 3 * 2 ^ 18⟩] = true ∧
        (readSegs u ⟨3, 0, 0, true⟩ 0x1000000000000000 [⟨0, 16, 2 ^ 40 + 3 * 2 ^ 18⟩]).2 = .ok (List.replicate 16 0))) ∧
    ((holding (resultFrom 3)).net.find? (fun x => x.pid == (holding (resultFrom 3)).subj.a) = some (onWay (resultFrom 3)) ∧
      bits (0x6000 : Word) 13 13 = 1 ∧ firstOfFlow (holding (resultFrom 3)) (onWay (resultFrom 3)) = true ∧
      inputOpen (holding (resultFrom 3)) (onWay (resultFrom 3)) = true ∧
      ((holding (resultFrom 3)).core 0).mbox.entries.find? (fun e => e.st == 2 && e.token == 6) = some combining ∧
      combining.experts.findIdx? (· == 3) = some 0 ∧ combining.got[0]? = some false ∧ combining.experts.findIdx? (· == 4) = none) ∧
    (rowComes.net.find? (fun x => x.pid == rowComes.subj.a) = some (onWay rowBody) ∧ bits (0x4000 : Word) 13 13 = 0 ∧
      firstOfFlow rowComes (onWay rowBody) = true ∧ inputOpen rowComes (onWay rowBody) = true ∧
      rowFree rowComes 0 (bits (0x4000 : Word) 49 32) = true ∧ rowRefused rowComes 0 0 0 true 0x4000 = none) ∧
    (let h := headerAt announcing announcing.subj.a announcing.subj.b
     mapGet? (announcing.core announcing.subj.a).rings announcing.subj.b = some 0 ∧ headerOk h = true ∧ unannounced h ≠ 0 ∧
      rxRoom (announcing.core announcing.subj.a) h.ch = true ∧ entBits ((announcing.core announcing.subj.a).entry h.ch) 91 91 = 0 ∧
      h.thresh ≤ unannounced h ∧ h.timer ≠ 0 ∧ 0 + 1000 * h.timer ≤ announcing.devtime) := by
  and_intros <;> decide +kernel

/-- A copy of 16 bytes with a completion word: source in s1, length in s2, destination in s3, completion pointer in e0 and e1, control word
in e2; a multicast copy's destination in s4; a copy into stream register 7. -/
def copying : State :=
  (regs [(1, 0x1000000000000000), (2, 16), (3, 0x1000000000010000), (4, castWord - 8)] base).onMe (fun t => { t with
    ereg := ((t.ereg.set 0 0x20000).set 1 0x10000000).set 2 0x0D })
def copyStream : State :=
  (copying.onMe (fun t => { t with ereg := t.ereg.set 2 (0x3C00 : BitVec 32) })).onMe (fun t => t.setQ 7 { kind := 2 })

/-- A copy that has its last byte to move, one that has moved it, one into stream register 7 of a strand that is full but for 16 bytes. -/
def copyLeft : Op :=
  { copyOp base .copy 0x1000000000010000 0x1000000000000000 16 [⟨0, 16, 2 ^ 40⟩] [⟨0, 16, 2 ^ 40 + 0x10000⟩] [] with id := 7, pos := 15 }
def copyMoved : Op := { copyLeft with pos := 16 }
/-- One of DEVICE scope whose writes are complete at 9. -/
def copyWide : Op := { copyMoved with tc := 9, args := copyLeft.args.set 6 4 }
def copyToStream : Op := { copyLeft with pos := 0, ctr := none, dst := [], args := [0x1000000000000000, 16, 0x3C00] }
def streaming : State := (underway base copyToStream 0).onMe (fun t => t.setQ 7 { kind := 2, source := 7, stage := List.replicate 48 1 })

/-- Hypotheses of CopyResult. -/
theorem witness_CopyResult :
    (Ready [rdS copying.me 1 false, rdS copying.me 2 false, rdS copying.me 3 false] copying ∧ copying.me.pub = false ∧ copying.me.sub = false ∧ acquiring copying = false ∧
      copyCtlBad (copyCtl copying) = false ∧ bits (copyCtl copying) 10 10 = 0 ∧ bits (copyCtl copying) 3 3 = 1 ∧
      copyLenBad (copying.me.rs 2 false) = false ∧ EnginePtr 6 16 (copying.me.rs 1 false) ∧ tagOf (copyCw copying) ≠ 5 ∧
      EnginePtr 6 8 (copyCw copying) ∧ rangeSegs copying copying.actor 1 (copying.me.rs 1 false) 16 = .ok [⟨0, 16, 2 ^ 40⟩] ∧
      cwSegs copying true (copyCw copying) = .ok [⟨0, 8, 2 ^ 40 + 0x20000⟩] ∧ EnginePtr 6 16 (copying.me.rs 3 false) ∧
      pageMissing copying (rangePages (copying.me.rs 1 false) 16 ++ rangePages (copying.me.rs 3 false) 16 ++ cwPages true (copyCw copying)) = none ∧
      pageMissing copying (rangePages (copying.me.rs 1 false) 16 ++ cwPages true (copyCw copying)) = none ∧
      copyOverlaps (copying.me.rs 1 false) (copying.me.rs 3 false) 16 = false ∧
      rangeSegs copying copying.actor 2 (copying.me.rs 3 false) 16 = .ok [⟨0, 16, 2 ^ 40 + 0x10000⟩]) ∧
    (bits (copying.me.rs 4 false) 35 18 = 0 ∧ bits (copying.me.rs 4 false) 63 48 = 0 ∧
      rootLost copying (groupKey copying.me.ctx (bits (copying.me.rs 4 false) 47 36)) = false) ∧
    (copyCtlBad (copyCtl copyStream) = false ∧ bits (copyCtl copyStream) 10 10 = 1 ∧ bits (copyCtl copyStream) 3 3 = 0 ∧
      bits (copyCtl copyStream) 13 11 = 7 ∧ (copyStream.me.q 7).kind = 2 ∧ (copyStream.me.q 7).source = 0 ∧
      pageMissing copyStream (rangePages (copyStream.me.rs 1 false) 16) = none) ∧
    (let s := underway base copyLeft 0
     findOp s s.subj.a = some copyLeft ∧ copyLeft.kind = .copy ∧ bits (opArg copyLeft 2) 10 10 = 0 ∧ copyLeft.phase ≠ 9 ∧ copyLeft.fault = none ∧
      copyLeft.pos < (opArg copyLeft 1).toNat ∧ copyForked s copyLeft = true ∧ copyLeft.flush = false ∧ s.redLines = [] ∧
      segKey copyLeft.src copyLeft.pos = some (2 ^ 40 + 15) ∧ segKey copyLeft.dst copyLeft.pos = some (2 ^ 40 + 0x1000F) ∧
      segRun copyLeft.src 15 = 1 ∧ min (copyUnit copyLeft (2 ^ 40 + 0x1000F)) (segRun copyLeft.dst 15) = 1 ∧
      isScratch (2 ^ 40 + 15) = true ∧ isScratch (2 ^ 40 + 0x1000F) = true ∧ onLostDie s (2 ^ 40 + 15) = false ∧
      onLostDie s (2 ^ 40 + 0x1000F) = false ∧ segsFree s (copySegs copyLeft) = true ∧
      (∀ x ∈ copySegs copyLeft, keyReady s copyLeft.core x.key = true) ∧
      poisoned s (2 ^ 40 + 15) (min (copyUnit copyLeft (2 ^ 40 + 0x1000F)) (segRun copyLeft.dst copyLeft.pos)) = false) ∧
    (OpOf (underway base copyMoved 0) 7 0 0 copyMoved ∧ (opArg copyMoved 1).toNat ≤ copyMoved.pos ∧ bits (opArg copyMoved 2) 3 3 = 0 ∧
      opScope copyMoved < 2 ∧ tagOf copyMoved.ptr ≠ 5 ∧ copyMoved.shared = [] ∧ copyMoved.ctr = some .cp) ∧
    (opScope copyWide = 4 ∧ OpOf { underway base copyWide 0 with devtime := 8 } 7 0 0 copyWide ∧
      copyWide.tc ≤ { underway base copyWide 0 with devtime := 9 }.devtime ∧ { underway base copyWide 0 with devtime := 8 }.devtime < copyWide.tc) ∧
    (OpOf streaming streaming.subj.a 0 0 copyToStream ∧ bits (opArg copyToStream 2) 10 10 = 1 ∧ (streaming.slot 0 0).st ≠ .saving ∧
      segKey copyToStream.src 0 = some (2 ^ 40) ∧ copyForked streaming copyToStream = true ∧ copyToStream.flush = false ∧ copyToStream.dst = [] ∧
      copyToStream.pos < (opArg copyToStream 1).toNat ∧ segsFree streaming (copySegs copyToStream) = true ∧
      (∀ x ∈ copySegs copyToStream, keyReady streaming copyToStream.core x.key = true) ∧
      ((streaming.slot 0 0).q (bits (opArg copyToStream 2) 13 11)).stage.length ≤ 48) := by
  and_intros <;> decide +kernel

/-- INGCFG words in s2 of `confWord` and its block in memory at s1; a profile of context 0 that is ready. -/
def confWord (w : Word) (block : Nat) : State := writeNat (regs [(1, ptr4 0), (2, w)] (withTables base)) 0x1040 block (2 ^ 64 - 1) 64
def profile15 : Profile := { owner := 0, inflate := some (0, 0), transcode := some (0, true, []), tokenise := some [(97, 97)] }
def ingestWord : Nat :=
  0x4000000000001080 + 8 * 2 ^ 64 + 5 * 2 ^ 96 + 0x7000000000001040 * 2 ^ 128 + 15 * 2 ^ 368
def submitting : State := (confWord 0 ingestWord).onDie 0 (fun x => { x with boot := 5, profiles := [(15, profile15)] })

/-- A message in each stage of the chain of die 0. -/
def inChain (k : Nat) : Ingest := { ingestOf submitting 0 ingestWord with stage := k }
def chain (m : Ingest) (s : State) : State :=
  { s with devtime := 20000000, nextId := 9, subj := { a := 0 } }.onDie 0 (fun x => { x with boot := 5, profiles := [(15, profile15)], ingest := [m] })
def rowObj (granted : Nat) : State := writeNat (withTables base) 0x1040 (descLine 0 2 4 0 0 granted) (2 ^ 64 - 1) 64

/-- Hypotheses of IngestResult: a clear, each stage's block at a boundary, a submission to profile 15; each stage, an overrun, a stall, a
grant of permits, a row pushed and a message that is done. -/
theorem witness_IngestResult :
    (let s := confWord 0x4F 0
     Ready [rdS s.me 1 false, rdS s.me 2 false] s ∧ profileTaken s 0 (bits (s.me.rs 2 false) 3 0) 0 = false ∧
      profileBusy s 0 (bits (s.me.rs 2 false) 3 0) (s.me.cfgFrom.getD (s.nextId, 15)).1 = false ∧ bits (s.me.rs 2 false) 63 7 = 0 ∧ bits (s.me.rs 2 false) 5 4 ≠ 3 ∧
      bits (s.me.rs 2 false) 6 6 = 1) ∧
    (let s := confWord 0x0F 0x0E
     bits (s.me.rs 2 false) 6 6 = 0 ∧ bits (s.me.rs 2 false) 5 4 = 0 ∧ tagOf (s.me.rs 1 false) = 4 ∧
      Passes .load [{ lane := 0, ptr := s.me.rs 1 false, n := 64 }] [{ key := 0x1040, n := 64, ptr := ptr4 0 }] s ∧
      settled s 0x1040 64 = true ∧ poisoned s 0x1040 64 = false ∧ blockOk 0 (readNat s 0x1040 64) = true) ∧
    (let s := confWord 0x1F 0x61
     bits (s.me.rs 2 false) 5 4 = 1 ∧ blockOk 1 (readNat s 0x1040 64) = true ∧ nbits (readNat s 0x1040 64) 5 0 ≠ 34) ∧
    (let s := confWord 0x1F (34 + 0x4000000000001400 * 2 ^ 64)
     let u := touchKey (numbered s 15) 0 0x1040
     bits (s.me.rs 2 false) 5 4 = 1 ∧ blockOk 1 (readNat s 0x1040 64) = true ∧ nbits (readNat s 0x1040 64) 5 0 = 34 ∧
      pageMissing u (rangePages 0x4000000000001400 1024) = none ∧
      rangeSegs u u.actor 1 0x4000000000001400 1024 = .ok [⟨0, 1024, 0x1400⟩] ∧ segsFree u [⟨0, 1024, 0x1400⟩] = true ∧
      settled u 0x1400 1024 = true ∧ (readSegs u s.actor 0x4000000000001400 [⟨0, 1024, 0x1400⟩]).2 = .ok (List.replicate 1024 0) ∧
      ∀ c ∈ unpack 4 256 (List.replicate 1024 0), scalarOk c = true) ∧
    (let s := writeNat (confWord 0x2F (1 + 0x4000000000001080 * 2 ^ 64)) 0x1080 0x000000FF000000FF 255 8
     let u := touchKey (numbered s 15) 0 0x1040
     bits (s.me.rs 2 false) 5 4 = 2 ∧ blockOk 2 (readNat s 0x1040 64) = true ∧ mergesBut s 0 15 + 1 ≤ 524288 ∧
      pageMissing u (rangePages 0x4000000000001080 8) = none ∧
      rangeSegs u u.actor 1 (word 0x4000000000001080) 8 = .ok [⟨0, 8, 0x1080⟩] ∧ segsFree u [⟨0, 8, 0x1080⟩] = true ∧ settled u 0x1080 8 = true ∧
      (∀ i < 1, nbits 0x000000FF000000FF 31 0 < 256 + i ∧ nbits 0x000000FF000000FF 63 32 < 256 + i) ∧
      (readSegs u s.actor (word 0x4000000000001080) [⟨0, 8, 0x1080⟩]).2 = .ok [255, 0, 0, 0, 255, 0, 0, 0]) ∧
    (Ready [rdS submitting.me 1 true, wrS submitting.me 0 true] submitting ∧ tagOf (submitting.me.rs 1 true) = 4 ∧
      Passes .load [{ lane := 0, ptr := submitting.me.rs 1 true, n := 64 }] [{ key := 0x1040, n := 64, ptr := ptr4 0 }] submitting ∧
      settled submitting 0x1040 64 = true ∧ ingestOk (readNat submitting 0x1040 64) = true ∧ (ingestOf submitting 0 (readNat submitting 0x1040 64)).profile = 15 ∧
      profileOf submitting 0 15 = some profile15 ∧ profile15.owner = submitting.me.ctx ∧ stagesReady profile15 false false = true ∧
      ((submitting.die 0).ingest.filter (fun m => m.stage == 0)).length < 256) := by
  and_intros <;> decide +kernel

/-- Messages of the chain: one whose first bytes inflate has read, put out and is done with; one over its OUTMAX; one whose compressed bytes
end early; one whose text stands before transcode, its first character not valid UTF-8; one whose text stands before tokenise. -/
def readIn : Ingest := { inChain 1 with raw := [0x61, 0x61, 0, 0, 0, 0, 0, 0x20] }
def putOut : Ingest := { readIn with put := 8 }
def overMax : Ingest := { readIn with outmax := 4, put := 4 }
def cutShort : Ingest := { putOut with raw := [0x01, 0x10, 0, 0xEF, 0xFF, 1, 2, 3] }
def unread : Ingest := { inChain 0 with src := 0x4000000000002080 }
def textIn : Ingest := { putOut with q1 := [0x61, 0x61, 0x61, 0x20], inDone := true }
def badText : Ingest := { textIn with q1 := [0xFF, 0x61, 0x61, 0x20] }
def words : Ingest := { textIn with q1 := [], q2 := [0x61, 0x61, 0x20], trDone := true }
def deflating (s : State) : State := s.onDie 0 (fun x => { x with profiles := [(15, { profile15 with inflate := some (0, 1) })] })

/-- Hypotheses of IngestResult for the stages. -/
theorem witness_IngestResult_stages :
    (let s := chain (inChain 0) submitting
     inflating s 0 = some (inChain 0) ∧ inflated s 0 (inChain 0) = ([], 0) ∧ (inChain 0).raw.length < (inChain 0).len ∧
      (sourceNext s (inChain 0)).2 = some (.ok (List.replicate 8 0))) ∧
    (let s := chain unread submitting
     inflating s 0 = some unread ∧ inflated s 0 unread = ([], 0) ∧ unread.raw.length < unread.len ∧
      ((sourceNext s unread).2.map (·.toOption)) = some none) ∧
    (inflating (chain readIn submitting) 0 = some readIn ∧ inflated (chain readIn submitting) 0 readIn = (readIn.raw, 0)) ∧
    (inflating (chain overMax submitting) 0 = some overMax ∧ inflated (chain overMax submitting) 0 overMax = ([], 4)) ∧
    (inflating (chain putOut submitting) 0 = some putOut ∧ inflated (chain putOut submitting) 0 putOut = ([], 0) ∧
      putOut.len ≤ putOut.raw.length) ∧
    (inflating (deflating (chain cutShort submitting)) 0 = some cutShort ∧ (inflated (deflating (chain cutShort submitting)) 0 cutShort).1 = [] ∧
      8 < (inflated (deflating (chain cutShort submitting)) 0 cutShort).2 ∧ cutShort.len ≤ cutShort.raw.length) ∧
    (transcoding (chain { putOut with inDone := true } submitting) 0 = some { putOut with inDone := true } ∧ putOut.q1 = []) ∧
    (transcoding (chain { textIn with skipTranscode := true } submitting) 0 = some { textIn with skipTranscode := true } ∧ textIn.q1 ≠ []) ∧
    (transcoding (chain textIn submitting) 0 = some textIn ∧ textIn.skipTranscode = false ∧
      (profileIn (chain textIn submitting) 0 textIn).transcode = some (0, true, []) ∧ textIn.cs = none ∧
      textStart 0 [] textIn.q1 = (0, textIn.q1) ∧
      transcodeRun 0 true [] textIn.inDone textIn.q1.length (room2 (chain textIn submitting) 0) textIn.q1 = (textIn.q1, [], 0)) ∧
    (transcoding (chain badText submitting) 0 = some badText ∧ textStart 0 [] badText.q1 = (0, badText.q1) ∧
      transcodeRun 0 true [] true 4 (room2 (chain badText submitting) 0) badText.q1 = ([], badText.q1, 3)) ∧
    (tokenising (chain words submitting) 0 = some (words, some ([0x61, 0x61], [0x20])) ∧
      tokenising (chain { words with q2 := [] } submitting) 0 = some ({ words with q2 := [] }, none) ∧
      (profileIn (chain words submitting) 0 words).tokenise = some [(97, 97)]) ∧
    (let m := { inChain 1 with work := 10000001 }
     ((chain m submitting).die 0).ingest.find? overworked = some m) := by
  and_intros <;> decide +kernel

/-- A message with one id that stands to be pushed and no more to come, and the same when a cause has stopped it. -/
def lastRow : Ingest := { words with q2 := [], tkDone := true, ids := [256] }
def stoppedRow : Ingest := { inChain 3 with cause := 3, permits := 1 }
/-- A queue object in whose favour a permit of the chain is recorded. -/
def granted (m : Ingest) : State := { chain m (rowObj 1) with permRecs := [⟨0x1040, 8192, 0, 1, some 30000000, none⟩] }

/-- Hypotheses of IngestResult for the rows: a stall of more than 10 ms, permits granted again and at first, the last row, the row of a
stopped message, with no record and with one, and a message whose rows are visible. -/
theorem witness_IngestResult_rows :
    (let m := { lastRow with waitFrom := some 9999999 }
     ((chain m submitting).die 0).ingest = m :: [] ∧ m.cause = 0 ∧ outputStalled (chain m submitting).devtime m = true) ∧
    (let m := { lastRow with waitFrom := some 10000000, retryAt := 20000000 }
     m.waitFrom.isSome = true ∧ m.retryAt ≤ (chain m (rowObj 0)).devtime ∧ outputStalled (chain m (rowObj 0)).devtime m = false ∧
      (chainPermit (chain m (rowObj 0)) 0 m m.outq (min 64 (rowsReady m))).2 = 1) ∧
    (lastRow.stage ≠ 0 ∧ lastRow.stage ≠ 4 ∧ lastRow.waitFrom = none ∧ lastRow.cause = 0 ∧ rowsReady lastRow ≠ 0 ∧ lastRow.permits = 0 ∧
      (chainPermit (chain lastRow (rowObj 0)) 0 lastRow lastRow.outq (min 64 (rowsReady lastRow))).2 = 1) ∧
    (let m := { lastRow with permits := 1 }
     rowsReady m ≠ 0 ∧ m.permits ≠ 0 ∧ (chainPush (granted m) 0 m m.outq (rowNat m.tag 1 (m.ids.take 14))).2.1 = true ∧
      (let n := { m with ids := List.replicate 15 256 }
       rowsReady n ≠ 0 ∧ ¬ n.ids.length ≤ 14 ∧ (chainPush (granted n) 0 n n.outq (rowNat n.tag 0 (n.ids.take 14))).2.1 = true)) ∧
    (stoppedRow.waitFrom = none ∧ stoppedRow.cause ≠ 0 ∧ stoppedRow.permits ≠ 0 ∧ stoppedRow.quarq = 0 ∧
      (chainPush (granted stoppedRow) 0 stoppedRow stoppedRow.outq (rowNat stoppedRow.tag 3 [])).2.1 = true ∧
      (let m := { stoppedRow with quarq := handle }
       m.quarq ≠ 0 ∧ (chainPush (granted m) 0 m m.outq (rowNat m.tag 3 [])).2.1 = true)) ∧
    ((inChain 4).tc ≤ (chain (inChain 4) submitting).devtime ∧ (inChain 4).doneP = 0) := by
  and_intros <;> decide +kernel

/-- Hypotheses of ControlRegisterResult: the first register that needs privilege, a region of 256 KiB, a set not yet present. -/
theorem witness_ControlRegisterResult :
    (Ready [wrS base.me 31 false] base ∧ Ready [wrS base.me 0 true] base ∧ userTask.me.priv = false ∧ 0x100 ≤ (0x100 : BitVec 12).toNat) ∧
    (let s := regs [(1, 0x81000000)] base
     Ready [rdS s.me 1 false] s ∧ spregBad (s.me.rs 1 false) = false ∧ mapGet? s.myCore.spregs s.me.ctx = none ∧
      s.myCore.spregs.length < 16 ∧ s.me.priv = true) := by
  and_intros <;> decide +kernel

/-- An outstanding report of channel 3, named in s1; action 1 in s2; strands in the other slots. -/
def reported : State :=
  { regs [(1, 77), (2, 1)] base with reports := [{ id := 77, kind := .stop, core := 0, chan := 3, seq := 0, ctx := 0, channels := [(0, 3)] }] }
def preempting (st : SlotState) : State := (regs [(1, 3 * 2 ^ 13)] base).setSlot 0 3 { st := st, task := 4 }
def waitsOn (k : OpKind) (vals : Option (List Nat)) (s : State) : State := { s with ops := [{ myOp base k with id := 7, pend := true, answer := vals }] }

/-- A translation that core 0 alone holds, and its invalidation under way. -/
def selecting : State := regs [(1, 0x6000), (2, 0)] base
def invDie : Op := { myOp base (.tlbinv 0x4000 0) with id := 7, pend := true, todo := [8194] }
def invPeer : Op := { invDie with todo := [8196 + 9] }
def invOp : Op := { myOp base (.tlbinv 0 0) with id := 7, pend := true, todo := [0] }

/-- Hypotheses of SupervisorFormResult: no such report and one with action 1; the own strand, an empty slot, one in each state that can be
saved; nobody and one core holding a translation, a range of the greatest length. -/
theorem witness_SupervisorFormResult :
    (base.me.priv = true ∧ Ready [rdS reported.me 1 false, rdS reported.me 2 false] reported ∧ findReport base (base.me.rs 1 false) = none ∧
      (findReport reported (reported.me.rs 1 false)).isSome ∧ (reported.me.rs 2 false).toNat < 2) ∧
    (Ready [rdS base.me 0 false, wrS base.me 1 false] base ∧ pending base = none ∧ bits (base.me.rs 0 false) 63 15 = 0 ∧
      (bits (base.me.rs 0 false) 12 0, bits (base.me.rs 0 false) 14 13) = base.cur) ∧
    (freeImage base base.me.ctx = none ∧ freeImage recorded recorded.me.ctx = some 0 ∧
      (bits (recorded.me.rs 0 false) 12 0, bits (recorded.me.rs 0 false) 14 13) = recorded.cur) ∧
    freeImage ((regs [(1, 3 * 2 ^ 13)] recorded).setSlot 0 3 { st := .ready, task := 4 }) 0 = some 0 ∧
    (∀ p ∈ [SlotState.free, .starting, .trapping, .saving, .ready, .stalled, .blocked],
      let s := preempting p
      bits (s.me.rs 1 false) 63 15 = 0 ∧ (bits (s.me.rs 1 false) 12 0, bits (s.me.rs 1 false) 14 13) ≠ s.cur ∧
        (s.slot (bits (s.me.rs 1 false) 12 0) (bits (s.me.rs 1 false) 14 13)).st = p) ∧
    (Ready [rdS base.me 1 false, wrS base.me 0 false] (waitsOn .preempt (some [2]) base) ∧
      Answered (waitsOn .preempt (some [2]) base) { myOp base .preempt with id := 7, pend := true, answer := some [2] } [2]) ∧
    userTask.me.priv = false ∧
    (Ready [rdS selecting.me 1 false, rdS selecting.me 2 false] selecting ∧ pending selecting = none ∧
      (let s := regs [(1, 0x4000)] base
       bits (s.me.rs 1 false) 14 13 ≠ 3 ∧ bits (s.me.rs 1 false) 63 16 = 0 ∧ s.me.rs 2 false = 0 ∧
        holders (s.onCore 0 (fun k => { k with tlb := [] })) (s.me.rs 1 false) (s.me.rs 2 false) = []) ∧
      (let s := regs [(1, 0x4000)] base
       holders s (s.me.rs 1 false) (s.me.rs 2 false) = 0 :: []) ∧
      bits (0x0000FFFFFFFFFFFF : Word) 63 48 = 0) ∧
    (Answered (waitsOn (.tlbinv 0 0) (some []) base) { myOp base (.tlbinv 0 0) with id := 7, pend := true, answer := some [] } []) ∧
    (findOp (underway base invOp 0) 7 = some invOp ∧ (underway base invOp 0).subj.b ∈ invOp.todo ∧ ∀ h ∈ invOp.todo, h < 8192) ∧
    (findOp { underway base invDie 8194 with subj := { a := 7, b := 8194 } } 7 = some invDie ∧ 8192 + 2 ∈ invDie.todo ∧ 2 < 4) ∧
    (findOp (underway (linked base) invPeer 0) 7 = some invPeer ∧ 8196 + 9 ∈ invPeer.todo) := by
  and_intros <;> decide +kernel


/-- A peer that holds a translation can be reached. -/
theorem witness_SupervisorFormResult_peer : linkReady (underway (linked base) invPeer 0) invPeer.core 9 0 = true :=
  linkReady_15 _ _ _ _ (by decide +kernel) (by decide +kernel) (by decide +kernel)

/-- A translation of page 0x200 + `n` of space 0x4. -/
def page200 (n : Nat) : Xlat := { asid := 0, space := 4, page := 0x200 + n, pages := 1, frame := 0x200 + n, perm := 15 }
/-- The pages that the image takes, above all that memory lists. -/
def imageState : State :=
  (regs [(1, 0x4000000000200000)] recorded).onCore 0 (fun k => { k with tlb := (List.range 4).map page200 })
def imageSegs : List Seg := (List.range 4).map (fun i => ⟨4096 * i, 4096, 0x200000 + 4096 * i⟩)
def emptyImage : List Byte := imageSegs.flatMap (fun x => List.replicate x.len 0)

theorem image_clean : Clean imageState := clean_of_dies (by decide +kernel) (by decide +kernel) (by decide +kernel)

theorem image_read : ∃ c e, readSegs imageState imageState.actor (imageState.me.rs 1 false) imageSegs =
    ({ imageState with ctxs := c, homeLines := e }, .ok emptyImage) :=
  readSegs_above imageSegs image_clean _ _ (b := 0x200000) (by decide +kernel) (by decide)

/-- A CTXSAVE that has sent `n` lines of its image. -/
def savingState (n : Nat) : State :=
  { imageState with ops := [{ ctxsaveOp 0 false (imageState.me.rs 1 false) imageSegs imageState with id := 7, pos := n }] }

/-- Hypotheses of ContextImageResult: a save that starts, one at its last line and one that has sent them all, and a load. -/
theorem witness_ContextImageResult :
    (let s := imageState
     s.me.priv = true ∧ s.cur.2 < 4 ∧ Ready [rdS s.me 1 false, wrS s.me 0 false] s ∧ s.me.pub = false ∧ s.me.sub = false ∧
      pending s = none ∧
      tagOf (s.me.rs 1 false) = 4 ∧ fieldsOk (s.me.rs 1 false) = true ∧ (s.me.rs 1 false).toNat % 64 = 0 ∧ ctxsaveReady s = true ∧
      rangeSegs s s.actor 2 (s.me.rs 1 false) 16384 = .ok imageSegs ∧ s.redLines = [] ∧
      rangeSegs s s.actor 1 (s.me.rs 1 false) 16384 = .ok imageSegs ∧ (∀ o ∈ s.ops, o.task = s.me.task → o.regs = [] ∧ o.kind ≠ .sfu) ∧
      pageMissing s (rangePages (s.me.rs 1 false) 16384) = none ∧ acquiring s = false ∧
      ∀ x ∈ imageSegs, settled s x.key x.len = true) ∧
    segsFree imageState imageSegs = true ∧
    (let s := savingState 255
     s.me.priv = true ∧ s.cur.2 < 4 ∧ Ready [rdS s.me 1 false, wrS s.me 0 false] s ∧ s.me.pub = false ∧ s.me.sub = false ∧
      (pending s).map (·.pos) = some 255 ∧ remoteCount s s.cur.1 < 64) ∧
    (let s := savingState 256
     s.me.priv = true ∧ s.cur.2 < 4 ∧ Ready [rdS s.me 1 false, wrS s.me 0 false] s ∧ s.me.pub = false ∧ s.me.sub = false ∧
      (pending s).map (·.pos) = some 256 ∧ s.me.cSt = 0) ∧
    (∃ u, readSegs imageState imageState.actor (imageState.me.rs 1 false) imageSegs = (u, .ok emptyImage) ∧ imageOk u emptyImage = true ∧
      sendsFit (u.onMe (fun t => { t with sends := [] })) imageState.cur.1 imageState.cur.2 (sendsOf emptyImage) = none ∧
      imgNat emptyImage 0 8 % 2 = 0) := by
  refine ⟨by and_intros <;> decide +kernel, segsFree_of (by decide +kernel) (by decide +kernel), by and_intros <;> decide +kernel, by and_intros <;> decide +kernel, ?_⟩
  · obtain ⟨c, e, hc⟩ := image_read
    have e1 : ∀ (s : State) (l : List Byte), imageOk { s with ctxs := c, homeLines := e } l = imageOk s l := fun _ _ => rfl
    have e2 : sendsOf emptyImage = [] := by decide +kernel
    refine ⟨_, hc, ?_, ?_, by decide +kernel⟩
    · rw [e1]; decide +kernel
    · rw [e2]; rfl

/-- Hypotheses of ClockResult: a release, a clock below the range, the cluster's own clock, the highest one; a wait that is over, a change
that has settled, a window to sample. -/
theorem witness_ClockResult :
    (let s := regs [(1, 32), (2, 8), (3, 9), (4, 31)] base
     Ready [rdS s.me 1 false, wrS s.me 0 false] s ∧ pending s = none ∧ bits (s.me.rs 1 false) 63 6 = 0 ∧ bits (s.me.rs 1 false) 5 5 = 1 ∧
      bits (s.me.rs 2 false) 5 5 = 0 ∧ pwrDenied s s.myCluster (bits (s.me.rs 2 false) 4 0) = some 2 ∧
      pwrDenied s s.myCluster (bits (s.me.rs 3 false) 4 0) = none ∧ locked s s.myCluster = false ∧ (s.cluster s.myCluster).tripped = false ∧
      (s.cluster s.myCluster).lockSwitch = none ∧
      bits (s.me.rs 3 false) 4 0 ≤ (s.cluster s.myCluster).freq ∧ (s.cluster s.myCluster).freq < bits (s.me.rs 4 false) 4 0 ∧
      pwrDenied s s.myCluster (bits (s.me.rs 4 false) 4 0) = none) ∧
    ((pending (waitsOn (.pwr 31) none base)).isSome ∧ changing ((waitsOn (.pwr 31) none base).cluster (waitsOn (.pwr 31) none base).myCluster) = false ∧
      Ready [rdS base.me 1 false, wrS base.me 0 false] (waitsOn (.pwr 31) none base)) ∧
    (let s := { base with subj := { a := 511 }, devtime := 10000 }.onCluster 511 (fun k => { k with change := some 31 })
     together s 511 = [511] ∧ (s.cluster 511).change = some 31 ∧ s.devtime % 10000 = 0 ∧ (s.cluster 511).sampled < s.devtime / 10000 ∧ locked s 511 = false) := by
  and_intros <;> decide +kernel

/-! ## Launches, the Tailor and what comes from outside -/

/-- A launch of context 0 whose record, fence and DIMS lie in the mapped page; DIMS asks for a grid of 2 × 1 × 1. -/
def launchOf (phase : Nat) : Launch :=
  { id := 5, phase := phase, core := 0, slot := 0, chan := 0, ctx := 0, asid := 0, pc := 0, host := false, msgid := 0, seq := 0, c0 := 16, nc := 4
    peer := none, record := ptr4 0, gx := 2, gy := 1, gz := 1, next := 0, args := [], since := 0, timeout := 10, fence := ptr4 0, target := 0
    dims := ptr4 0x80, status := 0, maxTasks := 0, delivered := 0 }
def launches (l : List Launch) : State :=
  { writeNat recorded 0x10C0 0x100010002 255 8 with subj := { a := 5 }, dies := [(0, { boot := 5, launches := l })] }
def launching (phase : Nat) : State := launches [launchOf phase]

/-- A launch whose fence is not met, one whose fence is met; a static grid of 512 × 256 × 1 from the host. -/
def launchUnmet : Launch := { launchOf 1 with target := 1 }
def launchMet : Launch := { launchOf 1 with met := some 0 }
def hostGrid : State := { base with subj := { b := 1, d := 0x02000000 + 0x101000200 * 2 ^ 64 } }

/-- Hypotheses of LaunchResult: a record to be read; a fence that is met, one that is not, one recorded as met, one that is late; a host's
record and its static grid of 512 × 256 × 1; a task to post. -/
theorem witness_LaunchResult :
    (let s := launching 0
     (findLaunch s s.subj.a = some (0, launchOf 0) ∧ launchFree s (launchOf 0) (launchOf 0).record 64 = true ∧ tagOf (launchOf 0).record = 4 ∧
      (launchRead s (launchOf 0) (launchOf 0).record 64).2.toOption.isSome ∧ s.redLines = [])) ∧
    (let s := launching 1
     findLaunch s s.subj.a = some (0, launchOf 1) ∧ fenceDue s (launchOf 1) = true ∧ fenceLate s (launchOf 1) = false ∧
      launchFree s (launchOf 1) (launchOf 1).fence 8 = true ∧ (launchRead s (launchOf 1) (launchOf 1).fence 8).2 = .ok (0, 0x1040) ∧ (launchOf 1).target.toNat ≤ 0) ∧
    (findLaunch (launches [launchUnmet]) 5 = some (0, launchUnmet) ∧ fenceDue (launches [launchUnmet]) launchUnmet = true ∧
      fenceLate (launches [launchUnmet]) launchUnmet = false ∧ launchFree (launches [launchUnmet]) launchUnmet launchUnmet.fence 8 = true ∧
      0 < launchUnmet.target.toNat ∧ monitorsAt (launches [launchUnmet]) 0x1040 < 64) ∧
    (findLaunch (launches [launchMet]) 5 = some (0, launchMet) ∧ launchFree (launches [launchMet]) launchMet launchMet.dims 8 = true ∧
      (launchRead (launches [launchMet]) launchMet launchMet.dims 8).2 = .ok (0x100010002, 0x10C0) ∧
      (gridOf launchMet 0x100010002).map (fun g => g.gx * g.gy * g.gz) = some 2) ∧
    (let s := { launching 1 with devtime := 10000, monitors := [⟨5, 0x1040, 2, 1⟩] }
     findLaunch s s.subj.a = some (0, launchOf 1) ∧ fenceLate s (launchOf 1) = true ∧ (launchOf 1).status = 0) ∧
    ({ base with subj := { b := 0 } } : State).subj.b = 0 ∧
    (hostGrid.subj.b = 1 ∧ word hostGrid.subj.d.toNat = 0x02000000 ∧ coreSetOk 0x02000000 = true ∧ bits 0x02000000 27 27 = 0 ∧
      (word (hostGrid.subj.d.toNat / 2 ^ 64)).toNat = 0x101000200 ∧ nbits 0x101000200 15 0 * nbits 0x101000200 31 16 * nbits 0x101000200 47 32 = 2 ^ 17) ∧
    (let s := { launching 2 with subj := {} }
     (launchOf 2).peer = none ∧ (∀ p ∈ s.net, p.pid ≠ s.nextId) ∧
      (s.die s.subj.a).launches.find? (fun l => l.phase == 2 && decide (l.next < l.gx * l.gy * l.gz)) = some (launchOf 2)) := by
  and_intros <;> decide +kernel

/-- A timed record of context 0 in the mapped page: class T0 with period 1, FLOOR 9, one core, BUDGET 100, DEADLINE 10,000 ns; or a cancel of
reservation 4. -/
def timedRecord (cancel : Bool) : Nat :=
  if cancel then 2 ^ 11 + 4 * 2 ^ 128 else 2 ^ 14 + 9 * 2 ^ 26 + 2 ^ 37 + 100 * 2 ^ 64 + 10000 * 2 ^ 96
def timedJob : TimedJob :=
  { id := 5, core := 0, slot := 0, chan := 0, ctx := 0, asid := 0, pc := 0, host := false, msgid := 0, seq := 0, record := ptr4 0x40, since := 0 }
def resv4 : Resv := { resvOfRecord timedJob (timedRecord false) 4 with st := 1, frame := 1, nextFrame := 1 }
def tailoring (n : Nat) (l : List Resv) : State :=
  (({ writeNat recorded 0x1080 n (2 ^ 128 - 1) 128 with subj := { a := 5 }, timedJobs := [timedJob], resvs := l }).onDie 0
    (fun d => { d with tailorcfg := 0x80000032 })).onCore 0 (fun k => { k with handlers := [(0, 1)] })

/-- The reservation that the job asks for; reservation 4 while it is PENDING, with its job and its steps complete. -/
def asked (u : State) (n : Nat) : Resv :=
  let r := resvOfRecord timedJob n 0
  { r with rid := freeRid u (dieOf r.first), from_ := arrivalOf u timedJob r }
def resvPending : Resv := { resv4 with st := 0, endFrame := 63 }
def pended : State := { tailoring (timedRecord false) [resvPending] with timedJobs := [{ timedJob with pending := some 4 }] }

/-- It before its first steps are complete: its cluster's clock at a frequency, an untimed strand in a slot that it reserves. -/
def pendedAt (step : Nat) : State := { pended with resvs := [{ resvPending with step := step }] }
def raised (f : Nat) : State := (pendedAt 1).onCluster 0 (fun k => { k with freq := f })
def draining (i : Nat) : State := ((pendedAt 2).onCore 0 (fun k => { k with rsv := 1 })).setSlot 0 i { st := .saving, task := 4, capped := some 5 }

/-- A task of reservation 4 in slot 1. -/
def timed (x : Timing) : State :=
  ({ base with subj := { a := 0, b := 1 }, devtime := 20000 }).setSlot 0 1 { st := .ready, started := 10000, timing := some x }

/-- Hypotheses of ReservationResult: a record with BUDGET 0, one that finds a frame, a reservation
whose steps are complete in time and one whose frames have passed, a cancel, an end; a run frame, a deadline, a lapse. -/
theorem witness_ReservationResult :
    (let s := tailoring 0 []
     s.timedJobs.find? (fun j => j.id == s.subj.a) = some timedJob ∧ timedJob.pending = none ∧ inTurn s timedJob = true ∧ timedFree s timedJob = true ∧
      (match readTimed s timedJob with
        | (u, .whole n) => nbits n 11 11 == 0 && !recordValid u n (asked u n)
        | _ => false) = true) ∧
    (let s := tailoring (timedRecord false) []
     inTurn s timedJob = true ∧ timedFree s timedJob = true ∧
      (match readTimed s timedJob with
        | (u, .whole n) => nbits n 11 11 == 0 && recordValid u n (asked u n) &&
            (resvDies (asked u n)).all (fun d => nbits (u.die d).tailorcfg.toNat 31 31 == 1) &&
            chooseFrame u (asked u n) (lastFrame u) == some 1 && (permitLine u (asked u n)).isSome
        | _ => false) = true) ∧
    (∀ p ∈ [(0, some 1), (20000000, none)], let s := { pended with devtime := p.1 }
     s.timedJobs.find? (fun j => j.id == s.subj.a) = some { timedJob with pending := some 4 } ∧ resvPending.step ≠ 1 ∧ resvPending.step ≠ 2 ∧
      s.resvs.find? (fun x => x.rid == resvPending.rid) = some resvPending ∧ firstFrame s resvPending = p.2) ∧
    (pendedAt 1).resvs.find? (fun x => x.rid == 4) = some { resvPending with step := 1 } ∧
    (floorsDone (raised 9) { resvPending with step := 1 } = true ∧ floorsDone (raised 5) { resvPending with step := 1 } = false) ∧
    (drainsDone (pendedAt 2) { resvPending with step := 2 } = true ∧ usesPermits resvPending = false ∧
      drainsDone (draining 3) { resvPending with step := 2 } = false) ∧
    chooseFrame (tailoring 0 []) resv4 63 = some 1 ∧
    (let s := tailoring (timedRecord true) [resv4]
     s.timedJobs.find? (fun j => j.id == s.subj.a && j.pending.isNone) = some timedJob ∧ timedFree s timedJob = true ∧
      (match readTimed s timedJob with
        | (u, .whole n) => nbits n 11 11 == 1 && recordReserved n && statusSpace (statusOf n) &&
            u.resvs.any (fun r => r.rid == nbits n 143 128 && r.st == 1 && r.ctx == timedJob.ctx)
        | _ => false) = true) ∧
    (let s := { tailoring 0 [{ resv4 with st := 2, endFrame := 1 }] with devtime := 20000, subj := { a := 4 } }
     s.resvs.find? (fun r => r.rid == s.subj.a) = some { resv4 with st := 2, endFrame := 1 } ∧ (1 + 1) * 10000 ≤ s.devtime) ∧
    (let s := { tailoring 0 [{ resv4 with cls := 3 }] with devtime := 20000, subj := { a := 4 } }
     s.resvs.find? (fun r => r.rid == s.subj.a) = some { resv4 with cls := 3 } ∧ resv4.st = 1 ∧ (resv4.frame + 1) * 10000 ≤ s.devtime) ∧
    (∀ k ∈ [1, 2, 3], let s := { tailoring 0 [{ resv4 with cls := k }] with devtime := 10000, subj := { a := 4 } }
     s.resvs.find? (fun r => r.rid == s.subj.a) = some { resv4 with cls := k } ∧ resv4.nextFrame = resv4.frame ∧
      usesPermits { resv4 with cls := k } = false) ∧
    (let s := { tailoring 0 [resv4] with devtime := 10000, subj := { a := 4 } }
     s.resvs.find? (fun r => r.rid == s.subj.a) = some resv4 ∧ resv4.st = 1 ∧ resv4.cls = 0 ∧ resv4.nextFrame * 10000 ≤ s.devtime ∧
      usesPermits resv4 = false) ∧
    (let x : Timing := { rid := 4, frameEnd := 20000, deadline := 20000, wait := 1, used := 1, lapsed := false }
     let u := (timed x).slot (timed x).subj.a (timed x).subj.b
     u.timing = some x ∧ u.st = .ready ∧ x.frameEnd ≤ (timed x).devtime ∧ u.started < x.frameEnd ∧ x.used ≤ x.wait ∧
      budgetDue { u with budget := 9 } = false ∧ x.lapsed = false) ∧
    (let x : Timing := { rid := 4, frameEnd := 20000, deadline := 20000, wait := 0, used := 1, lapsed := false }
     let u := (timed x).slot (timed x).subj.a (timed x).subj.b
     u.timing = some x ∧ x.wait < x.used ∧ u.st ≠ .blocked) := by
  and_intros <;> decide +kernel

/-- Hypotheses of ErrorAndHostResult: a location in a scratchpad, a table entry of one
owner, a die lost or not, a cluster at its clock and one that has tripped, a posted
write to HBM, a doorbell for a report, registers written before READY. -/
theorem witness_ErrorAndHostResult :
    (let s := { base with subj := { a := 2, b := 8191, c := 262143 } }
     s.subj.a = 2 ∧ s.subj.b < 8192 ∧ s.subj.a < 4 ∧ (s.die s.subj.a).lost = false ∧ (s.cluster s.subj.a).tripped = false ∧
      locked s s.subj.a = false ∧ 9 ≤ (s.cluster s.subj.a).freq ∧ s.errlog.length < ({ s with errSize := 1 }).errSize.toNat) ∧
    (let s := { queueObj (descLine 0 0 4 0 0 0) with subj := { a := 5, b := 13, c := 0x1040 }, queueOwners := [(0x1040, 6)] }
     s.subj.a = 5 ∧ tableOwners s (s.subj.b / 4) s.subj.c = [6]) ∧
    (let s := { base with subj := { a := 3 } }.onDie 3 (fun d => { d with lost := true, wasReset := true, boot := 5 })
     (s.die s.subj.a).lost = true ∧ (s.die s.subj.a).wasReset = true ∧ (s.die s.subj.a).boot = 5) ∧
    (base.die base.subj.a).wasReset = false ∧
    (let s := { base with subj := { a := 511 } }.onCluster 511 (fun k => { k with tripped := true })
     (s.cluster s.subj.a).tripped = true ∧ s.subj.a < 512) ∧
    (let s := { base with subj := { a := 0x1238, d := 77 } }
     s.redLines = [] ∧ s.subj.a / 8 * 8 < 2 ^ 40 ∧ onLostDie s (s.subj.a / 8 * 8) = false ∧ homeRoom s (s.subj.a / 8 * 8 / 64) = true) ∧
    (let s := { reported with subj := { a := 1, d := 77 } }
     barOpen s = true ∧ s.subj.a < 2 ∧ (findReport s (s.subj.d.setWidth 64)).isSome) ∧
    (let s := { base with subj := { a := 0x100, d := 0x40000 } }
     s.subj.b = 0 ∧ barOpen s = true ∧ s.subj.a = 0x100) := by
  and_intros <;> decide +kernel

/-- Port 15 in a state of Table 15.2, with all eight lanes trained; operands of its next event. -/
def porting (st b : Nat) : State :=
  { base with subj := { a := 15, b := b }, ports := [(15, { stat := BitVec.ofNat 64 (st + 0xFF * 2 ^ 16), resends := 9 })] }

/-- Port 15 READY at its full width with all its lanes and `n` failed resends, and an event of it. -/
def readyPort (n b c : Nat) : State :=
  { base with subj := { a := 15, b := b, c := c }, ports := [(15, { stat := BitVec.ofNat 64 (6 + 0xFF * 2 ^ 16), resends := n, lanes := 0xFF, inUse := 0xFF })] }

/-- Port 15 READY at its narrowest group, its lane 7 failed, and the marker of that lane. -/
def narrowPort : State :=
  { base with subj := { a := 15, b := 0, c := 7 }
              ports := [(15, { stat := BitVec.ofNat 64 (6 + 3 * 2 ^ 6 + 0xFF * 2 ^ 16), lanes := 0x7F, inUse := 1 })] }

/-- A packet for device 9, with the way to it that port 15 gives. -/
def peerPacket : Packet :=
  { pid := 4, src := 0, dst := 0, net := 0, since := 0, holds := none, body := .peer 9 3 0 (Vector.replicate 8 0) 0 false 0 }

/-- The packet finds the READY port of its route, and none without a route. -/
theorem witness_FabricResult_ready : linkReady { linked base with net := [peerPacket], subj := { a := 4 } } 0 9 3 = true ∧
    linkReady { base with net := [peerPacket], subj := { a := 4 }, devtime := 1000000 } 0 9 3 = false :=
  ⟨linkReady_15 _ _ _ _ (by decide +kernel) (by decide +kernel) (by decide +kernel), linkReady_none _ _ _ _ (by decide +kernel)⟩

/-- Hypotheses of LinkAndBringUpResult: a port in each state with an event due, an arrival from device 9, a packet with a way and one
without for 1 ms, a die in each stage, a die reset. -/
theorem witness_LinkAndBringUpResult :
    ((15 < 16 ∧ portState ((porting 1 0).port 15) = 1 ∧ (porting 1 0).devtime ≤ ((porting 1 0).port 15).since + 10000000) ∧
      (let s := { porting 1 0 with devtime := 10000000 }
       portState (s.port 15) = 1 ∧ (s.port 15).since + 10000000 ≤ s.devtime) ∧
      (portState ((porting 2 1).port 15) = 2 ∧ (1 : Nat) % 256 ≠ 0 ∧ ((porting 2 256).port 15).fails = [] ∧ (256 : Nat) % 256 = 0) ∧
      (portState ((porting 3 1).port 15) = 3 ∧ (bestSpeed 1).isSome) ∧
      (portState ((porting 4 0xFF).port 15) = 4 ∧ (bestWidth (0xFF &&& bits ((porting 4 0xFF).port 15).stat 23 16)).isSome) ∧
      portState ((porting 5 0).port 15) = 5 ∧
      (portState ((porting 6 0).port 15) = 6 ∧ 8 ≤ ((porting 6 0).port 15).resends) ∧
      (portState ((readyPort 7 1 0).port 15) = 6 ∧ ((readyPort 7 1 0).port 15).resends < 8) ∧
      (let s := readyPort 0 2 7
       bits (s.port 15).stat 7 6 < s.subj.b % 4 ∧ (s.port 15).inUse &&& 2 ^ (s.subj.c % 8) = 2 ^ (s.subj.c % 8) ∧
        (groupIn ((s.port 15).inUse - 2 ^ (s.subj.c % 8)) (s.subj.b % 4) (fun _ => true)).isSome) ∧
      (let s := narrowPort
       portState (s.port 15) = 6 ∧ s.subj.b % 4 < bits (s.port 15).stat 7 6 ∧ (s.port 15).lanes &&& 2 ^ (s.subj.c % 8) ≠ 2 ^ (s.subj.c % 8) ∧
        (groupIn ((s.port 15).lanes + 2 ^ (s.subj.c % 8)) (s.subj.b % 4)
          (fun g => g &&& 2 ^ (s.subj.c % 8) == 2 ^ (s.subj.c % 8) && g &&& (s.port 15).inUse == (s.port 15).inUse)).isSome) ∧
      (portState ((porting 0 0).port 15) = 0 ∧ bits ((porting 0 0).port 15).stat 63 63 = 0 ∧ barOpen (porting 0 0) = true) ∧
      (barOpen (porting 6 1) = true ∧ (porting 6 1).subj.b = 1)) ∧
    (let s := { base with subj := { a := 0, b := 9, c := 8191 } }
     s.subj.a = 0 ∧ s.subj.b < 4096 ∧ s.subj.b ≠ s.fabid.toNat ∧ nbits s.subj.c 21 21 = 0) ∧
    (let s := { linked base with net := [peerPacket], subj := { a := 4 } }
     s.net.find? (fun x => x.pid == s.subj.a) = some peerPacket ∧ findLaunch s 0 = none ∧ s.subj.a ≠ 0 ∧
      9 ≠ s.fabid.toNat ∧ ∀ q ∈ s.net, ¬ (q.pid < peerPacket.pid ∧ q.src = peerPacket.src ∧ q.net = peerPacket.net)) ∧
    (let s := { base with net := [peerPacket], subj := { a := 4 }, devtime := 1000000 }
     waitedOut { s with linkWaits := [(waitKey peerPacket.pid 0, 0)] } (waitKey peerPacket.pid 0) = true) ∧
    (∀ st < 6, let s := { base with subj := { a := 3 }, modReady := true }.onDie 3 (fun d => { d with boot := st })
      s.subj.a < 4 ∧ (s.die s.subj.a).boot = st ∧ (s.die s.subj.a).lost = false ∧ s.modReady = true ∧ ∀ i < 4, portState (s.port (4 * s.subj.a + i)) ∈ [0, 6, 7]) ∧
    (let s := { base with subj := { a := 8 } }.onDie 3 (fun d => { d with lost := true })
     3 < 4 ∧ barOpen s = true ∧ s.subj.a / 2 ^ 3 % 2 = 1 ∧ (s.die 3).lost = true) := by
  and_intros <;> decide +kernel

/-! ## The whole machine -/

/-- The number that a result register of the running strand holds after an instruction. -/
def result (r : Host.Outcome State Fault Refusal) (n : Nat) : Option Word :=
  match r with
  | .next t => some (t.me.s n)
  | _ => none

/-- Hypotheses of RegisterFormFrame and IssueFrame: an addition and a load that answer a next state. -/
theorem witness_RegisterFormFrame :
    registerForm (.add 3 1 2 false false) = true ∧ base.cur.2 < 4 ∧ (result (exec (.add 3 1 2 false false) base) 3).isSome := by
  and_intros <;> decide +kernel
theorem witness_IssueFrame :
    issueForm (.ld 5 1 0 0 3 0) = true ∧ loaded.cur.2 < 4 ∧ (result (exec (.ld 5 1 0 0 3 0) loaded) 1).isSome := by
  and_intros <;> decide +kernel

/-- `base` with its PC, or the halfword it fetches, replaced. -/
def fetching (pc : Nat) (h : Nat) : State :=
  (base.onMe (fun t => { t with pc := BitVec.ofNat 48 pc })).onCore 0 (fun k => { k with
    icache := [{ line := 64, bytes := leBytes 2 h ++ List.replicate 62 0, leaseEnd := 2 ^ 64, grant := 0 }] })

/-- The running task as one that has migrated, with `n` sends still to enter the send queues. -/
def entering (n : Nat) : State :=
  base.onMe (fun t => { t with entering := true, sends := List.replicate n { form := 0, net := 0, dest := 0, data := [], pc := 0 } })

/-- Hypotheses of StepRunsDecodedInstruction: the step picks the strand, which fetches its instruction; an odd PC, a page with no
translation, a line that is not there; a compact form, a 32-bit form and two that decode to nothing; an event picked and an input due. -/
theorem witness_StepRunsDecodedInstruction :
    (dueEvents base = [] ∧ dueInput base = none ∧ pick base = some (.issue 0 0) ∧ (base.turnTo 0 0).me.sub = false ∧ (base.turnTo 0 0).me.pub = false ∧
      fetch (base.turnTo 0 0) = .instr (.add 3 1 2 false false) 4) ∧
    (pick (fetching 0x1001 0) = some (.issue 0 0) ∧ fetch ((fetching 0x1001 0).turnTo 0 0) = .trap .align 0 0x1001) ∧
    (pick (fetching 0x5000 0) = some (.issue 0 0) ∧ fetch ((fetching 0x5000 0).turnTo 0 0) = .walk 0 4 0x5000) ∧
    (pick (fetching 0x1040 0) = some (.issue 0 0) ∧ fetch ((fetching 0x1040 0).turnTo 0 0) = .fill 0x1040 0x4000000000001040 ∧
      homeRoom (fetching 0x1040 0) (0x1040 / 64) = true ∧ remoteCount (fetching 0x1040 0) 0 < 64) ∧
    (let s := entering 1
     dueEvents s = [] ∧ dueInput s = none ∧ pick s = some (.issue 0 0) ∧ (s.turnTo 0 0).me.entering = true ∧
      sendsFit (s.turnTo 0 0) 0 0 (s.turnTo 0 0).me.sends = none ∧ sendsFit (entering 33) 0 0 (entering 33).me.sends = some 0) ∧
    (let s := publisher
     dueEvents s = [] ∧ dueInput s = none ∧ pick s = some (.issue 0 0) ∧ (s.turnTo 0 0).me.pub = true ∧
      publisherHeld (s.chan (s.turnTo 0 0).me.ichan) = false) ∧
    (let s := fetching 0x1000 0x6000
     s.me.pc.toNat % 2 = 0 ∧ translate s 4 4 s.me.pc.toNat = .key 0x1000 ∧ onLostDie s 0x1000 = false ∧
      (icacheHit s 64).any (fun x => decide (l1Value x 0x1000 2 < 2 ^ 15)) = true ∧ decodeTableWord 16 0x6000 = some .compactEnd ∧
      decodeTableWord 16 0x6001 = none) ∧
    (let s := fetching 0x1000 0x8230
     translate s 4 4 ((s.me.pc.toNat + 2) % 2 ^ 48) = .key 0x1002 ∧ onLostDie s 0x1002 = false ∧
      (icacheHit s 64).any (fun x => l1Value x 0x1000 2 == 0x8230 && l1Value x 0x1002 2 == 0) = true ∧
      decodeTableWord 32 0x82300000 = some (.add 3 0 0 false false) ∧ decodeTableWord 32 0x80000000 = none) ∧
    (let s := base.setSlot 0 1 { st := .ready }
     dueEvents s = [.event .budgetExpiry { a := 0, b := 1 }]) ∧
    (let s := { base with cores := [], leases := [(5, 0)] }
     dueEvents s = [] ∧ dueInput s = none ∧ pick s = some (.event .leaseEnd { a := 5 })) ∧
    (let s := { base with agenda := [(0, .hostPostedMessage, { a := 3 })] }
     dueInput s = some (.hostPostedMessage, { a := 3 }, { s with agenda := [] }) ∧ isInput .hostPostedMessage = true) := by
  and_intros <;> decide +kernel

/-- Hypotheses of EncodeDecodeRoundTrip and DecodeIsCanonical. -/
theorem witness_EncodeDecodeRoundTrip : (Instr.add 3 1 2 false false).wf = true ∧ encode (.add 3 1 2 false false) = some (32, 0x82308800) := by
  decide +kernel
theorem witness_DecodeIsCanonical :
    (2 ^ 31 ≤ 0xF8123456 ∧ 0xF8123456 < 2 ^ 32 ∧ decodeTableWord 32 0xF8123456 = some (.ext 2 0x123456)) ∧
    (0x6000 < 2 ^ 16 ∧ decodeTableWord 16 0x6000 = some .compactEnd) := by
  and_intros <;> decide +kernel

/-- Hypotheses of StepKeepsMemoryCanonical. -/
theorem witness_StepKeepsMemoryCanonical : memWf base.mem = true ∧ (result (step base) 3).isSome := by
  and_intros <;> decide +kernel

/-! ## Results that the spec or a hand calculation gives -/

/-- One step of `base`, whose s1 and s2 are 7 and 5, runs ADD s3, s1, s2. -/
theorem test_step_add : result (step (regs [(1, 7), (2, 5)] base)) 3 = some 12 := by decide +kernel

/-- Results of three-operand forms at the values a swapped operand or a wrong sign would change (R356, R387, R426, R464, R476). -/
def both (a b : Word) : State := regs [(1, a), (2, b)] base
theorem test_add_wraps : result (exec (.add 3 1 2 false false) (both 0xFFFFFFFFFFFFFFFF 2)) 3 = some 1 := by decide +kernel
theorem test_sub_order : result (exec (.sub 3 1 2 false false) (both 5 7)) 3 = some 0xFFFFFFFFFFFFFFFE := by decide +kernel
theorem test_div_truncates : result (exec (.div 3 1 2 false false) (both 0xFFFFFFFFFFFFFFF9 2)) 3 = some 0xFFFFFFFFFFFFFFFD := by decide +kernel
theorem test_div_zero : result (exec (.div 3 1 2 false false) (both 7 0)) 3 = some 0xFFFFFFFFFFFFFFFF := by decide +kernel
theorem test_divn : result (exec (.divn 3 1 2 false false) (both 0xFFFFFFFFFFFFFFF9 2)) 3 = some 0x7FFFFFFFFFFFFFFC := by decide +kernel
theorem test_rem_sign : result (exec (.rem 3 1 2 false false) (both 0xFFFFFFFFFFFFFFF9 2)) 3 = some 0xFFFFFFFFFFFFFFFF := by decide +kernel
theorem test_remn : result (exec (.remn 3 1 2 false false) (both 0xFFFFFFFFFFFFFFF9 4)) 3 = some 1 := by decide +kernel
theorem test_mulh : result (exec (.mulh 3 1 2 false false) (both 0xFFFFFFFFFFFFFFFF 2)) 3 = some 0xFFFFFFFFFFFFFFFF := by decide +kernel
theorem test_mulhn : result (exec (.mulhn 3 1 2 false false) (both 0xFFFFFFFFFFFFFFFF 2)) 3 = some 1 := by decide +kernel
theorem test_sra : result (exec (.sra 3 1 2 false false) (both 0x8000000000000000 68)) 3 = some 0xF800000000000000 := by decide +kernel
theorem test_shl_count : result (exec (.shl 3 1 2 false false) (both 1 65)) 3 = some 2 := by decide +kernel
theorem test_slt : result (exec (.slt 3 1 2 false false) (both 0xFFFFFFFFFFFFFFFF 0)) 3 = some 1 := by decide +kernel
theorem test_sltn : result (exec (.sltn 3 1 2 false false) (both 0xFFFFFFFFFFFFFFFF 0)) 3 = some 0 := by decide +kernel
theorem test_max : result (exec (.max 3 1 2 false false) (both 0xFFFFFFFFFFFFFFFF 0)) 3 = some 0 := by decide +kernel
theorem test_maxn : result (exec (.maxn 3 1 2 false false) (both 0xFFFFFFFFFFFFFFFF 0)) 3 = some 0xFFFFFFFFFFFFFFFF := by decide +kernel
theorem test_clz : result (exec (.clz 3 1 false false) (both 0x00010000 0)) 3 = some 47 := by decide +kernel
theorem test_popc : result (exec (.popc 3 1 false false) (both 0xF0F0 0)) 3 = some 8 := by decide +kernel
theorem test_brev : result (exec (.brev 3 1 false false) (both 3 0)) 3 = some 0xC000000000000000 := by decide +kernel
theorem test_sext : result (exec (.sext 3 1 false false 1) (both 0x18000 0)) 3 = some 0xFFFFFFFFFFFF8000 := by decide +kernel
theorem test_zext : result (exec (.zext 3 1 false false 1) (both 0x18000 0)) 3 = some 0x8000 := by decide +kernel
theorem test_addi_sign : result (exec (.addi 3 1 0xFFF) (both 5 0)) 3 = some 4 := by decide +kernel
theorem test_s0_stays_zero : result (exec (.add 0 1 2 false false) (both 5 7)) 0 = some 0 := by decide +kernel

/-- The replicas of R250's token 12,345 with N = 3, and of tokens 1, 2 and 3 with N = 2 (the program after R363). -/
theorem test_repl :
    result (exec (.repl 3 1 2 false false) (both 12345 3)) 3 = some 1 ∧
    result (exec (.repl 3 1 2 false false) (both 12345 0x10003)) 3 = some 2 ∧
    result (exec (.repl 3 1 2 false false) (both 1 2)) 3 = some 1 ∧ result (exec (.repl 3 1 2 false false) (both 2 2)) 3 = some 0 ∧
    result (exec (.repl 3 1 2 false false) (both 3 2)) 3 = some 1 := by
  and_intros <;> decide +kernel

/-- The message that chapter 16 takes through the chain: "YWEgYWI=" is "aa ab", and becomes 256 and 258; "YWEgYW*=" stops with cause 2. -/
theorem test_chain :
    inflateStage 1 0 1000 true [89, 87, 69, 103, 89, 87, 73, 61] = ([0x61, 0x61, 0x20, 0x61, 0x62], 0) ∧
    (nextPiece true [0x61, 0x61, 0x20, 0x61, 0x62] [] 0).map (fun x => (pieceIds [(97, 97), (32, 97), (257, 98)] x.1, x.2)) =
      some ([256], [0x20, 0x61, 0x62]) ∧
    (nextPiece true [0x20, 0x61, 0x62] [] 0).map (fun x => (pieceIds [(97, 97), (32, 97), (257, 98)] x.1, x.2)) = some ([258], []) ∧
    (inflateStage 1 0 1000 true [89, 87, 69, 103, 89, 87, 42, 61]).2 = 2 := by
  and_intros <;> decide +kernel

/-- 1 + 2 in f32, −1 times 0.5 in bf16, and 1 / 3 in f16 to nearest; f32 rounding of 16,777,217. -/
theorem test_float :
    (fpAdd f32 .rne (fpOf f32 0x3F800000) (fpOf f32 0x40000000)).bits = 0x40400000 ∧
    (fpMul bf16 .rne (fpOf bf16 0xBF80) (fpOf bf16 0x3F00)).bits = 0xBF00 ∧
    (fpDiv f16 .rne (fpOf f16 0x3C00) (fpOf f16 0x4200)).bits = 0x3555 ∧
    (intToFp f32 .rne 16777217).bits = 0x4B800000 ∧ (intToFp f32 .rup 16777217).bits = 0x4B800001 := by
  and_intros <;> decide +kernel

/-- The bytes of ADD s3, s1, s2 and of a compact END in memory (R86). -/
theorem test_encode_bytes : encodeBytes (.add 3 1 2 false false) = [0x30, 0x82, 0x00, 0x88] ∧ encodeBytes .compactEnd = [0x00, 0x60] := by
  decide +kernel

end Sys2Proof.Tests
end

section
/-!
PROOFS. Replicas (R250, R465): bit fields of a word as slices of it, the two outcomes of REPL, and the statement about them.
-/

namespace Sys2Proof.Proofs

open Sys2Proof Sys2Proof.Machine

/-! ## Bit fields and slices -/

/-- The spec's field [h:l] is the slice of `h + 1 - l` bits from bit `l` (R1). -/
theorem bits_eq_toNat_extractLsb' (w : Word) (h l : Nat) : bits w h l = (w.extractLsb' l (h + 1 - l)).toNat := by
  rw [BitVec.extractLsb'_toNat, Nat.shiftRight_eq_div_pow, bits]

theorem bits_eq_zero_iff (w : Word) (h l : Nat) : bits w h l = 0 ↔ w.extractLsb' l (h + 1 - l) = 0 := by
  rw [bits_eq_toNat_extractLsb', BitVec.toNat_eq, BitVec.ofNat_eq_ofNat, BitVec.toNat_zero]

theorem bits_from_zero (w : Word) (h : Nat) : bits w h 0 = w.toNat % 2 ^ (h + 1) := by
  rw [bits, pow_zero, Nat.div_one, Nat.sub_zero]

/-! ## How a trapping instruction ends -/

theorem finish_trap (len : Nat) (s : State) (c : Cause) (sub : Nat) (tval : Word) :
    finish len (.trap s c sub tval) = .next (takeTrap s c (causeCode c) sub tval) := rfl

/-! ## REPL -/

/-- A replica word as R250 lays it out: a count from 1 to 256 in [8:0], the attempt in [23:16], every other bit zero. -/
abbrev ReplicaWord (v : Word) : Prop :=
  v.extractLsb' 9 7 = 0 ∧ v.extractLsb' 24 40 = 0 ∧ 1 ≤ v.toNat % 2 ^ 9 ∧ v.toNat % 2 ^ 9 ≤ 256

/-- The replica of the token in `t` by the replica word `v` (R250), in the fields that REPL reads. -/
def replicaOf (t v : Word) : Nat := (tokenHash (bits t 31 0) * bits v 8 0 / 2 ^ 32 + bits v 23 16) % bits v 8 0

theorem replicaOf_eq (t v : Word) :
    replicaOf t v = (t.toNat % 2 ^ 32 * 0x9E3779B1 % 2 ^ 32 * (v.toNat % 2 ^ 9) / 2 ^ 32 + v.toNat / 2 ^ 16 % 2 ^ 8) %
      (v.toNat % 2 ^ 9) := by
  rw [replicaOf, tokenHash, bits_from_zero, bits_from_zero, bits]

/-- REPL's one check (R465) refuses exactly the words that are not replica words. -/
theorem replCheck_iff (v : Word) :
    (bits v 15 9 ≠ 0 ∨ bits v 63 24 ≠ 0 ∨ bits v 8 0 = 0 ∨ 256 < bits v 8 0) ↔ ¬ ReplicaWord v := by
  rw [ReplicaWord, Ne, Ne, bits_eq_zero_iff, bits_eq_zero_iff, bits_from_zero, Nat.one_le_iff_ne_zero, ← not_le]
  tauto

section
variable {d a b : BitVec 5} {x y : Bool} {s : State}

/-- REPL with its registers at hand: its one check, then the replica to sd. -/
theorem exec_repl_of_ready (hr : Ready [rdS s.me a y, rdS s.me b false, wrS s.me d x] s) :
    exec (.repl d a b x y) s = finish 4
      (let v := s.me.rs b false
       if bits v 15 9 ≠ 0 ∨ bits v 63 24 ≠ 0 ∨ bits v 8 0 = 0 ∨ 256 < bits v 8 0 then .trap s .bound 0 v
       else .ok (s.onMe (fun t => t.ws d x (word (replicaOf (s.me.rs a y) v))))) := by
  change execRepl d a b x y s = _
  rw [execRepl, guard_ready hr]
  rfl

theorem exec_repl_of_replicaWord (hr : Ready [rdS s.me a y, rdS s.me b false, wrS s.me d x] s) (hv : ReplicaWord (s.me.rs b false)) :
    exec (.repl d a b x y) s = .next (s.done 4 (fun t => t.ws d x (word (replicaOf (s.me.rs a y) (s.me.rs b false))))) := by
  rw [exec_repl_of_ready hr, if_neg (fun h => (replCheck_iff _).1 h hv), finish_onMe]

theorem exec_repl_of_not_replicaWord (hr : Ready [rdS s.me a y, rdS s.me b false, wrS s.me d x] s)
    (hv : ¬ ReplicaWord (s.me.rs b false)) :
    exec (.repl d a b x y) s = .next (takeTrap s .bound 0x06 0 (s.me.rs b false)) := by
  rw [exec_repl_of_ready hr, if_pos ((replCheck_iff _).2 hv), finish_trap, causeCode]

end

/-- Settles O39: a replica word gives the replica of R250, read off the fields of sa and sb; any other word fails the one check of R465. -/
theorem replicaResult : Obligations.ReplicaResult := by
  intro d a b x y s hr v n h
  by_cases hv : ReplicaWord v
  · rw [exec_repl_of_replicaWord hr hv, if_pos hv, replicaOf_eq, word]
  · rw [exec_repl_of_not_replicaWord hr hv, if_neg hv]

end Sys2Proof.Proofs
end

section
/-!
PROOFS. Integer register forms (R348, R354, R365, R370, R387, R426, R437, R439, R441, R447, R464, R475, R476, R478, R483, R521, R524):
the functions of the forms as the spec states them, what the two shapes of form do with their registers at hand, and the statement
about them.
-/

namespace Sys2Proof.Proofs

open Sys2Proof Sys2Proof.Machine

/-! ## What the forms compute, as the spec says it -/

/-- The remainder belongs to the truncated quotient (R464). -/
theorem remS_eq (a b : Word) :
    remS a b = if b = 0 then a else BitVec.ofInt 64 (a.toInt - a.toInt.tdiv b.toInt * b.toInt) := by
  rw [remS, wordZ, Int.tmod_def, Int.mul_comm]

theorem remN_eq (a b : Word) : remN a b = if b = 0 then a else BitVec.ofNat 64 (a.toNat - a.toNat / b.toNat * b.toNat) := by
  rw [remN, word, Nat.mod_eq_sub_div_mul]

theorem shiftL_eq (a b : Word) : shiftL a b = BitVec.ofNat 64 (a.toNat * 2 ^ (b.toNat % 64)) := by
  rw [← Nat.shiftLeft_eq]; rfl

theorem shiftR_eq (a b : Word) : shiftR a b = BitVec.ofNat 64 (a.toNat / 2 ^ (b.toNat % 64)) := by
  rw [← Nat.shiftRight_eq_div_pow, ← BitVec.toNat_ushiftRight, BitVec.ofNat_toNat, BitVec.setWidth_eq, shiftR]

theorem shiftA_eq (a b : Word) : shiftA a b = BitVec.ofInt 64 (a.toInt / 2 ^ (b.toNat % 64)) := by
  rw [shiftA, BitVec.sshiftRight_eq, Int.shiftRight_eq_div_pow, Nat.cast_pow, Nat.cast_ofNat]

/-- The set bits of a number's lowest `n`, counted by their positions. -/
theorem countBits_eq_countP (m n : Nat) : countBits m n = (List.range n).countP (fun i => m.testBit i) := by
  induction n generalizing m with
  | zero => rfl
  | succ n ih =>
    rw [countBits, ih, List.range_succ_eq_map, List.countP_cons, List.countP_map, Nat.add_comm]
    congr 1
    · exact List.countP_congr fun i _ => by rw [Function.comp_apply, Nat.testBit_succ]
    · rcases Nat.mod_two_eq_zero_or_one m with h | h <;> simp [Nat.testBit_zero, h]

theorem popCount_eq (a : Word) : popCount a = BitVec.ofNat 64 ((List.range 64).countP (fun i => a.getLsbD i)) := by
  rw [popCount, countBits_eq_countP, word]; rfl

theorem bitReverse_eq (a : Word) : bitReverse a = BitVec.ofBoolListLE ((List.range 64).map (fun i => a.getLsbD (63 - i))) := by
  refine BitVec.eq_of_getLsbD_eq fun i hi => ?_
  rw [bitReverse, BitVec.getLsbD_reverse, BitVec.getMsbD_eq_getLsbD]
  refine Eq.trans ?_ BitVec.getLsbD_ofBoolListLE.symm
  simp [List.getD_eq_getElem?_getD, hi]

/-- A number read as a signed number of `w` bits is the signed value of its low `w` bits. -/
theorem signExt_toNat (a : Word) (w : Nat) : signExt a.toNat w = (a.setWidth w).toInt := by
  rw [signExt, BitVec.toInt_eq_toNat_cond, BitVec.toNat_setWidth]
  cases w with
  | zero => simp [Nat.mod_one]
  | succ w => simp only [Nat.add_sub_cancel, Nat.pow_succ', Nat.mul_lt_mul_left Nat.two_pos]

theorem sextTo_eq (z : BitVec 2) (a : Word) : sextTo z a = (a.setWidth (8 * 2 ^ z.toNat)).signExtend 64 := by
  rw [sextTo, signExt_toNat, wordZ, BitVec.signExtend]

theorem zextTo_eq (z : BitVec 2) (a : Word) : zextTo z a = (a.setWidth (8 * 2 ^ z.toNat)).setWidth 64 := by
  rw [zextTo, ← BitVec.toNat_setWidth, word, BitVec.ofNat_toNat]

/-! ## The shapes of the forms, with their registers at hand -/

theorem int3_of_ready {len : Nat} {f : Word → Word → Word} {d a b : BitVec 5} {x y : Bool} {s : State}
    (hr : Ready [rdS s.me a y, rdS s.me b false, wrS s.me d x] s) :
    int3 len f d a b x y s = .next (s.done len (fun t => t.ws d x (f (t.rs a y) (t.rs b false)))) := by
  rw [int3, guard_ready hr, finish_onMe]

theorem int2_of_ready {len : Nat} {f : Word → Word} {d a : BitVec 5} {x y : Bool} {s : State}
    (hr : Ready [rdS s.me a y, wrS s.me d x] s) :
    int2 len f d a x y s = .next (s.done len (fun t => t.ws d x (f (t.rs a y)))) := by
  rw [int2, guard_ready hr, finish_onMe]

/-- A three-register form that, with its registers at hand, completes, writes the function of its sources to sd and changes nothing else
but the PC. -/
def Computes3 (p : (BitVec 5 → BitVec 5 → BitVec 5 → Bool → Bool → Instr) × (Word → Word → Word)) : Prop :=
  ∀ (d a b : BitVec 5) (x y : Bool) (s : State), Ready [rdS s.me a y, rdS s.me b false, wrS s.me d x] s →
    exec (p.1 d a b x y) s = .next (s.done 4 (fun t => t.ws d x (p.2 (t.rs a y) (t.rs b false))))

/-- The same of a two-register form. -/
def Computes2 (p : (BitVec 5 → BitVec 5 → Bool → Bool → Instr) × (Word → Word)) : Prop :=
  ∀ (d a : BitVec 5) (x y : Bool) (s : State), Ready [rdS s.me a y, wrS s.me d x] s →
    exec (p.1 d a x y) s = .next (s.done 4 (fun t => t.ws d x (p.2 (t.rs a y))))

/-- A form executed as the three-register shape of `f` computes every function equal to `f`; both facts are definitional for most forms. -/
theorem computes3_of_int3 {i : BitVec 5 → BitVec 5 → BitVec 5 → Bool → Bool → Instr} (f : Word → Word → Word)
    {g : Word → Word → Word} (hf : ∀ u v, f u v = g u v := by intros; rfl)
    (hexec : ∀ d a b x y s, exec (i d a b x y) s = int3 4 f d a b x y s := by intros; rfl) : Computes3 (i, g) := by
  intro d a b x y s hr
  rw [hexec, int3_of_ready hr, funext₂ hf]

/-- A form executed as the two-register shape of `f` computes every function equal to `f`; both facts are definitional for most forms. -/
theorem computes2_of_int2 {i : BitVec 5 → BitVec 5 → Bool → Bool → Instr} (f : Word → Word) {g : Word → Word}
    (hf : ∀ u, f u = g u := by intros; rfl)
    (hexec : ∀ d a x y s, exec (i d a x y) s = int2 4 f d a x y s := by intros; rfl) : Computes2 (i, g) := by
  intro d a x y s hr
  rw [hexec, int2_of_ready hr, funext hf]

/-- Settles O1: each form is its shape at the model's function, and that function is the spec's. -/
theorem integerFormResult : Obligations.IntegerFormResult := by
  change (∀ p ∈ _, Computes3 p) ∧ (∀ p ∈ _, Computes2 p)
  simp only [List.forall_mem_cons]
  constructor
  case left =>
    exact ⟨computes3_of_int3 (· + ·), computes3_of_int3 (· - ·), computes3_of_int3 (· * ·),
      computes3_of_int3 mulHigh, computes3_of_int3 mulHighN,
      computes3_of_int3 divS, computes3_of_int3 divN, computes3_of_int3 remS remS_eq, computes3_of_int3 remN remN_eq,
      computes3_of_int3 (· &&& ·), computes3_of_int3 (· ||| ·), computes3_of_int3 (· ^^^ ·),
      computes3_of_int3 shiftL shiftL_eq, computes3_of_int3 shiftR shiftR_eq, computes3_of_int3 shiftA shiftA_eq,
      computes3_of_int3 lessS, computes3_of_int3 lessN, computes3_of_int3 minS, computes3_of_int3 minN,
      computes3_of_int3 maxS, computes3_of_int3 maxN, List.forall_mem_nil _⟩
  case right =>
    exact ⟨computes2_of_int2 leadZeros, computes2_of_int2 popCount popCount_eq,
      computes2_of_int2 bitReverse bitReverse_eq, computes2_of_int2 id,
      computes2_of_int2 (sextTo 0) (sextTo_eq 0), computes2_of_int2 (sextTo 1) (sextTo_eq 1),
      computes2_of_int2 (sextTo 2) (sextTo_eq 2), computes2_of_int2 (zextTo 0) (zextTo_eq 0),
      computes2_of_int2 (zextTo 1) (zextTo_eq 1), computes2_of_int2 (zextTo 2) (zextTo_eq 2), List.forall_mem_nil _⟩

end Sys2Proof.Proofs
end

section
/-!
PROOFS. Address, index, extension and format forms (R350, R351, R390, R399, R421, R438, R446, R451, R473, R474): a form whose body is one
change of its strand, the fields of a word put together, EXT and SETFMT in and out of a stream, and the statement about them.
-/

namespace Sys2Proof.Proofs

open Sys2Proof Sys2Proof.Machine

/-! ## A form whose body is one change of its strand -/

/-- What an instruction leaves depends on its change of the strand only at the strand that runs. -/
theorem done_congr {s : State} {len : Nat} {f g : Strand → Strand} (h : f s.me = g s.me) : s.done len f = s.done len g := by
  simp only [State.done, State.onMe, h]

/-- A form that checks its registers and changes its strand by `f` completes with any `g` that agrees with `f` at the running strand; both
facts are definitional for most forms of that shape. -/
theorem exec_eq_done_of_ready {i : Instr} {us : List Use} {s : State} {len : Nat} {g : Strand → Strand} (hr : Ready us s)
    (f : State → Strand → Strand) (hexec : exec i s = finish len (guard us (fun u => .ok (u.onMe (f u))) s) := by rfl)
    (hfg : f s s.me = g s.me := by rfl) : exec i s = .next (s.done len g) := by
  rw [hexec, guard_ready hr, finish_onMe, done_congr hfg]

/-! ## Fields put together -/

/-- Two bit vectors side by side, as the number that the model computes. -/
theorem ofNat_eq_append {m n : Nat} (x : BitVec m) (y : BitVec n) : BitVec.ofNat (m + n) (x.toNat * 2 ^ n + y.toNat) = x.append y := by
  refine BitVec.eq_of_toNat_eq ?_
  have happ : (x.append y).toNat = x.toNat * 2 ^ n + y.toNat := by
    rw [BitVec.append_eq, BitVec.toNat_append, ← Nat.shiftLeft_add_eq_or_of_lt y.isLt, Nat.shiftLeft_eq]
  rw [← happ, BitVec.ofNat_toNat, BitVec.setWidth_eq]

/-- A pointer's low 60 bits as a number. -/
theorem bits_59_0 (p : Word) : bits p 59 0 = (p.setWidth 60).toNat := by
  rw [bits_from_zero, BitVec.toNat_setWidth]

theorem tagOf_eq (p : Word) : tagOf p = (p.extractLsb' 60 4).toNat := bits_eq_toNat_extractLsb' p 63 60

/-- ADDP keeps the tag and adds modulo 2^60 below it (R350). -/
theorem addPtr_eq (p v : Word) : addPtr p v = (p.extractLsb' 60 4).append (p.setWidth 60 + v.setWidth 60) := by
  have hsum : (((bits p 59 0 : Int) + (bits v 59 0 : Nat)) % (2 ^ 60 : Int)).toNat = (p.setWidth 60 + v.setWidth 60).toNat := by
    rw [bits_59_0, bits_59_0, BitVec.toNat_add]
    exact_mod_cast rfl
  rw [addPtr, ptrAdd, hsum, tagOf_eq, word, ← ofNat_eq_append]

/-- PMAKE puts a tag above the low 60 bits (R446). -/
theorem word_tag_eq_append (tag : BitVec 4) (p : Word) : word (tag.toNat * 2 ^ 60 + bits p 59 0) = tag.append (p.setWidth 60) := by
  rw [bits_59_0, word, ← ofNat_eq_append]

theorem word_tagOf (p : Word) : word (tagOf p) = (p.extractLsb' 60 4).setWidth 64 := by
  rw [tagOf_eq, word, BitVec.ofNat_toNat]

/-- EXT.hi puts six bits above the low 26 of its register (R390). -/
theorem extHi_value (h : BitVec 6) (e : BitVec 32) : BitVec.ofNat 32 (h.toNat * 2 ^ 26 + e.toNat % 2 ^ 26) = h.append (e.setWidth 26) := by
  rw [← BitVec.toNat_setWidth, ← ofNat_eq_append]

/-! ## FMT -/

/-- NXA is FMT's field [5:4] and NXB its field [7:6]; 3 is no value of theirs (R81). -/
theorem fmtBad_iff (v : Word) : fmtBad v = true ↔ v.extractLsb' 4 2 = 3 ∨ v.extractLsb' 6 2 = 3 := by
  rw [fmtBad, Bool.or_eq_true, beq_iff_eq, beq_iff_eq, bits_eq_toNat_extractLsb', bits_eq_toNat_extractLsb',
    BitVec.toNat_eq (y := 3), BitVec.toNat_eq (y := 3)]
  rfl

/-- SETFMT in a subscriber: the stream's control fields, SAT and FLG as it writes them (R473). -/
theorem carryFmt_setFmt (f : BitVec 27) (v : Word) :
    carryFmt f (setFmt v) = (f &&& ~~~0x3F0000) ||| (v.setWidth 27 &&& 0x3F0000) := by
  have hsticky : fmtBits &&& fmtSticky = 0x3F0000 := by decide
  rw [carryFmt, setFmt, BitVec.and_assoc, hsticky, fmtSticky]

/-! ## EXT and SETFMT, in and out of a stream -/

section
variable {s : State} {p : Pub}

theorem finish_writeExt_alone (h : s.carried = none) (len : Nat) (n : BitVec 2) (v : BitVec 32) :
    finish len (writeExt n v s) = .next (s.done len (fun t => { t with ereg := t.ereg.setIfInBounds n.toNat v })) := by
  rw [writeExt, h, finish_onMe]

theorem finish_writeExt_carried (h : s.carried = some p) (len : Nat) (n : BitVec 2) (v : BitVec 32) :
    finish len (writeExt n v s) = .next (s.done len (fun t => { t with ereg := p.ereg, fmt := carryFmt p.fmt t.fmt })) := by
  rw [writeExt, h, finish_onMe]

theorem exec_extHi_alone (hs : s.carried = none) (n : BitVec 2) (h : BitVec 6) :
    exec (.extHi n h) s = .next (s.done 4 (fun t =>
      { t with ereg := t.ereg.setIfInBounds n.toNat (h.append ((t.e n.toNat).setWidth 26)) })) := by
  change execExtHi n h s = _
  rw [execExtHi, finish_writeExt_alone hs, extHi_value]
  exact congrArg _ (done_congr rfl)

theorem exec_setfmt_alone {a : BitVec 5} {y : Bool} (hr : Ready [rdS s.me a y] s) (h : s.carried = none) :
    exec (.setfmt a y) s =
      if (s.me.rs a y).extractLsb' 4 2 = 3 ∨ (s.me.rs a y).extractLsb' 6 2 = 3 then
        .next (takeTrap s .illop 0x01 0 (instrWord (.setfmt a y)))
      else .next (s.done 4 (fun t => { t with fmt := (t.rs a y).setWidth 27 &&& 0x7FF01F3 })) := by
  change execSetfmt a y s = _
  rw [execSetfmt, guard_ready hr, h]
  by_cases hbad : fmtBad (s.me.rs a y) = true
  · rw [if_pos ((fmtBad_iff _).1 hbad)]
    simp only [hbad, if_true, finish_trap, causeCode]
  · rw [if_neg (fun c => hbad ((fmtBad_iff _).2 c))]
    simp only [hbad, Bool.false_eq_true, if_false, finish_onMe]
    rfl

theorem exec_setfmt_carried {a : BitVec 5} {y : Bool} (hr : Ready [rdS s.me a y] s) (h : s.carried = some p) :
    exec (.setfmt a y) s = .next (s.done 4 (fun t =>
      { t with fmt := (p.fmt &&& ~~~0x3F0000) ||| ((t.rs a y).setWidth 27 &&& 0x3F0000), ereg := p.ereg })) := by
  change execSetfmt a y s = _
  rw [execSetfmt, guard_ready hr, h]
  simp only [finish_onMe, carryFmt_setFmt]

end

/-- Settles O3: each form is one change of its strand at the value that the spec gives; EXT, EXT.hi and SETFMT as the stream has it. -/
theorem addressAndFormatResult : Obligations.AddressAndFormatResult := by
  refine ⟨⟨?leaAddp, ?pmakePtag, ?xi, ?fmtMsgid⟩, ?extAlone, ?extCarried, ?setfmtAlone, ?setfmtCarried⟩
  case leaAddp =>
    intro d a b x y sh s hr
    exact ⟨exec_eq_done_of_ready hr (fun _ t => t.ws d x (t.rs a y + t.rs b false <<< sh.toNat)),
      exec_eq_done_of_ready hr (fun _ t => t.ws d x (addPtr (t.rs a y) (t.rs b false))) rfl (congrArg _ (addPtr_eq _ _))⟩
  case pmakePtag =>
    intro d a tag x y s hr
    exact ⟨exec_eq_done_of_ready hr (fun _ t => t.ws d x (word (tag.toNat * 2 ^ 60 + bits (t.rs a y) 59 0))) rfl
        (congrArg _ (word_tag_eq_append _ _)),
      exec_eq_done_of_ready hr (fun _ t => t.ws d x (word (tagOf (t.rs a y)))) rfl (congrArg _ (word_tagOf _))⟩
  case xi =>
    intro a y i s
    exact ⟨fun hr => exec_eq_done_of_ready hr (fun _ t => { t with xi := (t.rs a y).setWidth 16 }), finish_onMe 4 s _⟩
  case fmtMsgid =>
    intro d x s hr
    exact ⟨exec_eq_done_of_ready hr (fun _ t => t.ws d x (t.fmt.setWidth 64)), exec_eq_done_of_ready hr (fun _ t => t.ws d x t.msgid)⟩
  case extAlone => exact fun n i h s hs => ⟨finish_writeExt_alone hs 4 n _, exec_extHi_alone hs n h⟩
  case extCarried => exact fun n i h s p hs => ⟨finish_writeExt_carried hs 4 n _, finish_writeExt_carried hs 4 n _⟩
  case setfmtAlone => exact fun a y s hr hs => exec_setfmt_alone hr hs
  case setfmtCarried => exact fun a y s p hr hs => exec_setfmt_carried hr hs

end Sys2Proof.Proofs
end

section
/-!
PROOFS. Mask forms, element moves, match and sparse forms (R411, R507, R510, R514-R516): set bits counted, forms that raise flags, a read
of staged bytes, the sparsity checks, and the statement about them.
-/

namespace Sys2Proof.Proofs

open Sys2Proof Sys2Proof.Machine

/-! ## Values -/

/-- KPOP counts the set bits of a mask (R411). -/
theorem word_countBits_mask (m : BitVec 16) :
    word (countBits m.toNat 16) = BitVec.ofNat 64 ((List.range 16).countP (fun i => m.getLsbD i)) := by
  rw [countBits_eq_countP, word]; rfl

/-! ## Forms of one or two masks -/

/-- A form of two masks with its registers at hand. -/
theorem mask3_of_ready {f : BitVec 16 → BitVec 16 → BitVec 16} {d a b : BitVec 3} {s : State} (hr : Ready [rdK a, rdK b, wrK d] s) :
    mask3 f d a b s = .next (s.done 4 (fun t => t.setK d.toNat (f (t.k a.toNat) (t.k b.toNat)))) := by
  rw [mask3, guard_ready hr, finish_onMe]

/-! ## Forms that raise flags -/

/-- A vector form ends with FPX where an enabled flag is raised, and otherwise with its register and the flags written (R506, R121). -/
theorem finish_vecDone (len : Nat) (d : BitVec 5) (o : VecOut) (s : State) : finish len (vecDone d o s) = .next (s.raisedV len d o) := by
  rw [State.raisedV, State.raised, vecDone]
  rcases raising_cases o.flags o.sat (fun s => s.onMe (fun t => t.setV d.toNat o.val)) s with ⟨hfl, h⟩ | ⟨hfl, h⟩
  · rw [h, if_pos hfl, finish_trap, causeCode]
  · rw [h, if_neg (not_not.2 hfl), finish_onMe, done_onMe]

/-! ## Staged bytes of a stream register -/

section
variable {s : State} {n need : Nat}

/-- Bytes of a KIND 1 register are consumed by a change of the strand alone. -/
theorem consume_of_kind_one (hk : (s.me.q n).kind = 1) (hm : (s.me.q n).msgs = []) :
    consume s n (s.me.q n) need = s.onMe (fun t => t.setQ n { t.q n with
      stage := (t.q n).stage.drop need, rptr := (t.q n).rptr + need }) := by
  have hkind : ¬ (s.me.q n).kind = 3 := by rw [hk]; decide
  simp only [consume, if_neg hkind, State.onMe, hm, List.drop_nil]

/-- A read of a KIND 1 register that has its bytes staged takes them (R149). -/
theorem streamRead_of_staged (hk : (s.me.q n).kind = 1) (hlen : need ≤ (s.me.q n).stage.length) (hf : s.me.faults = [])
    (hm : (s.me.q n).msgs = []) (k : State → List Byte → State) :
    streamRead n need k s = .ok (k (s.onMe (fun t => t.setQ n { t.q n with
      stage := (t.q n).stage.drop need, rptr := (t.q n).rptr + need })) ((s.me.q n).stage.take need)) := by
  have h0 : ¬ (s.me.q n).kind = 0 := by rw [hk]; decide
  have h2 : ¬ ((s.me.q n).kind = 2 ∧ (s.me.q n).limit < (s.me.q n).rptr + need) := by rw [hk]; exact fun h => absurd h.1 (by decide)
  simp only [streamRead, if_neg h0, if_neg h2, hf, List.find?_nil, if_neg (Nat.not_lt.2 hlen), consume_of_kind_one hk hm]

end

/-! ## Sparse forms -/

/-- The checks of e0 before a sparse form's body (R510, R514). -/
theorem finish_sparseCheck (len : Nat) (t : BitVec 4) (body : State → Res) (s : State) :
    finish len (sparseCheck t body s) =
      if sparseOk (s.me.e 0).toNat (16 / elemBytes t.toNat) then finish len (body s)
      else .next (takeTrap s .bound 0x06 0 ((s.me.e 0).setWidth 64)) := by
  rw [sparseCheck, apply_ite (finish len), finish_trap, causeCode]

section
variable {d a b : BitVec 5} {k : BitVec 3} {t : BitVec 4} {s : State}

theorem exec_vcompress_of_ready (hr : Ready [rdV a, wrV b, rdK k, wrV d] s) :
    exec (.vcompress d a b k t) s = .next
      (if sparseOk (s.me.e 0).toNat (16 / elemBytes t.toNat) then
        s.done 4 (fun u => (u.setV d.toNat (vecCompress t.toNat (s.me.e 0).toNat (s.me.k k.toNat) (s.me.v a.toNat)).1).setV b.toNat
          (vecCompress t.toNat (s.me.e 0).toNat (s.me.k k.toNat) (s.me.v a.toNat)).2)
      else takeTrap s .bound 0x06 0 ((s.me.e 0).setWidth 64)) := by
  change execVcompress d a b k t s = _
  rw [execVcompress, guard_ready hr, finish_sparseCheck, apply_ite Host.Outcome.next, finish_onMe]

theorem exec_vexpand_of_refused (hr : Ready [rdV a, rdV b, rdK k, rwV d] s)
    (he : ¬ sparseOk (s.me.e 0).toNat (16 / elemBytes t.toNat) = true) :
    exec (.vexpand d a b k t) s = .next (takeTrap s .bound 0x06 0 ((s.me.e 0).setWidth 64)) := by
  change execVexpand d a b k t s = _
  rw [execVexpand, guard_ready hr, finish_sparseCheck, if_neg he]

theorem exec_vexpand_of_malformed {x : Nat} (hr : Ready [rdV a, rdV b, rdK k, rwV d] s)
    (he : sparseOk (s.me.e 0).toNat (16 / elemBytes t.toNat) = true)
    (hx : vecExpand t.toNat (s.me.e 0).toNat (s.me.k k.toNat) (s.me.v a.toNat) (s.me.v b.toNat) (s.me.v d.toNat) = .error x) :
    exec (.vexpand d a b k t) s = .next (takeTrap s .metabad 0x0C 0 (BitVec.ofNat 64 x)) := by
  change execVexpand d a b k t s = _
  rw [execVexpand, guard_ready hr, finish_sparseCheck, if_pos he, hx, finish_trap, causeCode, word]

theorem exec_vexpand_of_expanded {v : Vec} (hr : Ready [rdV a, rdV b, rdK k, rwV d] s)
    (he : sparseOk (s.me.e 0).toNat (16 / elemBytes t.toNat) = true)
    (hv : vecExpand t.toNat (s.me.e 0).toNat (s.me.k k.toNat) (s.me.v a.toNat) (s.me.v b.toNat) (s.me.v d.toNat) = .ok v) :
    exec (.vexpand d a b k t) s = .next (s.done 4 (fun u => u.setV d.toNat v)) := by
  change execVexpand d a b k t s = _
  rw [execVexpand, guard_ready hr, finish_sparseCheck, if_pos he, hv, finish_onMe]

end

/-- Settles O10: the register checks pass, and each form is one change of its strand, a form that raises flags, or a form that first checks
e0. -/
theorem maskAndMoveResult : Obligations.MaskAndMoveResult := by
  refine ⟨fun d a b e c s => ⟨?maskPairs, ?masks, ?kmovScalar, ?maskToScalar⟩, fun d a b k t s => ⟨?vsel, ?vbcast⟩,
    fun d a l t s => ⟨?vins, ?vmovs⟩, ?vmovsStream, ?vmatch, ?vcompress, ?vexpand⟩
  case maskPairs =>
    simp only [List.forall_mem_cons]
    exact ⟨mask3_of_ready, mask3_of_ready, mask3_of_ready, List.forall_mem_nil _⟩
  case masks =>
    intro hr
    exact ⟨exec_eq_done_of_ready hr (fun _ t => t.setK d.toNat (~~~ t.k a.toNat)),
      exec_eq_done_of_ready hr (fun _ t => t.setK d.toNat (t.k a.toNat))⟩
  case kmovScalar => exact fun hr => exec_eq_done_of_ready hr (fun _ t => t.setK d.toNat ((t.rs c false).setWidth 16))
  case maskToScalar =>
    intro hr
    exact ⟨exec_eq_done_of_ready hr (fun _ t => t.ws e false (word (countBits (t.k a.toNat).toNat 16))) rfl
        (congrArg _ (word_countBits_mask _)),
      exec_eq_done_of_ready hr (fun _ t => t.ws e false (word (firstBit (t.k a.toNat))))⟩
  case vsel =>
    intro hr
    change execVsel d a b k t s = _
    rw [execVsel, guard_ready hr, finish_vecDone]
  case vbcast =>
    intro hr
    change execVbcast d a k t s = _
    rw [execVbcast, guard_ready hr, finish_vecDone]
  case vins =>
    exact fun hr => exec_eq_done_of_ready hr
      (fun s u => u.setV d.toNat (vecIns t.toNat l.toNat (s.me.rs a false) (s.me.v d.toNat)))
  case vmovs =>
    exact fun hr => exec_eq_done_of_ready hr (fun s u => u.ws d false (vecLane t.toNat l.toNat (s.me.v a.toNat)))
  case vmovsStream =>
    intro d n s hr hk hlen hf hm
    change execVmovsStream d n s = _
    rw [execVmovsStream, guard_ready hr, streamRead_of_staged hk hlen hf hm, onMe_onMe, finish_onMe]
    exact congrArg _ (done_congr rfl)
  case vmatch =>
    intro d a b k p w s hr
    exact exec_eq_done_of_ready hr (fun s u =>
      (u.setV d.toNat (vecMatch (2 ^ w.toNat) p.toNat (s.me.k k.toNat) (s.me.v a.toNat) (s.me.v b.toNat)).1).setK k.toNat
        (vecMatch (2 ^ w.toNat) p.toNat (s.me.k k.toNat) (s.me.v a.toNat) (s.me.v b.toNat)).2)
  case vcompress => exact fun d a b k t s hr => exec_vcompress_of_ready hr
  case vexpand =>
    intro d a b k t s hr
    by_cases he : sparseOk (s.me.e 0).toNat (16 / elemBytes t.toNat) = true
    · rw [if_pos he]
      cases hv : vecExpand t.toNat (s.me.e 0).toNat (s.me.k k.toNat) (s.me.v a.toNat) (s.me.v b.toNat) (s.me.v d.toNat) with
      | error x => exact exec_vexpand_of_malformed hr he hv
      | ok v => exact exec_vexpand_of_expanded hr he hv
    · rw [if_neg he, exec_vexpand_of_refused hr he]

end Sys2Proof.Proofs
end

section
/-!
PROOFS. Immediate, move and compact integer forms (R91, R349, R355, R422, R437, R442, R470, R477, R478, R522): immediates and register
fields as the spec reads them, the compact shapes of form with their registers at hand, and the statement about them.
-/

namespace Sys2Proof.Proofs

open Sys2Proof Sys2Proof.Machine

/-! ## Immediates -/

theorem simmW_eq_signExtend {n : Nat} (i : BitVec n) : simmW i = i.signExtend 64 := rfl

/-- A shift's immediate of at most six bits is the amount itself. -/
theorem shiftImm_mod {n : Nat} (hn : n ≤ 6) (i : BitVec n) : (i.setWidth 64).toNat % 64 = i.toNat := by
  have hlt : i.toNat < 64 := i.isLt.trans_le (Nat.pow_le_pow_right Nat.two_pos hn)
  rw [BitVec.toNat_setWidth, Nat.mod_eq_of_lt (hlt.trans (by decide)), Nat.mod_eq_of_lt hlt]

section
variable {n : Nat} (hn : n ≤ 6) (v : Word) (i : BitVec n)
include hn

theorem shiftL_imm : shiftL v (i.setWidth 64) = v <<< i.toNat := by rw [shiftL, shiftImm_mod hn]

theorem shiftR_imm : shiftR v (i.setWidth 64) = v >>> i.toNat := by rw [shiftR, shiftImm_mod hn]

theorem shiftA_imm : shiftA v (i.setWidth 64) = v.sshiftRight i.toNat := by rw [shiftA, shiftImm_mod hn]

end

/-- LI.d puts e1 above e0 (R422). -/
theorem word_pair_eq_append (x y : BitVec 32) : word (x.toNat * 2 ^ 32 + y.toNat) = x.append y := ofNat_eq_append x y

/-! ## Window registers -/

theorem win_getElem?_getD (w : Vector Word 8) (n : BitVec 3) : (w[n.toNat]?).getD 0 = w.get n.toFin := by
  have hlt : n.toNat < 8 := n.isLt
  rw [Vector.getElem?_eq_getElem hlt, Option.getD_some]
  rfl

/-! ## Compact register fields -/

/-- A compact field names the register of its own number: it is never relative (R90). -/
theorem reg_wide (t : Strand) (f : BitVec 3) : t.reg (wide f).toNat false = f.toNat := by
  rw [Strand.reg, Strand.idx, wide, BitVec.toNat_setWidth_of_le (by decide)]
  simp

theorem rs_wide (t : Strand) (f : BitVec 3) : t.rs (wide f) false = t.s f.toNat := by rw [Strand.rs, reg_wide]

theorem ws_wide (t : Strand) (f : BitVec 3) (v : Word) : t.ws (wide f) false v = t.setS f.toNat v := by rw [Strand.ws, reg_wide]

/-! ## The compact shapes, with their registers at hand -/

section
variable {d a b : BitVec 3} {s : State}

theorem compact3_of_ready {f : Word → Word → Word}
    (hr : Ready [rdS s.me (wide a) false, rdS s.me (wide b) false, wrS s.me (wide d) false] s) :
    int3 2 f (wide d) (wide a) (wide b) false false s =
      .next (s.done 2 (fun t => t.setS d.toNat (f (t.s a.toNat) (t.s b.toNat)))) := by
  simp only [int3_of_ready hr, ws_wide, rs_wide]

theorem compact2_of_ready {f : Word → Word} (hr : Ready [rdS s.me (wide a) false, wrS s.me (wide d) false] s) :
    int2 2 f (wide d) (wide a) false false s = .next (s.done 2 (fun t => t.setS d.toNat (f (t.s a.toNat)))) := by
  simp only [int2_of_ready hr, ws_wide, rs_wide]

theorem compact1_of_ready {f : Strand → Word} (hr : Ready [wrS s.me (wide d) false] s) :
    int1 2 f (wide d) false s = .next (s.done 2 (fun t => t.setS d.toNat (f t))) := by
  rw [int1, guard_ready hr, finish_onMe]
  simp only [ws_wide]

end

/-! ## MOV of staged bytes -/

theorem exec_movStream_of_staged {d : BitVec 5} {n : BitVec 3} {x : Bool} {s : State} (hr : Ready [wrS s.me d x] s)
    (hk : (s.me.q n.toNat).kind = 1) (hlen : 8 ≤ (s.me.q n.toNat).stage.length) (hf : s.me.faults = [])
    (hm : (s.me.q n.toNat).msgs = []) :
    exec (.movStream d n x) s = .next (s.done 4 (fun t =>
      (t.setQ n.toNat { t.q n.toNat with
        stage := (t.q n.toNat).stage.drop 8, rptr := (t.q n.toNat).rptr + 8 }).ws d x
          (BitVec.ofNat 64 (leNat ((t.q n.toNat).stage.take 8))))) := by
  change execMovStream d n x s = _
  rw [execMovStream, guard_ready hr, streamRead_of_staged hk hlen hf hm, onMe_onMe, finish_onMe]
  exact congrArg _ (done_congr rfl)

/-! ## Families of forms -/

/-- A form of a register and an immediate that, with its registers at hand, completes, writes the function of its source and its immediate,
read by `imm`, to sd and changes nothing else but the PC. -/
def ComputesImm {n : Nat} {β : Type} (imm : BitVec n → β) (p : (BitVec 5 → BitVec 5 → BitVec n → Instr) × (Word → β → Word)) : Prop :=
  ∀ (d a : BitVec 5) (i : BitVec n) (s : State), Ready [rdS s.me a false, wrS s.me d false] s →
    exec (p.1 d a i) s = .next (s.done 4 (fun t => t.ws d false (p.2 (t.rs a false) (imm i))))

/-- A compact form of three registers that does the same with the function of its two sources, and goes on 2 bytes further. -/
def ComputesCompact3 (p : (BitVec 3 → BitVec 3 → BitVec 3 → Instr) × (Word → Word → Word)) : Prop :=
  ∀ (d a b : BitVec 3) (s : State), Ready [rdS s.me (wide a) false, rdS s.me (wide b) false, wrS s.me (wide d) false] s →
    exec (p.1 d a b) s = .next (s.done 2 (fun t => t.setS d.toNat (p.2 (t.s a.toNat) (t.s b.toNat))))

/-- A form executed as the two-register shape of `f` at its immediate computes every function equal to `f`; both facts are definitional for
most forms. -/
theorem computesImm_of_int2 {n : Nat} {β : Type} {imm : BitVec n → β} {ins : BitVec 5 → BitVec 5 → BitVec n → Instr}
    {g : Word → β → Word} (f : Word → BitVec n → Word) (hf : ∀ v i, f v i = g v (imm i) := by intros; rfl)
    (hexec : ∀ d a i s, exec (ins d a i) s = int2 4 (f · i) d a false false s := by intros; rfl) : ComputesImm imm (ins, g) := by
  intro d a i s hr
  simp only [hexec, int2_of_ready hr, hf]

/-- A compact form executed as the three-register shape of `f` computes `f`. -/
theorem computesCompact3_of_int3 {ins : BitVec 3 → BitVec 3 → BitVec 3 → Instr} (f : Word → Word → Word)
    (hexec : ∀ d a b s, exec (ins d a b) s = int3 2 f (wide d) (wide a) (wide b) false false s := by intros; rfl) :
    ComputesCompact3 (ins, f) := by
  intro d a b s hr
  rw [hexec, compact3_of_ready hr]

/-- Settles O2: each form is one change of its strand at the value that the spec gives, and a compact form that of its shape at s0-s7. -/
theorem immediateAndMoveResult : Obligations.ImmediateAndMoveResult := by
  change ((∀ p ∈ _, ComputesImm (BitVec.signExtend 64) p) ∧ (∀ p ∈ _, ComputesImm BitVec.toNat p) ∧ _) ∧ _ ∧
    (∀ p ∈ _, ComputesCompact3 p) ∧ _
  refine ⟨⟨?imm, ?shiftImm, ?li⟩, ⟨?sel, ?movWindow, ?movStream⟩, ?compact3, ?compact2, ?compactLi⟩
  case imm =>
    simp only [List.forall_mem_cons]
    exact ⟨computesImm_of_int2 (fun v i => v + simmW i), computesImm_of_int2 (fun v i => v &&& simmW i),
      computesImm_of_int2 (fun v i => v ||| simmW i), computesImm_of_int2 (fun v i => v ^^^ simmW i),
      computesImm_of_int2 (fun v i => lessS v (simmW i)), List.forall_mem_nil _⟩
  case shiftImm =>
    simp only [List.forall_mem_cons]
    exact ⟨computesImm_of_int2 (fun v i => shiftL v (i.setWidth 64)) (shiftL_imm le_rfl),
      computesImm_of_int2 (fun v i => shiftR v (i.setWidth 64)) (shiftR_imm le_rfl),
      computesImm_of_int2 (fun v i => shiftA v (i.setWidth 64)) (shiftA_imm le_rfl), List.forall_mem_nil _⟩
  case li =>
    intro d i s hr
    exact ⟨exec_eq_done_of_ready hr (fun _ t => t.ws d false (simmW i)),
      exec_eq_done_of_ready hr (fun _ t => t.ws d false (simmW (t.e 0))),
      exec_eq_done_of_ready hr (fun _ t => t.ws d false (word ((t.e 1).toNat * 2 ^ 32 + (t.e 0).toNat))) rfl
        (congrArg _ (word_pair_eq_append _ _))⟩
  case sel =>
    exact fun d a b c x y s hr =>
      exec_eq_done_of_ready hr (fun _ t => t.ws d x (if t.rs c false ≠ 0 then t.rs a y else t.rs b false))
  case movWindow =>
    exact fun d n x s hr => exec_eq_done_of_ready hr (fun _ t => t.ws d x ((t.win[n.toNat]?).getD 0)) rfl
      (congrArg _ (win_getElem?_getD _ n))
  case movStream => exact fun d n x s hr hk hlen hf hm => exec_movStream_of_staged hr hk hlen hf hm
  case compact3 =>
    simp only [List.forall_mem_cons]
    exact ⟨computesCompact3_of_int3 (· + ·), computesCompact3_of_int3 (· - ·), computesCompact3_of_int3 (· &&& ·),
      computesCompact3_of_int3 (· ||| ·), computesCompact3_of_int3 (· ^^^ ·), computesCompact3_of_int3 shiftL,
      computesCompact3_of_int3 shiftR, computesCompact3_of_int3 shiftA, computesCompact3_of_int3 lessS, List.forall_mem_nil _⟩
  case compact2 =>
    intro d a i s hr
    have hi : 4 ≤ 6 := by decide
    simp only [← simmW_eq_signExtend, ← shiftL_imm hi, ← shiftR_imm hi]
    exact ⟨compact2_of_ready (f := id) hr, compact2_of_ready (f := (· + simmW i)) hr,
      compact2_of_ready (f := (shiftL · (i.setWidth 64))) hr, compact2_of_ready (f := (shiftR · (i.setWidth 64))) hr⟩
  case compactLi => exact fun d i s hr => compact1_of_ready (f := fun _ => simmW i) hr

end Sys2Proof.Proofs
end
